-- ==== Sys2Proof/Word.lean ====
section
/-!
DEFINITION. The word types: a byte, and the plain names of the quantities of 00 R11 as the engines compute with them.
-/

namespace Sys2Proof

/-- One byte of channel memory. -/
abbrev Byte := BitVec 8

/-- A web position in nanometres as the engines compute with it (POS64 of R11 read as a signed number). -/
abbrev Pos := Int

/-- A device time in units of 2^-16 ns (TIME64 of R11: nanoseconds·65,536 + fraction). -/
abbrev Ticks := Nat

/-- A time-stamp that a step of device time moves along (R129): a step may carry it before the epoch. -/
abbrev Stamp := Int

end Sys2Proof
end

