-- ==== Sys2Proof/Syntax.lean ====
section
/-!
DEFINITION. The commands the block takes: one constructor for each row of spec/opcode_table.json, with what comes from outside as its
operands.
-/

namespace Sys2Proof

/-- The path a write came by (R66): a KDP request or the mailbox, whose answer carries the status, or a BAR of a function, where a
rejection goes to BAR_ERR (R93). -/
inductive Via
  | kdp
  | bar (fn : Fin 7)
deriving DecidableEq, Repr

/-- A datagram at port 47810 of a network port: its source and form (R72) and its UDP payload. -/
structure Datagram where
  port : Fin 2
  srcIp : Nat
  srcPort : Nat
  vlan : Bool := false
  ipOptions : Bool := false
  fragment : Bool := false
  payload : List Nat
deriving DecidableEq, Repr

/-- The ranking data of a PTP clock, in the order the default algorithm compares them (R139). -/
structure PtpRank where
  priority1 : Nat
  clockClass : Nat
  accuracy : Nat
  variance : Nat
  priority2 : Nat
  identity : Nat
  steps : Nat
deriving DecidableEq, Repr

/-- What a received PTP message is (R139). Times in 2^-16 ns. -/
inductive PtpBody
  | sync (twoStep : Bool) (origin : Ticks)
  | followUp (origin : Ticks)
  | delayReq
  /-- `requester` is the requestingPortIdentity of the answer -/
  | delayResp (received : Ticks) (requester : Nat)
  | pdelayReq
  | pdelayResp (twoStep : Bool) (received : Ticks) (requester : Nat)
  | pdelayRespFollowUp (sent : Ticks) (requester : Nat)
  | announce (rank : PtpRank) (utc : Int)
  /-- a message outside the supported subset -/
  | unsupported
deriving DecidableEq, Repr

/-- A received PTP message: its header and the PCS time-stamp (R140). -/
structure PtpMsg where
  domain : Nat
  seq : Nat
  sender : Nat
  correction : Int
  stamp : Ticks
  /-- the place of the stamp in its RS-FEC codeword, in bits -/
  place : Nat := 0
  body : PtpBody
deriving DecidableEq, Repr

/-- A unit of a CoaXPress stream: an image header naming a PIX_FORMAT code (0 for another format), tap pixels, or the line end (R177). -/
inductive StreamUnit
  | header (format : Nat)
  | pixels (ps : List (List Nat))
  | lineEnd
deriving DecidableEq, Repr

/-- The levels that A and B of an encoder have taken (R101). -/
structure EncLevels where
  a : Bool
  b : Bool
deriving DecidableEq, Repr

/-- When an encoder's levels are taken: the consecutive samples that have carried the level of A and that of B (R101), and the ENCCLK
cycle since the last time update (R102). -/
structure EncSamples where
  heldA : Nat
  heldB : Nat
  cycle : Fin 4
deriving DecidableEq, Repr

/-- The level that Z of encoder `i` has taken, and the consecutive samples that have carried it (R101, R106). -/
structure EncZ where
  i : Fin 8
  z : Bool
  held : Nat
deriving DecidableEq, Repr

/-- A head or a divided output `at_`, and the ENCCLK cycle since the last time update in which it acts (R120, R124). -/
structure EncTick where
  at_ : Fin 4
  cycle : Fin 4
deriving DecidableEq, Repr

/-- The level that LVAL of a channel's aux port goes to (R180). -/
structure AuxLval where
  chan : Fin 6
  level : Bool
deriving DecidableEq, Repr

/-- A PCLK edge of an aux line (R180): falling or rising, the levels of DVAL and FVAL, and AUX_D. A sample that finds AUX_FIFO full is lost
(R25). -/
structure AuxEdge where
  falling : Bool
  dval : Bool
  fval : Bool
  code : Nat
  full : Bool := false
deriving DecidableEq, Repr

/-- The calibration store as it answers at PORST (R501, R508): its JEDEC ID, the capacity its SFDP table names, and the bytes that read
otherwise than the device left them, by store address. -/
structure StoreDev where
  jedec : Nat
  capacity : Nat
  changed : List (Nat × Nat) := []
deriving DecidableEq, Repr

/-- A port whose receive crossing overruns (R25): NET_RX of a network port, BW_RX of a ring port. -/
inductive RxPort
  | net (p : Fin 2)
  | ring (p : Fin 2)
deriving DecidableEq, Repr

/-- An ALIGN block of a lane (R163) and its arrival in blocks after the first of its period. -/
structure AlignBlock where
  lane : Nat := 0
  width : Nat := 0
  gen : Nat := 0
  seq : Nat := 0
  delay : Nat := 0
deriving DecidableEq, Repr


/-- A Boardwalk frame as received (R544): its header fields and the 20 bytes of its body. -/
structure RingFrame where
  src : Nat
  hops : Nat
  seq : Nat
  accum : Nat
  body : List Nat
deriving DecidableEq, Repr

/-- A part of a channel that publishes its snapshot of a generation on its own (R50). -/
inductive Part
  | input
  | front
  | stats (head : Fin 4)
  | geometry
  | seg
  | strike
  | check (k : Fin 8)
  | lmon (i : Fin 2)
deriving DecidableEq, Repr


/-- A BAR of a function that a host access names (16 R452). -/
inductive HostBar
  | bar0 | bar2
deriving DecidableEq, Repr

/-- A register of a function's configuration space (16 R451, R452; PCI Express Base Specification). -/
inductive ConfigReg
  | vendorDevice
  | commandStatus
  | revisionClass
  /-- the low or high half of BAR0, BAR2 or BAR4: the six base address registers -/
  | bar (i : Fin 6)
  | subsystem
  | interrupt
  | powerControl
  | msixControl
  | deviceControl
  | deviceControl2
  | deviceCapabilities
  | deviceCapabilities2
  | linkCapabilities
  | linkStatus
  | linkCapabilities2
  | aerUncorrectable
  | aerUncorrectableMask
  | aerSeverity
  | aerCorrectable
  | aerCorrectableMask
  | serialLow
  | serialHigh
  /-- the header of a capability, by its ID -/
  | capability (id : Fin 256)
  /-- the header of an extended capability, by its ID -/
  | extended (id : Fin 65536)
  /-- a register the spec names no more than the capability of -/
  | other
deriving DecidableEq, Repr

/-- An error the host port detects (16 R457). -/
inductive PcieError
  /-- receiver error, bad TLP or flit, bad DLLP, replay: its bit of the AER correctable status, and whether the link goes to Recovery for it -/
  | correctable (bit : Fin 16) (recover : Bool)
  /-- a poisoned TLP received -/
  | poisoned
  /-- surprise down, flow-control protocol, malformed TLP, data link protocol: its bit of the AER uncorrectable status, and whether it takes
  the link down -/
  | fatal (bit : Fin 32) (linkDown : Bool)
deriving DecidableEq, Repr

/-- A dictionary request on one of the paths of R66. -/
inductive DictReq
  | kdp (d : Datagram)
  | mailbox
  | slotRead (fn : Fin 7) (addr size : Nat)
  | slotWrite (fn : Fin 7) (addr : Nat) (data : List Nat)
  | windowRead (fn : Fin 7) (off size : Nat)
  | windowWrite (fn : Fin 7) (off : Nat) (data : List Nat)
deriving DecidableEq, Repr

/-- How SLATE_NAME_POS, SLATE_NAME_TIME, SLATE_CANCEL and STAGE_DISCARD come (R80): a write of the object, or KDP SLATE. -/
inductive SlateReq
  | write (via : Via) (value : Nat)
  | kdp (d : Datagram)
deriving DecidableEq, Repr

/-- What REGISTER_WRITE writes: an object by index and subindex, whole or a segment (offset, MORE), or an address of a BAR. -/
inductive RegTarget
  | object (via : Via) (index sub : Nat) (seg : Option (Nat × Bool)) (data : List Nat)
  | bar (fn : Fin 7) (b : HostBar) (off : Nat) (data : List Nat)
deriving DecidableEq, Repr

/-- A receive lane (06 R197): lane `l` of channel `c`, or a duplex lane. -/
inductive LaneRef
  | camera (c : Fin 6) (l : Fin 8)
  | duplex (d : Fin 6)
deriving DecidableEq, Repr

/-- A 10 µs measurement of lane `r` (R201, R206): the frequency offset, and the intervals of the last eight that had a cycle slip. -/
structure CdrMeasure where
  r : LaneRef
  freq : Int
  slips : Nat
deriving DecidableEq, Repr

/-- Three 10 µs measurements in a row of lane `r` without cycle slips: their frequency offsets (R206). -/
structure CdrRegain where
  r : LaneRef
  f1 : Int
  f2 : Int
  f3 : Int
deriving DecidableEq, Repr

/-- The checker's side of a monitor window (R204, R212): the bits compared in sync, the errors among them, and whether the lane has block or
character lock. -/
structure WindowCheck where
  compared : Nat
  errors : Nat
  locked : Bool
deriving DecidableEq, Repr

/-- The errors since the last whole window, and which of the last 64 bits are wrong (R212). -/
structure PrbsErrors where
  errors : Nat
  wrong : List Bool
deriving DecidableEq, Repr

/-- The bits that lane `r` has received (R212). -/
structure PrbsBits where
  r : LaneRef
  bits : List Bool
deriving DecidableEq, Repr

/-- An eye-scan engine (06 R213): a channel's, or that of the duplex lanes. -/
inductive ScanRef
  | camera (c : Fin 6)
  | duplex
deriving DecidableEq, Repr

/-- What arrives on the control channel of a CoaXPress link (05 R179): a packet to pass through, or the answer to the exposure write of a
head. -/
inductive CxpControl
  | packet (bytes : List Nat)
  | exposureAck (h : Fin 4)
deriving DecidableEq, Repr

/-- The objects LANE_CONFIG_WRITE writes (05 R195). -/
inductive LaneConfig
  | role | width | speed
deriving DecidableEq, Repr

/-- The commands of the block, one constructor for each row of spec/opcode_table.json. -/
inductive Instr
  /-- POSITION_BROADCAST_UPDATE (R20) -/
  | positionBroadcastUpdate
  /-- TIME_BROADCAST_UPDATE (R20) -/
  | timeBroadcastUpdate
  /-- IN_FLIGHT_SET_APPLY (R45) -/
  | inFlightSetApply (c : Fin 6) (stage : Fin 8)
  /-- GENERATION_PUBLISH (R50) -/
  | generationPublish (c : Fin 6) (part : Part)
  /-- KDP_READ (R77) -/
  | kdpRead (d : Datagram)
  /-- KDP_WRITE (R77) -/
  | kdpWrite (d : Datagram)
  /-- KDP_STAGE (R78) -/
  | kdpStage (d : Datagram)
  /-- KDP_SNAPSHOT (R69) -/
  | kdpSnapshot (d : Datagram)
  /-- KDP_SUBSCRIBE (R81) -/
  | kdpSubscribe (d : Datagram)
  /-- KDP_BAD_OPCODE (R74) -/
  | kdpBadOpcode (d : Datagram)
  /-- KDP_SESSION_EXPIRE (R83) -/
  | kdpSessionExpire
  /-- SUBSCRIPTION_LAPSE (R81) -/
  | subscriptionLapse
  /-- NET_ARP_REQUEST (R72) -/
  | netArpRequest (p : Fin 2) (ip : Nat)
  /-- NET_ICMP_ECHO (R72) -/
  | netIcmpEcho (p : Fin 2) (src : Nat) (dst : Nat) (payload : List Nat)
  /-- DICT_CHANNEL_TIMEOUT (R23) -/
  | dictChannelTimeout (c : Fin 6) (r : DictReq)
  /-- SLATE_NAME_POS (R38) -/
  | slateNamePos (r : SlateReq)
  /-- SLATE_NAME_TIME (R38) -/
  | slateNameTime (r : SlateReq)
  /-- SLATE_CANCEL (R80) -/
  | slateCancel (r : SlateReq)
  /-- STAGE_DISCARD (R36) -/
  | stageDiscard (r : SlateReq)
  /-- SLATE_BAD_ACTION (R80) -/
  | slateBadAction (d : Datagram)
  /-- AUTO_PERIOD_POS_WRITE (R41) -/
  | autoPeriodPosWrite (via : Via) (v : Nat)
  /-- AUTO_PERIOD_TIME_WRITE (R41) -/
  | autoPeriodTimeWrite (via : Via) (v : Nat)
  /-- MAILBOX_GO (R89) -/
  | mailboxGo
  /-- MAILBOX_DONE (R89) -/
  | mailboxDone
  /-- BAR_SLOT_READ (R92) -/
  | barSlotRead (f : Fin 7) (b : HostBar) (off : Nat) (size : Nat)
  /-- BAR_SLOT_WRITE (R92) -/
  | barSlotWrite (f : Fin 7) (addr : Nat) (data : List Nat)
  /-- LARGE_OBJECT_WINDOW_READ (R94) -/
  | largeObjectWindowRead (f : Fin 7) (off : Fin 1048576) (size : Nat)
  /-- LARGE_OBJECT_WINDOW_WRITE (R94) -/
  | largeObjectWindowWrite (f : Fin 7) (off : Fin 1048576) (data : List Nat)
  /-- LOW_CTRL_CLOSE (R71) -/
  | lowCtrlClose (f : Fin 7)
  /-- REGISTER_WRITE (R60) -/
  | registerWrite (t : RegTarget)
  /-- PERSIST_SAVE (R64) -/
  | persistSave (via : Via) (v : Nat)
  /-- PERSIST_CLEAR (R96) -/
  | persistClear (via : Via) (v : Nat)
  /-- NET_IPV4_ADDR_WRITE (R96) -/
  | netIpv4AddrWrite (via : Via) (p : Fin 2) (ip : Nat)
  /-- ENCODER_EDGE (R103) -/
  | encoderEdge (i : Fin 8) (ab : EncLevels) (x : EncSamples)
  /-- ENCODER_INDEX (R106) -/
  | encoderIndex (x : EncZ)
  /-- WIRE_FAULT (R105) -/
  | wireFault (i : Fin 8) (pair : Fin 3)
  /-- WIRE_CHECK_END (R105) -/
  | wireCheckEnd (i : Fin 8)
  /-- STANDSTILL_TIMEOUT (R110) -/
  | standstillTimeout (i : Fin 8)
  /-- FAILOVER_SILENCE_EXPIRE (R115) -/
  | failoverSilenceExpire
  /-- FAILBACK (R116) -/
  | failback (via : Via) (v : Nat)
  /-- DEVIATION_RESET (R118) -/
  | deviationReset (via : Via) (v : Nat)
  /-- GRID_POINT_REACHED (R120) -/
  | gridPointReached (c : Fin 6) (h : EncTick)
  /-- ENCOUT_EMIT (R124) -/
  | encoutEmit (m : EncTick)
  /-- PTP_MESSAGE_RECEIVE (R139) -/
  | ptpMessageReceive (p : Fin 2) (m : PtpMsg)
  /-- PTP_ANNOUNCE_TIMEOUT (R139) -/
  | ptpAnnounceTimeout (p : Fin 2)
  /-- PTP_SYNC_TRANSMIT (R141) -/
  | ptpSyncTransmit (p : Fin 2)
  /-- PTP_ANNOUNCE_TRANSMIT (R139) -/
  | ptpAnnounceTransmit (p : Fin 2)
  /-- PTP_DELAY_REQ_TRANSMIT (R141) -/
  | ptpDelayReqTransmit (p : Fin 2)
  /-- PPS_IN_EDGE (R135) -/
  | ppsInEdge
  /-- REF10M_MEASURE (R135) -/
  | ref10mMeasure (err : Int)
  /-- PPS_MISSING (R136) -/
  | ppsMissing
  /-- REF_MISSING (R136) -/
  | refMissing
  /-- TB_SOURCE_TIMEOUT (R130) -/
  | tbSourceTimeout
  /-- TB_SOURCE_WRITE (R130) -/
  | tbSourceWrite (via : Via) (v : Nat)
  /-- TB_SET (R132) -/
  | tbSet (via : Via) (v : Nat)
  /-- TB_STEP_ADJ (R132) -/
  | tbStepAdj (via : Via) (v : Int)
  /-- PPS_OUT_RISE (R137) -/
  | ppsOutRise
  /-- PPS_OUT_FALL (R137) -/
  | ppsOutFall
  /-- NET_LINK_CHANGE (R138) -/
  | netLinkChange (p : Fin 2) (up : Bool)
  /-- NET_RX_OVERRUN (R138) -/
  | netRxOverrun (p : RxPort)
  /-- TA_ARM (R144) -/
  | taArm (via : Via) (e : Fin 64)
  /-- TA_DISARM (R144) -/
  | taDisarm (via : Via) (e : Fin 64)
  /-- TIMED_ACTION_EXECUTE (R145) -/
  | timedActionExecute (e : Fin 64)
  /-- BUARNLINK_BURST (R167) -/
  | buarnlinkBurst (c : Fin 6) (link : Fin 8) (head : Fin 4) (tap : Fin 8) (first : Bool) (tag : Nat) (offset : Nat) (blocks : Fin 256) (data : List Nat) (overrun : List Nat)
  /-- BUARNLINK_LINE_END (R164) -/
  | buarnlinkLineEnd (c : Fin 6) (link : Fin 8) (head : Fin 4) (tap : Fin 8) (count : Nat) (crc : Nat)
  /-- BUARNLINK_TRIGGER_ACK (R165) -/
  | buarnlinkTriggerAck (c : Fin 6) (link : Fin 8) (head : Fin 4) (overrun : Bool) (num : Nat) (delay : Nat)
  /-- BUARNLINK_TEMPERATURE (R166) -/
  | buarnlinkTemperature (c : Fin 6) (link : Fin 8) (head : Fin 4) (t : Int)
  /-- BUARNLINK_REG_DATA (R166) -/
  | buarnlinkRegData (c : Fin 6) (link : Fin 8) (tag : Fin 256) (v : Nat)
  /-- BUARNLINK_REG_ACK (R166) -/
  | buarnlinkRegAck (c : Fin 6) (link : Fin 8) (tag : Fin 256) (result : Fin 256)
  /-- BUARNLINK_EXPO_ACK (R166) -/
  | buarnlinkExpoAck (c : Fin 6) (link : Fin 8) (head : Fin 4) (trig : Nat) (result : Fin 256)
  /-- BUARNLINK_ALIGN (R161) -/
  | buarnlinkAlign (c : Fin 6) (link : Fin 8) (bs : List AlignBlock)
  /-- BUARNLINK_DECODE_ERROR (R162) -/
  | buarnlinkDecodeError (c : Fin 6) (link : Fin 8)
  /-- BLOCK_LOCK (R173) -/
  | blockLock (c : Fin 6) (l : Fin 8)
  /-- BLOCK_LOCK_LOSS (R174) -/
  | blockLockLoss (c : Fin 6) (l : Fin 8)
  /-- EXPO_ACK_TIMEOUT (R172) -/
  | expoAckTimeout (c : Fin 6) (h : Fin 4)
  /-- BL_REG_READ (R172) -/
  | blRegRead (via : Via) (c : Fin 6)
  /-- BL_REG_WRITE (R172) -/
  | blRegWrite (via : Via) (c : Fin 6)
  /-- BL_REG_TIMEOUT (R172) -/
  | blRegTimeout (c : Fin 6)
  /-- CXP_STREAM_PACKET (R177) -/
  | cxpStreamPacket (c : Fin 6) (link : Fin 8) (id : Nat) (u : StreamUnit) (crcOk : Bool) (payload : List Nat) (overrun : List Nat)
  /-- CXP_CONTROL_RECEIVE (R179) -/
  | cxpControlReceive (c : Fin 6) (link : Fin 8) (p : CxpControl)
  /-- CXP_CTRL_TX (R179) -/
  | cxpCtrlTx (via : Via) (c : Fin 6) (packet : List Nat)
  /-- CXP_CTRL_POP (R179) -/
  | cxpCtrlPop (via : Via) (c : Fin 6) (v : Nat)
  /-- CXP_EXPO_WRITE_TIMEOUT (R290) -/
  | cxpExpoWriteTimeout (c : Fin 6) (h : Fin 4)
  /-- AUX_LINE_START (R180) -/
  | auxLineStart (x : AuxLval)
  /-- AUX_LINE_END (R181) -/
  | auxLineEnd (x : AuxLval) (es : List AuxEdge)
  /-- TRG_PULSE_END (R185) -/
  | trgPulseEnd (c : Fin 6) (t : Fin 4)
  /-- TRG_GAP_END (R185) -/
  | trgGapEnd (c : Fin 6) (t : Fin 4)
  /-- LINE_TIMEOUT (R187) -/
  | lineTimeout (c : Fin 6) (h : Fin 4)
  /-- MERGE_PASS_LINE (R192) -/
  | mergePassLine (c : Fin 6)
  /-- SENSOR_TEMP_SET (R187) -/
  | sensorTempSet (via : Via) (c : Fin 6) (h : Fin 4) (t : Int)
  /-- LANE_CONFIG_WRITE (R195) -/
  | laneConfigWrite (via : Via) (c : Fin 6) (what : LaneConfig) (vals : List Nat)
  /-- CDR_LOCK (R201) -/
  | cdrLock (r : LaneRef) (freq : Int)
  /-- LOS_ASSERT (R206) -/
  | losAssert (r : LaneRef)
  /-- LOS_DEASSERT (R206) -/
  | losDeassert (r : LaneRef)
  /-- LOL_ASSERT (R206) -/
  | lolAssert (m : CdrMeasure)
  /-- LOL_DEASSERT (R206) -/
  | lolDeassert (m : CdrRegain)
  /-- LOL_TRIM_RELOAD (R203) -/
  | lolTrimReload (r : LaneRef)
  /-- IDLE_MONITOR_WINDOW (R204) -/
  | idleMonitorWindow (r : LaneRef) (changes idle total : Nat) (x : WindowCheck)
  /-- DFE_UPDATE (R202) -/
  | dfeUpdate (r : LaneRef) (steps : List Int)
  /-- CTLE_UPDATE (R202) -/
  | ctleUpdate (r : LaneRef) (step : Int)
  /-- ONE_SHOT_CONVERGE (R203) -/
  | oneShotConverge (r : LaneRef)
  /-- WANDER (R205) -/
  | wander (r : LaneRef)
  /-- TRIM_UPDATE (R207) -/
  | trimUpdate (r : LaneRef)
  /-- TRIM_RAMP_STEP (R207) -/
  | trimRampStep (r : LaneRef)
  /-- ADAPT_MODE_WRITE (R203) -/
  | adaptModeWrite (via : Via) (r : LaneRef) (v : Nat)
  /-- TX_FIR_WRITE (R208) -/
  | txFirWrite (via : Via) (d : Fin 6) (pre : Fin 256) (main : Fin 256) (post : Fin 256)
  /-- LANE_TEST_WRITE (R209) -/
  | laneTestWrite (via : Via) (r : LaneRef) (v : Nat)
  /-- PRBS_CLEAR (R212) -/
  | prbsClear (via : Via) (r : LaneRef) (v : Nat)
  /-- PRBS_SYNC_LOSS (R212) -/
  | prbsSyncLoss (r : LaneRef) (bits : Nat) (x : PrbsErrors)
  /-- SCAN_START (R214) -/
  | scanStart (via : Via) (r : ScanRef)
  /-- SCAN_ABORT (R214) -/
  | scanAbort (via : Via) (r : ScanRef)
  /-- SCAN_POINT_DONE (R213) -/
  | scanPointDone (r : ScanRef) (errors : Nat)
  /-- FRONT_END_LINE (R222) -/
  | frontEndLine (c : Fin 6) (h : Fin 4)
  /-- CORR_BANK_WRITE (R237) -/
  | corrBankWrite (via : Via) (c : Fin 6) (bank : Fin 2) (seg : Option (Nat × Bool)) (data : List Nat)
  /-- OUTPUT_LINE (R250) -/
  | outputLine (c : Fin 6) (late : List Nat)
  /-- SEGMENTATION_LINE (R296) -/
  | segmentationLine (c : Fin 6)
  /-- RECORD_RING_WRITE (R318) -/
  | recordRingWrite (c : Fin 6)
  /-- REC_IRQ_TIME_EXPIRE (R319) -/
  | recIrqTimeExpire (c : Fin 6)
  /-- OPEN_SNAP (R303) -/
  | openSnap (via : Via) (c : Fin 6)
  /-- CUE_PIECE_COMPARE (R337) -/
  | cuePieceCompare (c : Fin 6)
  /-- CUE_HORIZON (R334) -/
  | cueHorizon (c : Fin 6) (entry : Fin 2048)
  /-- CUE_FIRE (R334) -/
  | cueFire (c : Fin 6) (entry : Fin 2048)
  /-- CUE_RESOLVE_LIMIT (R334) -/
  | cueResolveLimit (c : Fin 6) (entry : Fin 2048)
  /-- STK_PULSE_END (R335) -/
  | stkPulseEnd (c : Fin 6) (o : Fin 4)
  /-- STK_ENABLE_WRITE (R329) -/
  | stkEnableWrite (via : Via) (c : Fin 6) (v : Nat)
  /-- CUE_SNAP (R350) -/
  | cueSnap (via : Via) (c : Fin 6)
  /-- CUE_SNAP_CAPTURE (R350) -/
  | cueSnapCapture (c : Fin 6)
  /-- FREEZE_NOW (R364) -/
  | freezeNow (via : Via) (c : Fin 6)
  /-- POST_END (R365) -/
  | postEnd (c : Fin 6)
  /-- FREEZE_RELEASE (R364) -/
  | freezeRelease (via : Via) (c : Fin 6)
  /-- RETAKE_START (R366) -/
  | retakeStart (via : Via) (c : Fin 6)
  /-- RETAKE_ABORT (R366) -/
  | retakeAbort (via : Via) (c : Fin 6)
  /-- RETAKE_EXIT (R368) -/
  | retakeExit (via : Via) (c : Fin 6)
  /-- RETAKE_LOADED (R366) -/
  | retakeLoaded (c : Fin 6)
  /-- RETAKE_ENTRY (R368) -/
  | retakeEntry (c : Fin 6)
  /-- K_TEST (R372) -/
  | kTest (via : Via) (c : Fin 6) (k : Fin 8)
  /-- MEM_REQUEST (R381) -/
  | memRequest (c : Fin 6) (cls : Fin 3) (tag : Fin 65536) (write : Bool) (addr : Nat) (len : Nat) (bytes : List Nat)
  /-- MEM_ACCESS_COMPLETE (R380) -/
  | memAccessComplete (c : Fin 6) (sub : Fin 4) (j : Fin 32)
  /-- REFRESH_SLOT (R384) -/
  | refreshSlot (c : Fin 6) (i : Fin 8)
  /-- FORCED_BURST_STEP (R386) -/
  | forcedBurstStep (c : Fin 6) (i : Fin 8)
  /-- MR4_POLL (R385) -/
  | mr4Poll (c : Fin 6) (vals : List (Fin 256 × Fin 4))
  /-- WCK2DQ_UPDATE (R393) -/
  | wck2dqUpdate (c : Fin 6)
  /-- SR_ENTRY (R389) -/
  | srEntry (c : Fin 6)
  /-- SR_COMMIT (R389) -/
  | srCommit (c : Fin 6)
  /-- SR_EXIT (R390) -/
  | srExit (c : Fin 6) (vals : List (Fin 256 × Fin 4))
  /-- SR_TEST_ENTER (R388) -/
  | srTestEnter (via : Via) (c : Fin 6)
  /-- SR_TEST_LEAVE (R388) -/
  | srTestLeave (via : Via) (c : Fin 6)
  /-- FREQ_SWITCH (R392) -/
  | freqSwitch (via : Via) (c : Fin 6)
  /-- FREQ_CHANGE_DONE (R392) -/
  | freqChangeDone (c : Fin 6) (vals : List (Fin 256 × Fin 4))
  /-- MEM_TRAIN (R393) -/
  | memTrain (via : Via) (c : Fin 6)
  /-- TRAINING_DONE (R393) -/
  | trainingDone (c : Fin 6) (fail : Option (Fin 6 × Fin 16))
  /-- MEM_PLL_LOSS (R394) -/
  | memPllLoss (c : Fin 6)
  /-- NBR_SEED_WRITE (R387) -/
  | nbrSeedWrite (via : Via) (c : Fin 6) (v : Nat)
  /-- TIMING_SET_WRITE (R391) -/
  | timingSetWrite (via : Via) (c : Fin 6) (set : Fin 2) (sub : Fin 256) (seg : Option (Nat × Bool)) (data : List Nat)
  /-- CMP_SUBMIT (R402) -/
  | cmpSubmit (via : Via) (c : Fin 6) (data : List Nat)
  /-- CMP_JOB_START (R404) -/
  | cmpJobStart (c : Fin 6)
  /-- CMP_JOB_COMPLETE (R410) -/
  | cmpJobComplete (c : Fin 6)
  /-- CMP_ABORT_RUNNING (R419) -/
  | cmpAbortRunning (via : Via) (c : Fin 6)
  /-- CMP_ABORT_ALL (R419) -/
  | cmpAbortAll (via : Via) (c : Fin 6)
  /-- RECORDER_LINE_COMPRESS (R417) -/
  | recorderLineCompress (c : Fin 6)
  /-- THREAD_START (R440) -/
  | threadStart (via : Via) (c : Fin 6) (t : Fin 8)
  /-- THREAD_PAUSE (R439) -/
  | threadPause (via : Via) (c : Fin 6) (t : Fin 8)
  /-- THREAD_RESUME (R439) -/
  | threadResume (via : Via) (c : Fin 6) (t : Fin 8)
  /-- DMA_ENABLE_WRITE (R441) -/
  | dmaEnableWrite (via : Via) (c : Fin 6) (v : Nat)
  /-- DOORBELL_WRITE (R432) -/
  | doorbellWrite (via : Via) (c : Fin 6) (t : Fin 8) (v : Nat)
  /-- MOVE (R427) -/
  | move (c : Fin 6) (t : Fin 8)
  /-- MOVE_RING (R435) -/
  | moveRing (c : Fin 6) (t : Fin 8)
  /-- MOVSG (R428) -/
  | movsg (c : Fin 6) (t : Fin 8)
  /-- LOOP (R430) -/
  | loop (c : Fin 6) (t : Fin 8)
  /-- WAIT (R431) -/
  | wait (c : Fin 6) (t : Fin 8)
  /-- WAIT_SATISFIED (R431) -/
  | waitSatisfied (c : Fin 6) (t : Fin 8)
  /-- WAIT_TIMEOUT (R431) -/
  | waitTimeout (c : Fin 6) (t : Fin 8)
  /-- SIGNAL (R433) -/
  | signal (c : Fin 6) (t : Fin 8)
  /-- END (R434) -/
  | threadEnd (c : Fin 6) (t : Fin 8)
  /-- NOP (R434) -/
  | nop (c : Fin 6) (t : Fin 8)
  /-- DMA_BAD_OPCODE (R442) -/
  | dmaBadOpcode (c : Fin 6) (t : Fin 8)
  /-- BUS_READ_COMPLETION (R455) -/
  | busReadCompletion (c : Fin 6) (tag : Nat) (status : Fin 4) (bytes : List Nat)
  /-- PCIE_COMPLETION_TIMEOUT (R455) -/
  | pcieCompletionTimeout (c : Fin 6) (t : Fin 8) (tag : Nat)
  /-- UNEXPECTED_COMPLETION (R455) -/
  | unexpectedCompletion (c : Fin 6) (tag : Nat)
  /-- PERST_ASSERT (R458) -/
  | perstAssert
  /-- PERST_DEASSERT (R449) -/
  | perstDeassert
  /-- LINK_L0_ENTRY (R450) -/
  | linkL0Entry (rate : Fin 6) (width : Fin 5) (flit : Bool) (reversed : Bool)
  /-- PCIE_LINK_DOWN (R450) -/
  | pcieLinkDown
  /-- HOT_RESET (R458) -/
  | hotReset (disable : Bool)
  /-- FLR (R458) -/
  | flr (f : Fin 7)
  /-- FLR_COMPLETE (R458) -/
  | flrComplete (f : Fin 7)
  /-- PCIE_CONFIG_REQUEST (R449) -/
  | pcieConfigRequest (f : Fin 7) (r : ConfigReg) (w : Option Nat)
  /-- PCIE_UNSUPPORTED_REQUEST (R456) -/
  | pcieUnsupportedRequest (f : Fin 7) (read : Bool)
  /-- PCIE_ERROR_DETECTED (R457) -/
  | pcieErrorDetected (f : Fin 7) (e : PcieError)
  /-- BAR4_WINDOW_READ (R453) -/
  | bar4WindowRead (c : Fin 6) (tag : Fin 65536) (off : Nat) (len : Nat)
  /-- BAR4_WINDOW_WRITE (R453) -/
  | bar4WindowWrite (c : Fin 6) (off : Nat) (data : List Nat)
  /-- WRITER_RELEASE (R459) -/
  | writerRelease (via : Via) (seg : Option (Nat × Bool)) (data : List Nat)
  /-- BUS_MASTER_DISABLE (R459) -/
  | busMasterDisable (f : Fin 7)
  /-- MSIX_MESSAGE_SEND (R466) -/
  | msixMessageSend (f : Fin 7) (v : Fin 64)
  /-- CLAIM (R469) -/
  | claim (f : Fin 7) (v : Fin 64)
  /-- COMPLETE (R470) -/
  | complete (f : Fin 7) (v : Nat)
  /-- SRC_CFG_WRITE (R479) -/
  | srcCfgWrite (f : Fin 7) (src : Fin 256) (v : Nat)
  /-- GCTRL_WRITE (R467) -/
  | gctrlWrite (f : Fin 7) (v : Nat)
  /-- SWI_SET (R484) -/
  | swiSet (f : Fin 7) (v : Nat)
  /-- LOG_RECORD_ACCEPT (R486) -/
  | logRecordAccept
  /-- LOG_RING_DRAIN (R490) -/
  | logRingDrain (f : Fin 7)
  /-- UDP_DATAGRAM_SEND (R495) -/
  | udpDatagramSend
  /-- LOG_MARK (R485) -/
  | logMark (via : Via) (v : Nat)
  /-- BUF_RD_WRITE (R496) -/
  | bufRdWrite (via : Via) (v : Nat)
  /-- STORE_WRITE_COMPLETE (R505) -/
  | storeWriteComplete (result : Fin 3)
  /-- STORE_STEP_TIMEOUT (R506) -/
  | storeStepTimeout
  /-- TRIM_CAPTURE (R510) -/
  | trimCapture (via : Via)
  /-- TRIM_SAVE (R510) -/
  | trimSave (via : Via)
  /-- CAL_START (R512) -/
  | calStart (via : Via)
  /-- CAL_ABORT (R513) -/
  | calAbort (via : Via)
  /-- CAL_TIMEOUT (R513) -/
  | calTimeout
  /-- CAL_COMPUTE_DONE (R516) -/
  | calComputeDone
  /-- PIX_SAVE (R518) -/
  | pixSave (via : Via) (v : Nat)
  /-- PIX_LOAD (R518) -/
  | pixLoad (via : Via) (v : Nat)
  /-- POWER_DECISION (R526) -/
  | powerDecision (c : Fin 6)
  /-- STATE_ENTRY_DONE (R521) -/
  | stateEntryDone (c : Fin 6)
  /-- WAKE_COMPLETE (R522) -/
  | wakeComplete (c : Fin 6)
  /-- PWR_WAKE (R527) -/
  | pwrWake (via : Via) (c : Fin 6)
  /-- CH_RESET_ASSERT (R532) -/
  | chResetAssert (via : Via) (c : Fin 6)
  /-- CH_RESET_RELEASE (R532) -/
  | chResetRelease (via : Via) (c : Fin 6)
  /-- DEVICE_RESET (R531) -/
  | deviceReset (via : Via)
  /-- PORST_ASSERT (R531) -/
  | porstAssert
  /-- PORST_RELEASE (R533) -/
  | porstRelease (fuse : Fin 3) (dev : Option StoreDev)
  /-- THERMAL_TRIP (R531) -/
  | thermalTrip
  /-- THERMAL_COMPARE (R538) -/
  | thermalCompare
  /-- SUPPLY_SAMPLE (R589) -/
  | supplySample (mv : List Nat) (current : Nat)
  /-- TEMP_SAMPLE (R590) -/
  | tempSample (ts : List Int)
  /-- MON_CLEAR (R588) -/
  | monClear (via : Via)
  /-- BW_POSITION_FRAME (R554) -/
  | bwPositionFrame (p : Fin 2) (f : RingFrame)
  /-- BW_SLATE_FRAME (R555) -/
  | bwSlateFrame (p : Fin 2) (f : RingFrame)
  /-- BW_COMMIT_APPLY (R555) -/
  | bwCommitApply
  /-- BW_RELAY_FRAME (R347) -/
  | bwRelayFrame (p : Fin 2) (f : RingFrame)
  /-- BW_ECHO_FRAME (R560) -/
  | bwEchoFrame (p : Fin 2) (f : RingFrame)
  /-- BW_ECHO_EXECUTE (R560) -/
  | bwEchoExecute
  /-- BW_HELLO_FRAME (R550) -/
  | bwHelloFrame (p : Fin 2) (f : RingFrame)
  /-- BW_DELAY_REQ_FRAME (R548) -/
  | bwDelayReqFrame (p : Fin 2) (f : RingFrame) (turn : Nat)
  /-- BW_DELAY_RESP_FRAME (R548) -/
  | bwDelayRespFrame (p : Fin 2) (f : RingFrame)
  /-- BW_FRAME_CRC_DROP (R543) -/
  | bwFrameCrcDrop (p : Fin 2)
  /-- BW_HELLO_SEND (R550) -/
  | bwHelloSend
  /-- BW_DELAY_REQ_SEND (R548) -/
  | bwDelayReqSend
  /-- BW_POSITION_SEND (R554) -/
  | bwPositionSend
  /-- BW_ELECT_WAIT_EXPIRE (R552) -/
  | bwElectWaitExpire
  /-- BW_ROOT_TIMEOUT (R551) -/
  | bwRootTimeout
  /-- BW_ROLE_WRITE (R550) -/
  | bwRoleWrite (via : Via) (v : Nat)
  /-- BW_PORT_LINK_CHANGE (R551) -/
  | bwPortLinkChange (p : Fin 2) (st : Fin 3)
  /-- THERMAL_TRIP_RELEASE (R531) -/
  | thermalTripRelease (fuse : Fin 3) (dev : Option StoreDev)
  /-- PRBS_SYNC_GAIN (R212) -/
  | prbsSyncGain (x : PrbsBits)
  /-- ILL_PWM_PERIOD (R278) -/
  | illPwmPeriod (c : Fin 6) (i : Fin 2)
  /-- LMON_SAMPLE (R280) -/
  | lmonSample (c : Fin 6) (i : Fin 2) (code : Nat)
  /-- CXP_LINK_UP (R195) -/
  | cxpLinkUp (c : Fin 6) (link : Fin 8)
  /-- ALIGN_MISSING (R174) -/
  | alignMissing (c : Fin 6) (link : Fin 8)
  /-- REFPB_DONE (R384) -/
  | refpbDone (c : Fin 6) (i : Fin 8)
  /-- ASPM_L1_ENTRY (R447) -/
  | aspmL1Entry
  /-- ARP_REPLY (R495) -/
  | arpReply (p : Fin 2) (ip : Nat) (mac : Nat)
deriving DecidableEq, Repr

end Sys2Proof
end

