-- ==== Sys2Proof/Machine/Bits.lean ====
section
/-!
DEFINITION. Bit fields, two's complement, byte order (R7) and CRC-32C, over natural numbers.
-/

namespace Sys2Proof.Machine

/-- Bits `[hi:lo]` of `n` (R7). -/
def bits (n hi lo : Nat) : Nat := n / 2 ^ lo % 2 ^ (hi + 1 - lo)

/-- Bit `i` of `n`. -/
def bit (n i : Nat) : Bool := n / 2 ^ i % 2 == 1

/-- `n` with bit `i` set. -/
def setBit (n i : Nat) : Nat := if bit n i then n else n + 2 ^ i

/-- `n` with bit `i` cleared. -/
def clrBit (n i : Nat) : Nat := if bit n i then n - 2 ^ i else n

/-- `n` with bit `i` made `b`. -/
def putBit (n i : Nat) (b : Bool) : Nat := if b then setBit n i else clrBit n i

/-- The bits of `n` below `w` that are clear in `m`. -/
def andNot (n m : Nat) : Nat := n - Nat.land n m

/-- A truth value as a bit. -/
def b2n (b : Bool) : Nat := if b then 1 else 0

/-- `n` modulo `2^w`, the value a `w`-bit counter holds. -/
def wrap (w n : Nat) : Nat := n % 2 ^ w

/-- The `w`-bit pattern of an integer (two's complement). -/
def toBits (w : Nat) (i : Int) : Nat := (i % (2 ^ w : Nat)).toNat

/-- The integer a `w`-bit pattern stands for in two's complement. -/
def toSigned (w n : Nat) : Int :=
  if n % 2 ^ w < 2 ^ (w - 1) then (n % 2 ^ w : Nat) else (n % 2 ^ w : Nat) - (2 ^ w : Nat)

/-- Clamp an integer to `[lo, hi]`. -/
def clampI (lo hi x : Int) : Int := max lo (min hi x)

/-- Clamp to the signed `w`-bit range. -/
def satSigned (w : Nat) (x : Int) : Int := clampI (-(2 ^ (w - 1) : Nat)) ((2 ^ (w - 1) : Nat) - 1) x

/-- Saturate at the largest `w`-bit count. -/
def satN (w n : Nat) : Nat := min n (2 ^ w - 1)

/-- Floor of `a / b`; 0 where `b` is 0. -/
def fdivI (a b : Int) : Int := a.fdiv b

/-- Ceiling of `a / b` on naturals. -/
def cdiv (a b : Nat) : Nat := (a + b - 1) / b

/-- The nearest integer to `a / b`, halves away from zero, for `b > 0`. -/
def rdivI (a : Int) (b : Nat) : Int :=
  if 0 ≤ a then ((2 * a + b) / (2 * b)) else -((-2 * a + b) / (2 * b))

/-- The signed 32-bit order of generations (R12): positive where `b` is later than `a`. -/
def genOrder (a b : Nat) : Int := toSigned 32 (b + 2 ^ 32 - a % 2 ^ 32)

/-- `g` is `h` or earlier (R12). -/
def genLe (g h : Nat) : Bool := decide (0 ≤ genOrder g h)

/-- The signed 48-bit order of scheduled times (R12), in nanoseconds. -/
def timeOrder48 (a b : Nat) : Int := toSigned 48 (b + 2 ^ 48 - a % 2 ^ 48)

/-- The scheduled time `t` is reached at `now` (R12): by the low 48 bits of the nanosecond counts of two times in 2^-16 ns. -/
def reached48 (t now : Nat) : Bool := decide (0 ≤ timeOrder48 (t / 65536) (now / 65536))

/-- The time `t` is reached at `now`, over all 64 bits of the nanosecond counts (R147). -/
def reached64 (t now : Nat) : Bool := decide (t / 65536 ≤ now / 65536)

/-- The `n` little-endian bytes of `v` (R7). -/
def leBytes : Nat → Nat → List Nat
  | 0, _ => []
  | n + 1, v => v % 256 :: leBytes n (v / 256)

/-- The number little-endian bytes spell. -/
def ofLe : List Nat → Nat
  | [] => 0
  | b :: bs => b % 256 + 256 * ofLe bs

/-- The `n` big-endian bytes of `v` (network headers). -/
def beBytes (n v : Nat) : List Nat := (leBytes n v).reverse

/-- `n` zero bytes. -/
def zeros (n : Nat) : List Nat := List.replicate n 0

/-- `l` cut or zero-padded to `n` elements. -/
def padTo (n : Nat) (l : List Nat) : List Nat := l.take n ++ zeros (n - l.length)

/-- `l` zero-padded to a multiple of `m` bytes. -/
def padMult (m : Nat) (l : List Nat) : List Nat := l ++ zeros ((m - l.length % m) % m)

/-- The bytes of `l` from `off`, `n` of them. -/
def slice (l : List Nat) (off n : Nat) : List Nat := (l.drop off).take n

/-- `l` with the bytes `b` written at `off` (bytes between are zero). -/
def splice (l : List Nat) (off : Nat) (b : List Nat) : List Nat :=
  padTo off l ++ b ++ l.drop (off + b.length)

/-- The bits of `n`, reversed within `w` bits. -/
def reflect : Nat → Nat → Nat
  | 0, _ => 0
  | w + 1, n => (n % 2) * 2 ^ w + reflect w (n / 2)

/-- One bit of a reflected CRC with reversed polynomial `rp`. -/
def crcBit (rp c : Nat) : Nat := if c % 2 = 1 then Nat.xor (c / 2) rp else c / 2

/-- One byte of a reflected CRC. -/
def crcByte (rp c b : Nat) : Nat :=
  let c := Nat.xor c (b % 256)
  crcBit rp (crcBit rp (crcBit rp (crcBit rp (crcBit rp (crcBit rp (crcBit rp (crcBit rp c)))))))

/-- CRC-32C of bytes (Castagnoli, reflected, all ones in and out). -/
def crc32c (bs : List Nat) : Nat :=
  Nat.xor (bs.foldl (crcByte 0x82F63B78) 0xFFFFFFFF) 0xFFFFFFFF

/-- Read a little-endian field of `n` bytes at byte `off`. -/
def field (l : List Nat) (off n : Nat) : Nat := ofLe (slice l off n)

/-- The integer square root of `n`. -/
def isqrtAux (n : Nat) : Nat → Nat → Nat
  | 0, r => r
  | k + 1, r => if (r + 2 ^ k) * (r + 2 ^ k) ≤ n then isqrtAux n k (r + 2 ^ k) else isqrtAux n k r

/-- Floor of the square root of `n < 2^128`. -/
def isqrt (n : Nat) : Nat := isqrtAux n 64 0

/-- Floor of the base-2 logarithm (0 for 0). -/
def ilog2 (n : Nat) : Nat := Nat.log2 n

/-- A value by key from a list of pairs, `d` where no pair has the key. -/
def tabGet {α : Type} (d : α) : List (Nat × α) → Nat → α
  | [], _ => d
  | (j, v) :: r, k => if j = k then v else tabGet d r k

/-- The list of pairs without key `k`. -/
def tabDel {α : Type} : List (Nat × α) → Nat → List (Nat × α)
  | [], _ => []
  | (j, v) :: r, k => if j = k then tabDel r k else (j, v) :: tabDel r k

/-- The sorted list of pairs with key `k` given the value `v` (keys rising). -/
def tabIns {α : Type} : List (Nat × α) → Nat → α → List (Nat × α)
  | [], k, v => [(k, v)]
  | (j, w) :: r, k, v =>
    if k < j then (k, v) :: (j, w) :: r else if k = j then (k, v) :: r else (j, w) :: tabIns r k v

/-- The pairs with key `k` given the value `v`; a value equal to `d` (what an unlisted key reads as) is not listed. -/
def tabPut {α : Type} [DecidableEq α] (d : α) (t : List (Nat × α)) (k : Nat) (v : α) : List (Nat × α) :=
  if v = d then tabDel t k else tabIns t k v

/-- `l` with element `i` replaced by `v` (unchanged where there is none). -/
def listPut {α : Type} : List α → Nat → α → List α
  | [], _, _ => []
  | _ :: r, 0, v => v :: r
  | x :: r, i + 1, v => x :: listPut r i v

end Sys2Proof.Machine
end

