-- ==== Sys2Proof/Config.lean ====
section
/-!
DEFINITION. What one device fixes and what the spec leaves open: constants without a body, so that no proof can lean on a value.
-/

namespace Sys2Proof.Config

/-- The fuses of this die (19 R500). -/
opaque fuseUniqueId : Nat → BitVec 64
opaque fuseDateCode : BitVec 16
opaque fuseMacBase : BitVec 48
opaque fuseBandgapTrim : BitVec 8
opaque fuseTsenseOffset : Nat → BitVec 8
opaque fuseOscTrim : BitVec 8
opaque fuseLaneTrim : Nat → BitVec 8
/-- UNIQUE_ID, by element; element 0 is not 0 (02 R95, 19 R500). -/
def uniqueId (i : Nat) : Nat := if i = 0 then max 1 (fuseUniqueId 0).toNat else (fuseUniqueId i).toNat
/-- DATE_CODE, not 0 (02 R95, 19 R500). -/
def dateCode : Nat := max 1 fuseDateCode.toNat
/-- NET_MAC: MAC_BASE, and for NET1 the address after it (19 R500). -/
def netMac (p : Nat) : Nat := (fuseMacBase.toNat + p) % 2 ^ 48
/-- PTP_CLOCK_ID: the EUI-64 of NET0's address, FFFEh between its high and its low three octets (04 R142). -/
def ptpClockId : Nat := netMac 0 / 2 ^ 24 * 2 ^ 40 + 0xFFFE * 2 ^ 24 + netMac 0 % 2 ^ 24
/-- The trims as their objects show them. -/
def fuseBandgap : Nat := fuseBandgapTrim.toNat
def fuseTsense (i : Nat) : Nat := (fuseTsenseOffset i).toNat
def fuseOsc : Nat := fuseOscTrim.toNat
def fuseLaneImp (i : Nat) : Nat := (fuseLaneTrim i).toNat
/-- The PCI vendor ID, named but not given (16 R451). -/
opaque vendor : BitVec 16
def vendorId : Nat := vendor.toNat
/-- STARTUP_TIME: µs from t0 to step 5, not given (20 R533). -/
opaque startup : BitVec 32
def startupTime : Nat := startup.toNat
/-- Values the spec leaves open, by number: the next one is taken at each use (log entry 3). -/
opaque freeValue : Nat → Nat
/-- How far the device's base-2 logarithm of a number lies from the exact one rounded down, in 2^-16, less 3 (09 R283: an error below
2^-14, and the same result for the same input). -/
opaque log2Delta : Nat → Fin 8
/-- What a receive stamp is corrected by for its place in the RS-FEC codeword, in 2^-16 ns (04 R140). -/
opaque fecShift : Nat → Int
/-- The logarithm of 0, which the control law may form and the spec does not state. -/
opaque log2Zero : Int
/-- Whether a quotient of the control law that is not whole is rounded up; the spec does not say. -/
opaque roundUp : Int → Nat → Bool
/-- How long a control cycle runs, in ticks: at most 2 µs (09 R281). -/
opaque cycleTicks : Nat → Fin (2000 * 65536 + 1)
/-- The match search of the compressor (14 R400): for the bytes before, newest first, and those that follow, a length and a distance. The
spec gives no search; the model takes the match where it is one, else a literal (log entry 40). -/
opaque matchSearch : List Nat → List Nat → Nat × Nat
/-- The code tables of a dynamic block, as the bits that follow its 3 header bits, for its literals and matches (14 R405). The model
takes them where they decode and cover the block. -/
opaque dynHeader : List (Nat × Nat) → List Bool
/-- LEVEL and BLOCK_LEN of the recorder's own streams (12 R359), which the spec does not give. -/
opaque recorderLevel : Fin 3
opaque recorderBlock : Nat

end Sys2Proof.Config
end

