-- ==== Sys2Proof/Machine/Objects.lean ====
section
/-!
DEFINITION. The object dictionary as the tables of spec/ give it: the key of every object, and for every index the row of
each subindex (type, shape, access, marks, range, default). Rules R56-R60 and the object table of every chapter.
-/

namespace Sys2Proof.Machine

/-- The types of R58 (an I8 element appears only inside an ARRAY). -/
inductive Ty
  | bool | u8 | u16 | u32 | u64 | i8 | i16 | i32 | i64 | q16 | pos | xw | time | str | blob
deriving DecidableEq, Repr

/-- Scalar, ARRAY of `n` elements, or a STR or BLOB of at most `max` bytes; `fixed` and `short` as R59 uses them. -/
inductive Shape
  | scalar
  | array (n : Nat)
  | bytes (max : Nat) (fixed short : Bool)
deriving DecidableEq, Repr

/-- The access codes of R60. -/
inductive Acc
  | ro | rw | rs | wo | w1c | const
deriving DecidableEq, Repr

/-- The range an object's meaning states (R59), applied to every element. -/
inductive Chk
  /-- every value of the type -/
  | all
  /-- from `lo` to `hi`, as the type reads the bits -/
  | within (lo hi : Int)
  /-- one of the listed values -/
  | oneOf (vs : List Nat)
  /-- 0, or from `lo` to `hi` -/
  | zeroOr (lo hi : Nat)
  /-- from `lo` to `hi`, or the value `x` -/
  | orVal (lo hi x : Nat)
  /-- a multiple of `n` -/
  | multiple (n : Nat)
  /-- a multiple of `n`, at most `hi` -/
  | multMax (n hi : Nat)
  /-- a subnet mask of contiguous ones (R96) -/
  | contigMask
  /-- element 0 not zero (NR_XW_WEIGHT, 07 R242) -/
  | firstNonZero
  /-- FLR_SCOPE: element 0 is 0, the others 0 or 1 (R461) -/
  | flrScope
  /-- none of the first `n` elements is 0 (TIMING, 13 R396) -/
  | firsts (n : Nat)
deriving DecidableEq, Repr

/-- One row of an object table. `marks`: bit 0 P, bit 1 published per generation, bit 2 input-side (R76).
`keep`: the bits of an element that are not Res (R8), 0 where all are. -/
structure ObjInfo where
  sub : Nat
  ty : Ty
  shape : Shape
  acc : Acc
  marks : Nat
  keep : Nat
  chk : Chk
  dflt : List Nat
deriving DecidableEq, Repr

/-- The default of a correction bank: 65,536 reset entries (R232, R242). -/
def bankDefault : List Nat := (List.range 65536).flatMap fun _ => [0, 0, 0, 0x10, 0, 0, 0, 0]

/-- The default of LUT: E[i] = 16·i + (i >> 8), 4,096 U16 entries, as bytes (R242). -/
def lutDefault : List Nat :=
  (List.range 4096).flatMap fun i => let e := 16 * i + i / 256; [e % 256, e / 256 % 256]

/-- The default of DW_COEF: element 8ph + 3 = 256·(64 − ph), 8ph + 4 = 256·ph, others 0 (R271). -/
def dwCoefDefault : List Nat :=
  (List.range 512).map fun e => if e % 8 = 3 then 256 * (64 - e / 8) else if e % 8 = 4 then 256 * (e / 8) else 0

/-- The default of XW_COEF: element 6ph + 2 = 256·(64 − ph), 6ph + 3 = 256·ph, others 0 (R271). -/
def xwCoefDefault : List Nat :=
  (List.range 384).map fun e => if e % 6 = 2 then 256 * (64 - e / 6) else if e % 6 = 3 then 256 * (e / 6) else 0

/-- The defaults of TIMING (R396), in ps. -/
def timingDefault : List Nat :=
  [18000, 18000, 42000, 5000, 20000, 34000, 7500, 12000, 140000, 280000, 90000, 488000, 287500, 15000, 10000, 0]

/-- The minima and maxima of the rails in mV (R570), element 12 at MON_AUX_LEVEL 1. -/
def supplyLow : List Nat := [728, 825, 825, 825, 1164, 825, 1164, 728, 485, 1710, 1710, 3135, 3135]
def supplyHigh : List Nat := [773, 876, 876, 876, 1236, 876, 1236, 773, 515, 1890, 1890, 3465, 3465]

namespace K

abbrev HEAD_RATE_MAX : Nat := 0x800001
abbrev AUX_RATE_MAX : Nat := 0x800002
abbrev BUDGET_INFORCE : Nat := 0x800003
abbrev BUDGET_STAGED : Nat := 0x800004
abbrev BUDGET_LIMIT : Nat := 0x800005
abbrev BUDGET_USED : Nat := 0x800006
abbrev BUDGET_REJECTS : Nat := 0x800007
abbrev CD_MIN_SHARE : Nat := 0x800008
abbrev SLATE_FOLDS : Nat := 0x800009
abbrev VENDOR_NAME : Nat := 0x100001
abbrev PRODUCT_NAME : Nat := 0x100002
abbrev ORDER_CODE : Nat := 0x100003
abbrev PRODUCT_CODE : Nat := 0x100004
abbrev STEPPING : Nat := 0x100005
abbrev DICT_LAYOUT : Nat := 0x100006
abbrev UNIQUE_ID : Nat := 0x100007
abbrev DATE_CODE : Nat := 0x100008
abbrev CHANNEL_COUNT : Nat := 0x100009
abbrev DEVICE_LABEL : Nat := 0x10000A
abbrev KDP_ENABLE : Nat := 0x110001
abbrev KDP_UDP_PORT : Nat := 0x110002
abbrev NET_IPV4_ADDR : Nat := 0x110003
abbrev NET_IPV4_MASK : Nat := 0x110004
abbrev NET_IPV4_GW : Nat := 0x110005
abbrev NET_MAC : Nat := 0x110006
abbrev KDP_SESSION_IDLE : Nat := 0x110007
abbrev KDP_RX_COUNT : Nat := 0x110008
abbrev KDP_CRC_DROPS : Nat := 0x110009
abbrev KDP_REPLAYS : Nat := 0x11000A
abbrev KDP_SESSIONS : Nat := 0x11000B
abbrev KDP_NOTIFY_DROPS : Nat := 0x11000C
abbrev MB_COUNT : Nat := 0x11000D
abbrev PERSIST_SAVE : Nat := 0x110010
abbrev PERSIST_CLEAR : Nat := 0x110011
abbrev PERSIST_STATUS : Nat := 0x110012
abbrev PERSIST_SEQ : Nat := 0x110013
abbrev PERSIST_COUNT : Nat := 0x110014
abbrev PERSIST_LOAD_RESULT : Nat := 0x110015
abbrev SLATE_GEN : Nat := 0x120001
abbrev SLATE_POS_LAST : Nat := 0x120002
abbrev SLATE_TIME_LAST : Nat := 0x120003
abbrev SLATE_LATENESS_LAST : Nat := 0x120004
abbrev SLATE_NAME_POS : Nat := 0x120005
abbrev SLATE_NAME_TIME : Nat := 0x120006
abbrev SLATE_PENDING : Nat := 0x120007
abbrev SLATE_PENDING_POS : Nat := 0x120008
abbrev SLATE_PENDING_TIME : Nat := 0x120009
abbrev SLATE_CANCEL : Nat := 0x12000A
abbrev STAGE_DISCARD : Nat := 0x12000B
abbrev AUTO_PERIOD_POS : Nat := 0x12000C
abbrev AUTO_PERIOD_TIME : Nat := 0x12000D
abbrev STAGED_COMMON : Nat := 0x12000E
abbrev STAGED_CHANNEL : Nat := 0x12000F
abbrev SLATE_LATE_COUNT : Nat := 0x120010
abbrev SLATE_HELD_COUNT : Nat := 0x120011
abbrev SLATE_OPEN_SEGMENTS : Nat := 0x120012
abbrev ENC_MODE : Nat := 0x200001
abbrev ENC_FILTER : Nat := 0x200002
abbrev ENC_POLARITY : Nat := 0x200003
abbrev ENC_SCALE : Nat := 0x200004
abbrev INDEX_NOMINAL : Nat := 0x200005
abbrev INDEX_TOL : Nat := 0x200006
abbrev INDEX_POLICY : Nat := 0x200007
abbrev WIRE_CHECK : Nat := 0x200008
abbrev ENC_COUNT : Nat := 0x200009
abbrev ENC_POS : Nat := 0x20000A
abbrev ENC_SPEED : Nat := 0x20000B
abbrev ENC_STATE : Nat := 0x20000C
abbrev ENC_FLAGS : Nat := 0x20000D
abbrev ILLEGAL_COUNT : Nat := 0x20000E
abbrev INDEX_ERROR : Nat := 0x20000F
abbrev INDEX_ERR_COUNT : Nat := 0x200010
abbrev WIRE_STATUS : Nat := 0x200011
abbrev WP_PRIMARY : Nat := 0x208001
abbrev WP_SECONDARY : Nat := 0x208002
abbrev WP_POSITION : Nat := 0x208003
abbrev WP_TIME : Nat := 0x208004
abbrev WP_SPEED_COARSE : Nat := 0x208005
abbrev WP_SPEED_FINE : Nat := 0x208006
abbrev WP_STATE : Nat := 0x208007
abbrev WP_DIRECTION : Nat := 0x208008
abbrev WP_ACTIVE : Nat := 0x208009
abbrev STANDSTILL_TIME : Nat := 0x20800A
abbrev FINE_WINDOW : Nat := 0x20800B
abbrev EXTRAP_SOURCE : Nat := 0x20800C
abbrev ILLEGAL_FAULT_N : Nat := 0x20800D
abbrev FAILOVER_SILENCE : Nat := 0x20800E
abbrev DEVIATION_TOL : Nat := 0x20800F
abbrev DEVIATION : Nat := 0x208010
abbrev DEVIATION_RESET : Nat := 0x208011
abbrev FAILBACK : Nat := 0x208012
abbrev FAILOVER_COUNT : Nat := 0x208013
abbrev FAILOVER_LAST : Nat := 0x208014
abbrev POS_STEP_LAST : Nat := 0x208015
abbrev WP_FLAGS : Nat := 0x208016
abbrev OUT_SOURCE : Nat := 0x209001
abbrev OUT_NUM : Nat := 0x209002
abbrev OUT_DEN : Nat := 0x209003
abbrev OUT_MODE : Nat := 0x209004
abbrev OUT_MIN_STATE : Nat := 0x209005
abbrev OUT_PENDING : Nat := 0x209006
abbrev OUT_COUNT : Nat := 0x209007
abbrev OUT_OVERFLOW : Nat := 0x209008
abbrev TB_TIME : Nat := 0x210001
abbrev TB_STATE : Nat := 0x210002
abbrev TB_SOURCE : Nat := 0x210003
abbrev TB_OFFSET : Nat := 0x210004
abbrev TB_FREQ_ADJ : Nat := 0x210005
abbrev TB_HOST_ADJ : Nat := 0x210006
abbrev TB_SET : Nat := 0x210007
abbrev TB_STEP_ADJ : Nat := 0x210008
abbrev TB_STEP_LAST : Nat := 0x210009
abbrev TB_STEP_COUNT : Nat := 0x21000A
abbrev TB_FLAGS : Nat := 0x21000B
abbrev TB_LOCK_THRESH : Nat := 0x21000C
abbrev TB_STEP_LIMIT : Nat := 0x21000D
abbrev TB_STEP_POLICY : Nat := 0x21000E
abbrev TB_FREQ_LIMIT : Nat := 0x21000F
abbrev TB_SLEW_RATE : Nat := 0x210010
abbrev TB_SOURCE_TIMEOUT : Nat := 0x210011
abbrev TB_KP : Nat := 0x210012
abbrev TB_KI : Nat := 0x210013
abbrev TB_HOLDOVER_FREQ : Nat := 0x210014
abbrev TB_HOLDOVER_TIME : Nat := 0x210015
abbrev EXT_SECONDS : Nat := 0x210101
abbrev PPS_IN_LAT : Nat := 0x210102
abbrev REF10M_ENABLE : Nat := 0x210103
abbrev PPS_OUT_MODE : Nat := 0x210104
abbrev PPS_OUT_WIDTH : Nat := 0x210105
abbrev PPS_OUT_OFFSET : Nat := 0x210106
abbrev PPS_IN_LAST : Nat := 0x210107
abbrev REF_STATUS : Nat := 0x210108
abbrev LINK_MODE : Nat := 0x211001
abbrev LINK_STATUS : Nat := 0x211002
abbrev PTP_ENABLE : Nat := 0x211003
abbrev PTP_TRANSPORT : Nat := 0x211004
abbrev PTP_DELAY_MECH : Nat := 0x211005
abbrev PTP_LOG_SYNC : Nat := 0x211006
abbrev PTP_LOG_ANNOUNCE : Nat := 0x211007
abbrev PTP_LOG_DELAYREQ : Nat := 0x211008
abbrev PTP_ANN_TIMEOUT : Nat := 0x211009
abbrev INGRESS_LAT : Nat := 0x21100A
abbrev EGRESS_LAT : Nat := 0x21100B
abbrev ASYMMETRY : Nat := 0x21100C
abbrev INTERNAL_RX_LAT : Nat := 0x21100D
abbrev INTERNAL_TX_LAT : Nat := 0x21100E
abbrev UDP_CSUM_MODE : Nat := 0x21100F
abbrev PORT_STATE : Nat := 0x211010
abbrev MASTER_ID : Nat := 0x211011
abbrev MEAN_PATH_DELAY : Nat := 0x211012
abbrev RX_OVERRUN : Nat := 0x211013
abbrev PTP_RX_COUNT : Nat := 0x211014
abbrev PTP_DROPPED : Nat := 0x211015
abbrev PTP_DOMAIN : Nat := 0x213001
abbrev PTP_PRIORITY1 : Nat := 0x213002
abbrev PTP_PRIORITY2 : Nat := 0x213003
abbrev PTP_CLOCK_TYPE : Nat := 0x213004
abbrev PTP_SLAVE_ONLY : Nat := 0x213005
abbrev PTP_CLOCK_ID : Nat := 0x213006
abbrev PTP_CLOCK_CLASS : Nat := 0x213007
abbrev PTP_UTC_OFFSET : Nat := 0x213008
abbrev PTP_UTC_OFFSET_RX : Nat := 0x213009
abbrev TA_TIME : Nat := 0x214001
abbrev TA_KIND : Nat := 0x214002
abbrev TA_TARGET : Nat := 0x214003
abbrev TA_ARG : Nat := 0x214004
abbrev TA_PERIOD : Nat := 0x214005
abbrev TA_COUNT : Nat := 0x214006
abbrev TA_FLAGS : Nat := 0x214007
abbrev TA_CTRL : Nat := 0x214008
abbrev TA_STATUS : Nat := 0x214009
abbrev TA_ERROR : Nat := 0x21400A
abbrev TA_LATENESS : Nat := 0x21400B
abbrev TA_FIRED : Nat := 0x21400C
abbrev TA_MISSED : Nat := 0x21400D
abbrev TA_NEXT : Nat := 0x21400E
abbrev TA_NOTIFY_FLAGS : Nat := 0x218001
abbrev TA_LATE_FLAGS : Nat := 0x218002
abbrev TA_SKIP_FLAGS : Nat := 0x218003
abbrev TA_ERROR_FLAGS : Nat := 0x218004
abbrev TA_ARMED : Nat := 0x218005
abbrev INPUT_FLAGS : Nat := 0x810001
abbrev HEAD_INPUT : Nat := 0x810801
abbrev HEAD_LINK : Nat := 0x810802
abbrev SOURCE_ID : Nat := 0x810803
abbrev PIX_FORMAT : Nat := 0x810804
abbrev LINE_LENGTH : Nat := 0x810805
abbrev TAP_COUNT : Nat := 0x810806
abbrev TAP_START : Nat := 0x810807
abbrev TAP_LEN : Nat := 0x810808
abbrev TAP_DIR : Nat := 0x810809
abbrev LINE_PITCH : Nat := 0x81080A
abbrev LINE_PHASE : Nat := 0x81080B
abbrev LINE_TIMEOUT : Nat := 0x81080C
abbrev LINK_TRIGGER : Nat := 0x81080D
abbrev LEN_ALARM_N : Nat := 0x81080E
abbrev LOST_ALARM_N : Nat := 0x81080F
abbrev CXP_EXPO_ADDR : Nat := 0x810810
abbrev SENSOR_TEMP_SET : Nat := 0x810811
abbrev CRC_POLICY : Nat := 0x810812
abbrev LANE_ROLE : Nat := 0x811001
abbrev LK_LINK_WIDTH : Nat := 0x811002
abbrev CXP_SPEED : Nat := 0x811003
abbrev LK_LINK_STATE : Nat := 0x811004
abbrev DECODE_ERR : Nat := 0x811005
abbrev ALIGN_LOSS : Nat := 0x811006
abbrev LANE_OVERRUN : Nat := 0x811007
abbrev LANE_SKEW : Nat := 0x811008
abbrev CXP_CTRL_LINK : Nat := 0x811201
abbrev CXP_CTRL_TX : Nat := 0x811202
abbrev CXP_CTRL_RX : Nat := 0x811203
abbrev CXP_CTRL_POP : Nat := 0x811204
abbrev CXP_CTRL_RX_COUNT : Nat := 0x811205
abbrev CXP_CTRL_RX_DROPS : Nat := 0x811206
abbrev BL_REG_LINK : Nat := 0x811301
abbrev BL_REG_ADDR : Nat := 0x811302
abbrev BL_REG_DATA : Nat := 0x811303
abbrev BL_REG_CMD : Nat := 0x811304
abbrev BL_REG_STATUS : Nat := 0x811305
abbrev AUX_ENABLE : Nat := 0x811801
abbrev AUX_BITS : Nat := 0x811802
abbrev AUX_LENGTH : Nat := 0x811803
abbrev AUX_SYNC : Nat := 0x811804
abbrev AUX_CLASS : Nat := 0x811805
abbrev AUX_RING_ADDR : Nat := 0x811806
abbrev AUX_RING_SIZE : Nat := 0x811807
abbrev AUX_RING_WR : Nat := 0x811808
abbrev AUX_RING_RD : Nat := 0x811809
abbrev AUX_LINES : Nat := 0x81180A
abbrev AUX_DROPS : Nat := 0x81180B
abbrev AUX_LEN_ERR : Nat := 0x81180C
abbrev LINES_OK : Nat := 0x812001
abbrev LINES_SHORT : Nat := 0x812002
abbrev LINES_LONG : Nat := 0x812003
abbrev LINES_CRC : Nat := 0x812004
abbrev LINES_LOST : Nat := 0x812005
abbrev LAST_TRIG_POS : Nat := 0x812006
abbrev SENSOR_TEMP : Nat := 0x812007
abbrev TEMP_AGE : Nat := 0x812008
abbrev TRIG_OUTSTANDING : Nat := 0x812009
abbrev UNSOLICITED : Nat := 0x81200A
abbrev EXPO_FAIL : Nat := 0x81200B
abbrev TRG_HEAD : Nat := 0x812801
abbrev TRG_POLARITY : Nat := 0x812802
abbrev TRG_WIDTH : Nat := 0x812803
abbrev TRG_COUNT : Nat := 0x812804
abbrev TRG_OVERLAP : Nat := 0x812805
abbrev RX_INVERT : Nat := 0x818001
abbrev ADAPT_MODE : Nat := 0x818002
abbrev CTLE_NOW : Nat := 0x818003
abbrev DFE_NOW : Nat := 0x818004
abbrev DENS_MIN : Nat := 0x818005
abbrev IDLE_MAX : Nat := 0x818006
abbrev GOOD_RUN : Nat := 0x818007
abbrev WANDER_TIME : Nat := 0x818008
abbrev WANDER_STEP : Nat := 0x818009
abbrev WANDER_POLICY : Nat := 0x81800A
abbrev LOS_THRESH : Nat := 0x81800B
abbrev LOL_PPM : Nat := 0x81800C
abbrev LANE_STATUS : Nat := 0x81800D
abbrev LANE_FLAGS : Nat := 0x81800E
abbrev LOS_COUNT : Nat := 0x81800F
abbrev LOL_COUNT : Nat := 0x818010
abbrev WANDER_COUNT : Nat := 0x818011
abbrev FREEZE_COUNT : Nat := 0x818012
abbrev FREQ_OFFSET : Nat := 0x818013
abbrev TRIM_TEMP : Nat := 0x818014
abbrev LANE_TEST : Nat := 0x818015
abbrev PRBS_SEL : Nat := 0x818016
abbrev PRBS_INVERT : Nat := 0x818017
abbrev PRBS_SYNC : Nat := 0x818018
abbrev PRBS_BITS : Nat := 0x818019
abbrev PRBS_ERRORS : Nat := 0x81801A
abbrev PRBS_RESYNC : Nat := 0x81801B
abbrev PRBS_CLEAR : Nat := 0x81801C
abbrev PAT_WORD : Nat := 0x818801
abbrev SCAN_LANE : Nat := 0x818901
abbrev SCAN_PHASE_MIN : Nat := 0x818902
abbrev SCAN_PHASE_MAX : Nat := 0x818903
abbrev SCAN_PHASE_STEP : Nat := 0x818904
abbrev SCAN_VOLT_MIN : Nat := 0x818905
abbrev SCAN_VOLT_MAX : Nat := 0x818906
abbrev SCAN_VOLT_STEP : Nat := 0x818907
abbrev SCAN_DWELL : Nat := 0x818908
abbrev SCAN_CTRL : Nat := 0x818909
abbrev SCAN_STATUS : Nat := 0x81890A
abbrev SCAN_POINTS : Nat := 0x81890B
abbrev SCAN_RESULT : Nat := 0x81890C
abbrev TX_INVERT : Nat := 0x21F020
abbrev TX_FIR : Nat := 0x21F021
abbrev TX_SQUELCH : Nat := 0x21F022
abbrev FRONT_FLAGS : Nat := 0x820001
abbrev CORR_BANK0 : Nat := 0x820002
abbrev CORR_BANK1 : Nat := 0x820003
abbrev CORR_BANK_SEL : Nat := 0x820004
abbrev FADE_LOG2 : Nat := 0x820005
abbrev FADE_POS : Nat := 0x820006
abbrev BANK_IN_USE : Nat := 0x820007
abbrev FADE_COUNT : Nat := 0x820008
abbrev LUT_ENABLE : Nat := 0x820801
abbrev LUT : Nat := 0x820802
abbrev SAT_CODE : Nat := 0x820803
abbrev NR_XW_MODE : Nat := 0x820804
abbrev NR_XW_WEIGHT : Nat := 0x820805
abbrev NR_XW_K : Nat := 0x820806
abbrev NR_T_ALPHA : Nat := 0x820807
abbrev NR_T_K : Nat := 0x820808
abbrev NOISE_MODEL : Nat := 0x820809
abbrev CORR_ENABLE : Nat := 0x82080A
abbrev TBL_BASE : Nat := 0x82080B
abbrev TBL_DECIM : Nat := 0x82080C
abbrev TEMP_ANCHOR : Nat := 0x82080D
abbrev SAT_SAMPLES : Nat := 0x821001
abbrev REPL_SAMPLES : Nat := 0x821002
abbrev REPL_FAIL : Nat := 0x821003
abbrev NR_RESTARTS : Nat := 0x821004
abbrev DARK_WEIGHT : Nat := 0x821005
abbrev LUT_CLAMPS : Nat := 0x821006
abbrev GEO_FLAGS : Nat := 0x830001
abbrev OUT_PITCH : Nat := 0x830002
abbrev OUT_PHASE : Nat := 0x830003
abbrev XW_PITCH : Nat := 0x830004
abbrev XW_ORIGIN : Nat := 0x830005
abbrev SWATH_WIDTH : Nat := 0x830006
abbrev LOST_BRIDGE : Nat := 0x830007
abbrev ALIGN_ADDR : Nat := 0x830008
abbrev ALIGN_SIZE : Nat := 0x830009
abbrev ALIGN_BW_LIMIT : Nat := 0x83000A
abbrev ALIGN_NEED : Nat := 0x83000B
abbrev ALIGN_BW_NEED : Nat := 0x83000C
abbrev SWATH_BUDGET : Nat := 0x83000D
abbrev SWATH_BUDGET_REJECTS : Nat := 0x83000E
abbrev SWATH_PLANES : Nat := 0x83000F
abbrev OUT_LATENCY_POS : Nat := 0x830010
abbrev OUT_LINES : Nat := 0x830011
abbrev SETTLING_LINES : Nat := 0x830012
abbrev RESYNC_COUNT : Nat := 0x830013
abbrev LAST_RESYNC_POS : Nat := 0x830014
abbrev LAST_OUT_POS : Nat := 0x830015
abbrev UNCOVERED_PIXELS : Nat := 0x830016
abbrev ALIGN_LATE_LINES : Nat := 0x830017
abbrev XW_EDGE : Nat := 0x830018
abbrev DW_DELAY_INT : Nat := 0x830801
abbrev DW_DELAY_FRAC : Nat := 0x830802
abbrev DW_COEF : Nat := 0x830803
abbrev XW_COEF : Nat := 0x830804
abbrev MAP_X0 : Nat := 0x830805
abbrev MAP_DX : Nat := 0x830806
abbrev MAP_KNOTS : Nat := 0x830807
abbrev MAP_COL : Nat := 0x830808
abbrev COVER : Nat := 0x830809
abbrev SEAM_MODE : Nat := 0x83080A
abbrev COVER_PIXELS : Nat := 0x831001
abbrev HOLD_LINES : Nat := 0x831002
abbrev LOST_BRIDGED : Nat := 0x831003
abbrev LOST_UNBRIDGED : Nat := 0x831004
abbrev DW_CLAMPS : Nat := 0x831005
abbrev XW_CLAMPS : Nat := 0x831006
abbrev TIME_LINES : Nat := 0x831007
abbrev SETTLE_LEFT : Nat := 0x831008
abbrev STATS_FLAGS : Nat := 0x838001
abbrev STAT_LINE_DECIM : Nat := 0x838002
abbrev STAT_GEN : Nat := 0x838003
abbrev CYCLES_RUN : Nat := 0x838004
abbrev CYCLES_STALE : Nat := 0x838005
abbrev CYCLES_MISSED : Nat := 0x838006
abbrev HIST : Nat := 0x838801
abbrev ZONE_MEAN : Nat := 0x838802
abbrev ZONE_COUNT : Nat := 0x838803
abbrev STAT_SAMPLES : Nat := 0x838804
abbrev STAT_SATURATED : Nat := 0x838805
abbrev STAT_EXCLUDED : Nat := 0x838806
abbrev STAT_LINES : Nat := 0x838807
abbrev STAT_POS_FIRST : Nat := 0x838808
abbrev STAT_POS_LAST : Nat := 0x838809
abbrev LOOP_MODE : Nat := 0x839001
abbrev LOOP_MEASURE : Nat := 0x839002
abbrev LOOP_TARGET : Nat := 0x839003
abbrev LOOP_PCT : Nat := 0x839004
abbrev LOOP_ZONES : Nat := 0x839005
abbrev LOOP_KP : Nat := 0x839006
abbrev LOOP_KI : Nat := 0x839007
abbrev LOOP_DEADBAND : Nat := 0x839008
abbrev LOOP_RATE_CAP : Nat := 0x839009
abbrev EXPO_MIN : Nat := 0x83900A
abbrev EXPO_MAX : Nat := 0x83900B
abbrev EXPO_GUARD : Nat := 0x83900C
abbrev EXPO_UNIT : Nat := 0x83900D
abbrev GAIN_MIN : Nat := 0x83900E
abbrev GAIN_MAX : Nat := 0x83900F
abbrev EXPO_LEAD : Nat := 0x839010
abbrev SAT_LIMIT : Nat := 0x839011
abbrev SAT_STEP : Nat := 0x839012
abbrev DARK_LEVEL : Nat := 0x839013
abbrev WB_MODE : Nat := 0x839014
abbrev WB_ZONES : Nat := 0x839015
abbrev WB_KI : Nat := 0x839016
abbrev WB_MIN : Nat := 0x839017
abbrev WB_MAX : Nat := 0x839018
abbrev EXPO_SET : Nat := 0x839019
abbrev GAIN_SET : Nat := 0x83901A
abbrev WB_SET : Nat := 0x83901B
abbrev LOOP_STATE : Nat := 0x839801
abbrev EXPO_NOW : Nat := 0x839802
abbrev GAIN_NOW : Nat := 0x839803
abbrev WB_NOW : Nat := 0x839804
abbrev LOOP_MEASURED : Nat := 0x839805
abbrev LOOP_ERROR : Nat := 0x839806
abbrev STEP_RATIO : Nat := 0x839807
abbrev STEP_EFFECT_TRIG : Nat := 0x839808
abbrev STEP_COUNT : Nat := 0x839809
abbrev STEP_GEN : Nat := 0x83980A
abbrev EXPO_MAX_EFF : Nat := 0x83980B
abbrev ILL_OWNER : Nat := 0x83A001
abbrev ILL_LIT : Nat := 0x83A002
abbrev ILL_FREQ : Nat := 0x83A003
abbrev ILL_SYNC : Nat := 0x83A004
abbrev ILL_POLARITY : Nat := 0x83A005
abbrev DUTY_MIN : Nat := 0x83A006
abbrev DUTY_MAX : Nat := 0x83A007
abbrev DUTY_SET : Nat := 0x83A008
abbrev DUTY_NOW : Nat := 0x83A009
abbrev LMON_MODE : Nat := 0x83A801
abbrev LMON_DELAY : Nat := 0x83A802
abbrev LMON_LOW : Nat := 0x83A803
abbrev LMON_HIGH : Nat := 0x83A804
abbrev LMON_MEAN : Nat := 0x83A805
abbrev LMON_MIN : Nat := 0x83A806
abbrev LMON_MAX : Nat := 0x83A807
abbrev LMON_COUNT : Nat := 0x83A808
abbrev LMON_TIME : Nat := 0x83A809
abbrev LMON_RESULTS : Nat := 0x83A80A
abbrev SEG_FLAGS : Nat := 0x840001
abbrev SEG_ENABLE : Nat := 0x840002
abbrev SEG_PLANE : Nat := 0x840003
abbrev BG_LOG2 : Nat := 0x840004
abbrev BG_GUARD : Nat := 0x840005
abbrev BG_LEARN : Nat := 0x840006
abbrev BG_FREEZE_MAX : Nat := 0x840007
abbrev SEED_BRIGHT : Nat := 0x840008
abbrev SEED_DARK : Nat := 0x840009
abbrev GROW_BRIGHT : Nat := 0x84000A
abbrev GROW_DARK : Nat := 0x84000B
abbrev SAT_AS_SEED : Nat := 0x84000C
abbrev SIGMA_MIN : Nat := 0x84000D
abbrev NOISE_GAIN : Nat := 0x84000E
abbrev SPLIT_LINES : Nat := 0x84000F
abbrev MIN_AREA : Nat := 0x840010
abbrev PROGRESS_LINES : Nat := 0x840011
abbrev OPEN_HIGH_N : Nat := 0x840012
abbrev RULES : Nat := 0x840801
abbrev DEFAULT_CLASS : Nat := 0x840802
abbrev DEFAULT_SEV : Nat := 0x840803
abbrev CLASS_CTRL : Nat := 0x840804
abbrev REC_RING_ADDR : Nat := 0x841001
abbrev REC_RING_SIZE : Nat := 0x841002
abbrev REC_WR : Nat := 0x841003
abbrev REC_RD : Nat := 0x841004
abbrev REC_WB_ADDR : Nat := 0x841005
abbrev REC_IRQ_N : Nat := 0x841006
abbrev REC_IRQ_TIME : Nat := 0x841007
abbrev REC_WRITTEN : Nat := 0x841008
abbrev REC_DROPS : Nat := 0x841009
abbrev REC_QUEUED : Nat := 0x84100A
abbrev HIST_ADDR : Nat := 0x841801
abbrev HIST_LINES : Nat := 0x841802
abbrev HIST_STRIDE : Nat := 0x841803
abbrev CROP_RING_ADDR : Nat := 0x841804
abbrev CROP_RING_SIZE : Nat := 0x841805
abbrev CROP_WR : Nat := 0x841806
abbrev CROP_RD : Nat := 0x841807
abbrev CROP_MARGIN : Nat := 0x841808
abbrev CROP_MAX_LINES : Nat := 0x841809
abbrev CROP_MAX_COLS : Nat := 0x84180A
abbrev CROP_FLAGS : Nat := 0x84180B
abbrev CROPS : Nat := 0x84180C
abbrev CROP_DROPS : Nat := 0x84180D
abbrev CROP_TRUNCS : Nat := 0x84180E
abbrev OPEN_NOW : Nat := 0x842001
abbrev OPEN_PEAK : Nat := 0x842002
abbrev BLOBS_RECORDED : Nat := 0x842003
abbrev GROW_ONLY : Nat := 0x842004
abbrev SMALL_DISCARDS : Nat := 0x842005
abbrev SUPPRESSED : Nat := 0x842006
abbrev SPLITS : Nat := 0x842007
abbrev OVERFLOW_LINES : Nat := 0x842008
abbrev OVERFLOW_SEEDS : Nat := 0x842009
abbrev BG_THAWS : Nat := 0x84200A
abbrev CLASS_COUNT : Nat := 0x84200B
abbrev SEG_LAST_POS : Nat := 0x84200C
abbrev OPEN_SNAP_ADDR : Nat := 0x84200D
abbrev OPEN_SNAP : Nat := 0x84200E
abbrev OPEN_SNAP_STATUS : Nat := 0x84200F
abbrev OPEN_SNAP_COUNT : Nat := 0x842010
abbrev STK_FLAGS : Nat := 0x850001
abbrev STK_ENABLE : Nat := 0x850002
abbrev STK_MATCH_Y : Nat := 0x850003
abbrev STK_MATCH_X : Nat := 0x850004
abbrev STK_RESOLVE_MAX : Nat := 0x850005
abbrev STK_CLASS_POLICY : Nat := 0x850006
abbrev CUE_HIGH_N : Nat := 0x850007
abbrev CUES_NOW : Nat := 0x850008
abbrev CUES_PEAK : Nat := 0x850009
abbrev RES_DROPS : Nat := 0x85000A
abbrev CUE_SNAP_ADDR : Nat := 0x85000B
abbrev CUE_SNAP : Nat := 0x85000C
abbrev CUE_SNAP_STATUS : Nat := 0x85000D
abbrev CUE_SNAP_COUNT : Nat := 0x85000E
abbrev PV_ENABLE : Nat := 0x850801
abbrev PV_BRIGHT : Nat := 0x850802
abbrev PV_DARK : Nat := 0x850803
abbrev PV_MIN_RUN : Nat := 0x850804
abbrev PV_LOG2 : Nat := 0x850805
abbrev PV_FREEZE : Nat := 0x850806
abbrev PV_FREEZE_MAX : Nat := 0x850807
abbrev PV_LEARN : Nat := 0x850808
abbrev PV_NOISE_GAIN : Nat := 0x850809
abbrev PV_PLANE : Nat := 0x85080A
abbrev PV_SAT_AS_SEED : Nat := 0x85080B
abbrev PV_DETECTIONS : Nat := 0x85080C
abbrev STK_MODE : Nat := 0x851001
abbrev STK_HEADS : Nat := 0x851002
abbrev STK_POLARITIES : Nat := 0x851003
abbrev STK_XW_MIN : Nat := 0x851004
abbrev STK_XW_MAX : Nat := 0x851005
abbrev STK_LEAD : Nat := 0x851006
abbrev STK_GUARD : Nat := 0x851007
abbrev STK_LATE_POLICY : Nat := 0x851008
abbrev STK_MERGE : Nat := 0x851009
abbrev STK_WIDTH : Nat := 0x85100A
abbrev STK_POLARITY : Nat := 0x85100B
abbrev STK_RECALL_OUT : Nat := 0x85100C
abbrev STK_RECALL_WIDTH : Nat := 0x85100D
abbrev STK_RELAY_TX : Nat := 0x85100E
abbrev STK_RELAY_SRC : Nat := 0x85100F
abbrev STK_PULSES : Nat := 0x851010
abbrev STK_OVERLAP : Nat := 0x851011
abbrev STK_LAST_FIRE : Nat := 0x851012
abbrev PQ_RING_ADDR : Nat := 0x851801
abbrev PQ_RING_SIZE : Nat := 0x851802
abbrev PQ_WR : Nat := 0x851803
abbrev PQ_RD : Nat := 0x851804
abbrev PQ_WB_ADDR : Nat := 0x851805
abbrev PQ_IRQ_N : Nat := 0x851806
abbrev PQ_DROPS : Nat := 0x851807
abbrev RUSHES_FLAGS : Nat := 0x858001
abbrev RUSHES_ENABLE : Nat := 0x858002
abbrev RUSHES_ADDR : Nat := 0x858003
abbrev RUSHES_SIZE : Nat := 0x858004
abbrev RAW_HEADS : Nat := 0x858005
abbrev RAW_FORM : Nat := 0x858006
abbrev RAW_FILTER : Nat := 0x858007
abbrev EDGE_LOG2 : Nat := 0x858008
abbrev TB_SAMPLES : Nat := 0x858009
abbrev RUSHES_HEAD : Nat := 0x85800A
abbrev RUSHES_TAIL : Nat := 0x85800B
abbrev RUSHES_TAIL_SEQ : Nat := 0x85800C
abbrev RUSHES_SEQ : Nat := 0x85800D
abbrev RUSHES_BYTES : Nat := 0x85800E
abbrev RAW_MISSES : Nat := 0x85800F
abbrev JRN_DROPS : Nat := 0x858010
abbrev RAW_BW_NEED : Nat := 0x858011
abbrev RAW_BW_LIMIT : Nat := 0x858012
abbrev FREEZE_ON : Nat := 0x858101
abbrev PRE_DEPTH : Nat := 0x858102
abbrev POST_DEPTH : Nat := 0x858103
abbrev POST_TIME : Nat := 0x858104
abbrev FREEZE_NOW : Nat := 0x858105
abbrev FREEZE_RELEASE : Nat := 0x858106
abbrev FREEZE_STATE : Nat := 0x858107
abbrev FREEZE_CAUSE : Nat := 0x858108
abbrev FREEZE_POS : Nat := 0x858109
abbrev FREEZE_OFF : Nat := 0x85810A
abbrev FREEZE_EXTRA : Nat := 0x85810B
abbrev CKPT_PERIOD : Nat := 0x858201
abbrev CKPT_COUNT : Nat := 0x858202
abbrev CKPT_ABANDONED : Nat := 0x858203
abbrev CKPT_OLDEST : Nat := 0x858204
abbrev CKPT_NEWEST : Nat := 0x858205
abbrev CKPT_LAST_POS : Nat := 0x858206
abbrev RETAKE_ADDR : Nat := 0x858401
abbrev RETAKE_SIZE : Nat := 0x858402
abbrev RETAKE_FIRST : Nat := 0x858403
abbrev RETAKE_ENTRIES : Nat := 0x858404
abbrev RETAKE_CTRL : Nat := 0x858405
abbrev RETAKE_STATE : Nat := 0x858406
abbrev RETAKE_ERROR : Nat := 0x858407
abbrev RETAKE_ERR_OFF : Nat := 0x858408
abbrev RETAKE_DETAIL : Nat := 0x858409
abbrev RETAKE_DONE_ENTRIES : Nat := 0x85840A
abbrev RETAKE_POS : Nat := 0x85840B
abbrev RETAKE_COMPARED : Nat := 0x85840C
abbrev RETAKE_MISMATCH_GEN : Nat := 0x85840D
abbrev RETAKE_MISMATCH_K : Nat := 0x85840E
abbrev K_POINT : Nat := 0x858801
abbrev K_SEL : Nat := 0x858802
abbrev K_PRESET : Nat := 0x858803
abbrev K_WIDTH : Nat := 0x858804
abbrev K_POLY : Nat := 0x858805
abbrev K_INIT : Nat := 0x858806
abbrev K_XOROUT : Nat := 0x858807
abbrev K_REFLECT : Nat := 0x858808
abbrev K_RESULT : Nat := 0x858809
abbrev K_BYTES : Nat := 0x85880A
abbrev K_GEN : Nat := 0x85880B
abbrev K_TEST : Nat := 0x85880C
abbrev K_TEST_RESULT : Nat := 0x85880D
abbrev MEM_FLAGS : Nat := 0x860001
abbrev MEM_TYPE : Nat := 0x860002
abbrev MEM_DENSITY : Nat := 0x860003
abbrev MEM_RANKS : Nat := 0x860004
abbrev ADDR_ORDER : Nat := 0x860005
abbrev MEM_CAPACITY : Nat := 0x860006
abbrev MEM_STATE : Nat := 0x860007
abbrev ACTIVE_SET : Nat := 0x860008
abbrev FREQ_SWITCH : Nat := 0x860009
abbrev MEM_TRAIN : Nat := 0x86000A
abbrev BOOT_TRAIN_B : Nat := 0x86000B
abbrev MR4_POLL : Nat := 0x86000C
abbrev NBR_LOG2 : Nat := 0x86000D
abbrev NBR_SEED : Nat := 0x86000E
abbrev SR_TEST : Nat := 0x86000F
abbrev RATE : Nat := 0x860801
abbrev TIMING : Nat := 0x860802
abbrev LATENCY : Nat := 0x860803
abbrev MR_WRITES : Nat := 0x860804
abbrev SET_TRAINED : Nat := 0x860805
abbrev REF_RATE : Nat := 0x861001
abbrev REF_DEBT : Nat := 0x861002
abbrev MR4_LAST : Nat := 0x861003
abbrev FORCED_BURSTS : Nat := 0x861004
abbrev RATE_CHANGES : Nat := 0x861005
abbrev NBR_REFRESHES : Nat := 0x861006
abbrev SR_ENTRIES : Nat := 0x861007
abbrev SR_ABORTS : Nat := 0x861008
abbrev FREQ_CHANGES : Nat := 0x861009
abbrev TRAIN_COUNT : Nat := 0x86100A
abbrev TRAIN_RESULT : Nat := 0x86100B
abbrev TRAIN_DETAIL : Nat := 0x86100C
abbrev ADDR_ERR_ADDR : Nat := 0x86100D
abbrev ADDR_ERR_COUNT : Nat := 0x86100E
abbrev READS : Nat := 0x86100F
abbrev WRITES : Nat := 0x861010
abbrev BW_NOW : Nat := 0x861011
abbrev CMP_FLAGS : Nat := 0x868001
abbrev CMP_SUBMIT : Nat := 0x868002
abbrev CMP_QUEUED : Nat := 0x868003
abbrev CMP_ABORT : Nat := 0x868004
abbrev CMP_STATE : Nat := 0x868005
abbrev CMP_LAST : Nat := 0x868006
abbrev CPL_RING_ADDR : Nat := 0x868007
abbrev CPL_RING_SIZE : Nat := 0x868008
abbrev CPL_WR : Nat := 0x868009
abbrev CPL_RD : Nat := 0x86800A
abbrev CPL_WB_ADDR : Nat := 0x86800B
abbrev CPL_IRQ_N : Nat := 0x86800C
abbrev JOBS_DONE : Nat := 0x86800D
abbrev JOBS_ERR : Nat := 0x86800E
abbrev ERR_LAST : Nat := 0x86800F
abbrev BYTES_IN : Nat := 0x868010
abbrev BYTES_OUT : Nat := 0x868011
abbrev STORED_BLOCKS : Nat := 0x868012
abbrev RECORDER_JOBS : Nat := 0x868013
abbrev DMA_FLAGS : Nat := 0x870001
abbrev DMA_ENABLE : Nat := 0x870002
abbrev DMA_ACTIVE : Nat := 0x870003
abbrev PROG_ADDR : Nat := 0x870801
abbrev PROG_SPACE : Nat := 0x870802
abbrev THREAD_CLASS : Nat := 0x870803
abbrev LINK_LIMIT : Nat := 0x870804
abbrev THREAD_CTRL : Nat := 0x870805
abbrev DOORBELL : Nat := 0x870806
abbrev THREAD_STATE : Nat := 0x871001
abbrev PC : Nat := 0x871002
abbrev DB_TAKEN : Nat := 0x871003
abbrev SEM : Nat := 0x871004
abbrev CHAN_OFF : Nat := 0x871005
abbrev FAR_OFF : Nat := 0x871006
abbrev LOOP_LEFT : Nat := 0x871007
abbrev BYTES_MOVED : Nat := 0x871008
abbrev INSTR_DONE : Nat := 0x871009
abbrev WAIT_TIMEOUTS : Nat := 0x87100A
abbrev ERR_CODE : Nat := 0x87100B
abbrev ERR_WHERE : Nat := 0x87100C
abbrev ERR_ADDR : Nat := 0x87100D
abbrev ERR_PC : Nat := 0x87100E
abbrev ERR_ENTRY : Nat := 0x87100F
abbrev ERR_DONE : Nat := 0x871010
abbrev HP_FLAGS : Nat := 0x240001
abbrev HP_LINK_STATE : Nat := 0x240002
abbrev LINK_RATE : Nat := 0x240003
abbrev HP_LINK_WIDTH : Nat := 0x240004
abbrev LINK_FLIT : Nat := 0x240005
abbrev LANE_REVERSED : Nat := 0x240006
abbrev MAX_RATE : Nat := 0x240007
abbrev MAX_WIDTH : Nat := 0x240008
abbrev LINK_DOWNS : Nat := 0x240009
abbrev CORR_COUNT : Nat := 0x24000A
abbrev NONFATAL_COUNT : Nat := 0x24000B
abbrev FATAL_COUNT : Nat := 0x24000C
abbrev CPL_TIMEOUTS : Nat := 0x24000D
abbrev FLR_COUNT : Nat := 0x24000E
abbrev FLR_SCOPE : Nat := 0x24000F
abbrev WRITERS_HELD : Nat := 0x240010
abbrev WRITER_RELEASE : Nat := 0x240011
abbrev SUBSYS_VID : Nat := 0x240012
abbrev SUBSYS_ID : Nat := 0x240013
abbrev CHMEM_WIN_SIZE : Nat := 0x240014
abbrev CHMEM_WIN_BASE : Nat := 0x240015
abbrev BAR4_ERRS : Nat := 0x240016
abbrev IC_ENABLE : Nat := 0x244001
abbrev IC_SRC_CFG : Nat := 0x244002
abbrev IC_PENDING : Nat := 0x244003
abbrev IC_ACTIVE : Nat := 0x244004
abbrev IC_VSTATUS : Nat := 0x244005
abbrev IC_MSG_COUNT : Nat := 0x244006
abbrev IC_FLAGS : Nat := 0x244007
abbrev IC_ERR : Nat := 0x244008
abbrev IC_SPURIOUS : Nat := 0x244009
abbrev IC_SWI_SET : Nat := 0x24400A
abbrev LOG_FLAGS : Nat := 0x300001
abbrev LOG_MIN_CLASS : Nat := 0x300002
abbrev TRACE_LOG2 : Nat := 0x300003
abbrev TRACE_SEL : Nat := 0x300004
abbrev LOG_MARK : Nat := 0x300005
abbrev LOG_SEQ : Nat := 0x300006
abbrev LOG_ACCEPTED : Nat := 0x300007
abbrev LRING_ADDR : Nat := 0x300801
abbrev LRING_SIZE : Nat := 0x300802
abbrev LRING_WR : Nat := 0x300803
abbrev LRING_RD : Nat := 0x300804
abbrev LRING_WB_ADDR : Nat := 0x300805
abbrev LRING_IRQ_N : Nat := 0x300806
abbrev LRING_ORIGINS : Nat := 0x300807
abbrev UDP_ENABLE : Nat := 0x301001
abbrev UDP_PORT_SEL : Nat := 0x301002
abbrev UDP_DST_ADDR : Nat := 0x301003
abbrev UDP_DST_PORT : Nat := 0x301004
abbrev UDP_FLUSH : Nat := 0x301005
abbrev UDP_DGRAMS : Nat := 0x301006
abbrev BUF_MODE : Nat := 0x301801
abbrev LOG_BUF : Nat := 0x301802
abbrev BUF_WR : Nat := 0x301803
abbrev BUF_RD : Nat := 0x301804
abbrev BUF_HIGH_N : Nat := 0x301805
abbrev BUF_OVERWRITTEN : Nat := 0x301806
abbrev DROPPED_TRACE : Nat := 0x302001
abbrev DROPPED_EVENT : Nat := 0x302002
abbrev ALARMS_FOLDED : Nat := 0x302003
abbrev GAP_RECORDS : Nat := 0x302004
abbrev STORM_RECORDS : Nat := 0x302005
abbrev WRITTEN : Nat := 0x302006
abbrev FILL : Nat := 0x302007
abbrev RESERVE_USE : Nat := 0x302008
abbrev CLOG_FLAGS : Nat := 0x87C001
abbrev CTRACE_SEL : Nat := 0x87C002
abbrev CLOG_MIN_CLASS : Nat := 0x87C003
abbrev CAL_FLAGS : Nat := 0x310001
abbrev STORE_STATE : Nat := 0x310002
abbrev STORE_JEDEC_ID : Nat := 0x310003
abbrev STORE_CAPACITY : Nat := 0x310004
abbrev SLOT_STATE : Nat := 0x310005
abbrev SLOT_SEQ : Nat := 0x310006
abbrev AREA_IN_FORCE : Nat := 0x310007
abbrev STORE_LAST_AREA : Nat := 0x310008
abbrev STORE_RESULT : Nat := 0x310009
abbrev WEAR_SEQ : Nat := 0x31000A
abbrev FUSE_STATUS : Nat := 0x310101
abbrev FUSE_BANDGAP : Nat := 0x310102
abbrev FUSE_TSENSE : Nat := 0x310103
abbrev FUSE_OSC : Nat := 0x310104
abbrev FUSE_LANE_IMP : Nat := 0x310105
abbrev TRIM_SET : Nat := 0x310801
abbrev TRIM_CAPTURE : Nat := 0x310802
abbrev TRIM_STATUS : Nat := 0x310803
abbrev TRIM_VALID : Nat := 0x310804
abbrev TRIM_SAVE : Nat := 0x310805
abbrev TRIM_SET_TEMP : Nat := 0x310806
abbrev TRIM_CAPTURED : Nat := 0x310807
abbrev TRIM_IMAGE : Nat := 0x310808
abbrev CAL_CHANNEL : Nat := 0x311001
abbrev CAL_HEAD : Nat := 0x311002
abbrev CAL_KIND : Nat := 0x311003
abbrev CAL_ANCHOR : Nat := 0x311004
abbrev CAL_LINES_LOG2 : Nat := 0x311005
abbrev CAL_MOTION : Nat := 0x311006
abbrev CAL_REFLECTANCE : Nat := 0x311007
abbrev CAL_WHITE_LEVEL : Nat := 0x311008
abbrev CAL_CERT_ID : Nat := 0x311009
abbrev CAL_APPLY : Nat := 0x31100A
abbrev CAL_DEFECTS : Nat := 0x31100B
abbrev CAL_GAIN_LIMITS : Nat := 0x31100C
abbrev CAL_DARK_DEFECT : Nat := 0x31100D
abbrev CAL_DEFECT_MAX : Nat := 0x31100E
abbrev CAL_DARK_MAX : Nat := 0x31100F
abbrev CAL_WHITE_MIN : Nat := 0x311010
abbrev CAL_SAT_MAX : Nat := 0x311011
abbrev CAL_UNIF_TOL : Nat := 0x311012
abbrev CAL_DARK_DRIFT : Nat := 0x311013
abbrev CAL_TEMP_TOL : Nat := 0x311014
abbrev CAL_TIMEOUT : Nat := 0x311015
abbrev CAL_LIGHT_FORCE : Nat := 0x311016
abbrev CAL_CTRL : Nat := 0x311017
abbrev CAL_STATE : Nat := 0x311018
abbrev CAL_REASON : Nat := 0x311019
abbrev CAL_DETAIL : Nat := 0x31101A
abbrev CAL_LINES_DONE : Nat := 0x31101B
abbrev CAL_MARKED : Nat := 0x31101C
abbrev CAL_SKIPPED : Nat := 0x31101D
abbrev CAL_APPLIED : Nat := 0x31101E
abbrev CAL_PREPARED : Nat := 0x31101F
abbrev CAL_TRACE_INFORCE : Nat := 0x311020
abbrev CAL_TRACE_WORKING : Nat := 0x311021
abbrev PIX_SAVE : Nat := 0x311801
abbrev PIX_LOAD : Nat := 0x311802
abbrev PIX_AUTOLOAD : Nat := 0x311803
abbrev PIX_LOAD_APPLY : Nat := 0x311804
abbrev PIX_LOAD_RESULT : Nat := 0x311805
abbrev PWR_FLAGS : Nat := 0x230001
abbrev PWR_DEEPEST : Nat := 0x230002
abbrev PWR_STILL_DEEPEST : Nat := 0x230003
abbrev PWR_MARGIN : Nat := 0x230004
abbrev PWR_ACCEL : Nat := 0x230005
abbrev PWR_STATE : Nat := 0x230006
abbrev PWR_NEXT_EVENT : Nat := 0x230007
abbrev PWR_NEXT_KIND : Nat := 0x230008
abbrev PWR_WAKE : Nat := 0x230009
abbrev WAKE_COUNT : Nat := 0x23000A
abbrev ENTRY_ABORTS : Nat := 0x23000B
abbrev POWER_LOST : Nat := 0x23000C
abbrev TIME_IN_STATE : Nat := 0x23000D
abbrev CH_RESET : Nat := 0x23000E
abbrev DEVICE_RESET : Nat := 0x23000F
abbrev RESET_CAUSE : Nat := 0x230010
abbrev STARTUP_STEP : Nat := 0x230011
abbrev STARTUP_TIME : Nat := 0x230012
abbrev THERM_WARN : Nat := 0x230801
abbrev THERM_CRIT : Nat := 0x230802
abbrev THERM_MAX : Nat := 0x230803
abbrev THERM_PEAK : Nat := 0x230804
abbrev BW_FLAGS : Nat := 0x220001
abbrev BW_ROLE : Nat := 0x220002
abbrev BW_PRIORITY : Nat := 0x220003
abbrev BW_STATE : Nat := 0x220004
abbrev BW_IS_ROOT : Nat := 0x220005
abbrev BW_RING_POS : Nat := 0x220006
abbrev BW_MEMBERS : Nat := 0x220007
abbrev BW_ROOT_ID : Nat := 0x220008
abbrev BW_PORT_STATE : Nat := 0x220009
abbrev BW_LINK_DELAY : Nat := 0x22000A
abbrev BW_PATH_DELAY : Nat := 0x22000B
abbrev BW_EQ_DELAY : Nat := 0x22000C
abbrev BW_FORWARD : Nat := 0x22000D
abbrev BW_FALLBACK : Nat := 0x22000E
abbrev BW_ROOT_TIMEOUT : Nat := 0x22000F
abbrev BW_ELECT_WAIT : Nat := 0x220010
abbrev BW_BREAKS : Nat := 0x220011
abbrev BW_CRC_DROPS : Nat := 0x220012
abbrev BW_JOINS : Nat := 0x220013
abbrev BW_RELAYS : Nat := 0x220014
abbrev BW_ECHOES : Nat := 0x220015
abbrev MON_SUPPLY_MV : Nat := 0x320001
abbrev MON_SUPPLY_LOW : Nat := 0x320002
abbrev MON_SUPPLY_HIGH : Nat := 0x320003
abbrev MON_AUX_LEVEL : Nat := 0x320004
abbrev MON_OUT : Nat := 0x320005
abbrev MON_SUPPLY_MIN : Nat := 0x320006
abbrev MON_SUPPLY_MAX : Nat := 0x320007
abbrev MON_CLEAR : Nat := 0x320008
abbrev MON_TEMP : Nat := 0x320009
abbrev MON_CORE_CURRENT : Nat := 0x32000A
abbrev D_RX_INVERT : Nat := 0x21F001
abbrev D_ADAPT_MODE : Nat := 0x21F002
abbrev D_CTLE_NOW : Nat := 0x21F003
abbrev D_DFE_NOW : Nat := 0x21F004
abbrev D_DENS_MIN : Nat := 0x21F005
abbrev D_IDLE_MAX : Nat := 0x21F006
abbrev D_GOOD_RUN : Nat := 0x21F007
abbrev D_WANDER_TIME : Nat := 0x21F008
abbrev D_WANDER_STEP : Nat := 0x21F009
abbrev D_WANDER_POLICY : Nat := 0x21F00A
abbrev D_LOS_THRESH : Nat := 0x21F00B
abbrev D_LOL_PPM : Nat := 0x21F00C
abbrev D_LANE_STATUS : Nat := 0x21F00D
abbrev D_LANE_FLAGS : Nat := 0x21F00E
abbrev D_LOS_COUNT : Nat := 0x21F00F
abbrev D_LOL_COUNT : Nat := 0x21F010
abbrev D_WANDER_COUNT : Nat := 0x21F011
abbrev D_FREEZE_COUNT : Nat := 0x21F012
abbrev D_FREQ_OFFSET : Nat := 0x21F013
abbrev D_TRIM_TEMP : Nat := 0x21F014
abbrev D_LANE_TEST : Nat := 0x21F015
abbrev D_PRBS_SEL : Nat := 0x21F016
abbrev D_PRBS_INVERT : Nat := 0x21F017
abbrev D_PRBS_SYNC : Nat := 0x21F018
abbrev D_PRBS_BITS : Nat := 0x21F019
abbrev D_PRBS_ERRORS : Nat := 0x21F01A
abbrev D_PRBS_RESYNC : Nat := 0x21F01B
abbrev D_PRBS_CLEAR : Nat := 0x21F01C
abbrev D_SCAN_LANE : Nat := 0x21F801
abbrev D_SCAN_PHASE_MIN : Nat := 0x21F802
abbrev D_SCAN_PHASE_MAX : Nat := 0x21F803
abbrev D_SCAN_PHASE_STEP : Nat := 0x21F804
abbrev D_SCAN_VOLT_MIN : Nat := 0x21F805
abbrev D_SCAN_VOLT_MAX : Nat := 0x21F806
abbrev D_SCAN_VOLT_STEP : Nat := 0x21F807
abbrev D_SCAN_DWELL : Nat := 0x21F808
abbrev D_SCAN_CTRL : Nat := 0x21F809
abbrev D_SCAN_STATUS : Nat := 0x21F80A
abbrev D_SCAN_POINTS : Nat := 0x21F80B
abbrev D_SCAN_RESULT : Nat := 0x21F80C
abbrev D_PAT_WORD : Nat := 0x21F901
abbrev C_IC_ENABLE : Nat := 0x878001
abbrev C_IC_SRC_CFG : Nat := 0x878002
abbrev C_IC_PENDING : Nat := 0x878003
abbrev C_IC_ACTIVE : Nat := 0x878004
abbrev C_IC_VSTATUS : Nat := 0x878005
abbrev C_IC_MSG_COUNT : Nat := 0x878006
abbrev C_IC_FLAGS : Nat := 0x878007
abbrev C_IC_ERR : Nat := 0x878008
abbrev C_IC_SPURIOUS : Nat := 0x878009
abbrev C_IC_SWI_SET : Nat := 0x87800A
abbrev C_LRING_ADDR : Nat := 0x87C801
abbrev C_LRING_SIZE : Nat := 0x87C802
abbrev C_LRING_WR : Nat := 0x87C803
abbrev C_LRING_RD : Nat := 0x87C804
abbrev C_LRING_WB_ADDR : Nat := 0x87C805
abbrev C_LRING_IRQ_N : Nat := 0x87C806
abbrev C_DROPPED_TRACE : Nat := 0x87D001
abbrev C_DROPPED_EVENT : Nat := 0x87D002
abbrev C_ALARMS_FOLDED : Nat := 0x87D003
abbrev C_GAP_RECORDS : Nat := 0x87D004
abbrev C_STORM_RECORDS : Nat := 0x87D005
abbrev C_WRITTEN : Nat := 0x87D006
abbrev C_FILL : Nat := 0x87D007
abbrev CUES_INSERTED : Nat := 0x852001
abbrev CUES_MERGED : Nat := 0x852002
abbrev CUES_CONFIRMED : Nat := 0x852003
abbrev CUES_RECALLED : Nat := 0x852004
abbrev FIRED_CONFIRMED : Nat := 0x852005
abbrev FIRED_UNCONFIRMED : Nat := 0x852006
abbrev WITHHELD : Nat := 0x852007
abbrev MISSED : Nat := 0x852008
abbrev UNRESOLVED : Nat := 0x852009
abbrev LATE_INSERTS : Nat := 0x85200A
abbrev FULL_DROPS : Nat := 0x85200B
abbrev RECALL_PULSES : Nat := 0x85200C
abbrev RELAY_IN : Nat := 0x85200D

end K

/-- Index 1000h. -/
def rows1000 : List ObjInfo := [
  -- VENDOR_NAME (R95)
  ⟨1, .str, (.bytes 255 false false), .const, 0, 0, .all, [72, 101, 114, 112, 111, 110, 97, 110, 32, 77, 105, 99, 114, 111, 115, 121, 115, 116, 101, 109, 115]⟩,
  -- PRODUCT_NAME (R95)
  ⟨2, .str, (.bytes 255 false false), .const, 0, 0, .all, [68, 111, 114, 118, 105, 115, 32, 54, 50, 52, 48]⟩,
  -- ORDER_CODE (R95)
  ⟨3, .str, (.bytes 255 false false), .const, 0, 0, .all, [68, 86, 54, 50, 52, 48, 45, 70, 52, 50, 49, 50, 45, 73]⟩,
  -- PRODUCT_CODE (R95)
  ⟨4, .u16, .scalar, .const, 0, 0, .all, [25152]⟩,
  -- STEPPING (R95)
  ⟨5, .u8, .scalar, .const, 0, 0, .all, [33]⟩,
  -- DICT_LAYOUT (R95)
  ⟨6, .u16, .scalar, .const, 0, 0, .all, [256]⟩,
  -- UNIQUE_ID (R95)
  ⟨7, .u64, (.array 2), .const, 0, 0, .all, [Config.uniqueId 0, Config.uniqueId 1]⟩,
  -- DATE_CODE (R95)
  ⟨8, .u16, .scalar, .const, 0, 0, .all, [Config.dateCode]⟩,
  -- CHANNEL_COUNT (R95)
  ⟨9, .u8, .scalar, .const, 0, 0, .all, [6]⟩,
  -- DEVICE_LABEL (R95)
  ⟨10, .str, (.bytes 32 false false), .rw, 1, 0, .all, []⟩]

/-- Index 1100h. -/
def rows1100 : List ObjInfo := [
  -- KDP_ENABLE (R96)
  ⟨1, .bool, (.array 2), .rw, 1, 0, (.within 0 1), [1, 1]⟩,
  -- KDP_UDP_PORT (R96)
  ⟨2, .u16, .scalar, .const, 0, 0, .all, [47810]⟩,
  -- NET_IPV4_ADDR (R96)
  ⟨3, .u32, (.array 2), .rw, 1, 0, .all, [0, 0]⟩,
  -- NET_IPV4_MASK (R96)
  ⟨4, .u32, (.array 2), .rw, 1, 0, (.contigMask), [4294967040, 4294967040]⟩,
  -- NET_IPV4_GW (R96)
  ⟨5, .u32, (.array 2), .rw, 1, 0, .all, [0, 0]⟩,
  -- NET_MAC (R96)
  ⟨6, .u64, (.array 2), .const, 0, 0, .all, [Config.netMac 0, Config.netMac 1]⟩,
  -- KDP_SESSION_IDLE (R96)
  ⟨7, .u16, .scalar, .rw, 1, 0, (.within 0 3600), [60]⟩,
  -- KDP_RX_COUNT (R96)
  ⟨8, .u32, (.array 2), .ro, 0, 0, .all, [0, 0]⟩,
  -- KDP_CRC_DROPS (R96)
  ⟨9, .u32, (.array 2), .ro, 0, 0, .all, [0, 0]⟩,
  -- KDP_REPLAYS (R96)
  ⟨10, .u32, .scalar, .ro, 0, 0, .all, [0]⟩,
  -- KDP_SESSIONS (R96)
  ⟨11, .u8, .scalar, .ro, 0, 0, .all, [0]⟩,
  -- KDP_NOTIFY_DROPS (R96)
  ⟨12, .u32, .scalar, .ro, 0, 0, .all, [0]⟩,
  -- MB_COUNT (R96)
  ⟨13, .u32, .scalar, .ro, 0, 0, .all, [0]⟩,
  -- PERSIST_SAVE (R96)
  ⟨16, .u8, .scalar, .wo, 0, 0, (.oneOf [1]), []⟩,
  -- PERSIST_CLEAR (R96)
  ⟨17, .u8, .scalar, .wo, 0, 0, (.oneOf [1]), []⟩,
  -- PERSIST_STATUS (R96)
  ⟨18, .u8, .scalar, .ro, 0, 0, .all, [0]⟩,
  -- PERSIST_SEQ (R96)
  ⟨19, .u32, .scalar, .ro, 0, 0, .all, [0]⟩,
  -- PERSIST_COUNT (R96)
  ⟨20, .u16, .scalar, .ro, 0, 0, .all, [0]⟩,
  -- PERSIST_LOAD_RESULT (R96)
  ⟨21, .u8, .scalar, .ro, 0, 0, .all, [0]⟩]

/-- Index 1200h. -/
def rows1200 : List ObjInfo := [
  -- SLATE_GEN (R97)
  ⟨1, .u32, .scalar, .ro, 0, 0, .all, [0]⟩,
  -- SLATE_POS_LAST (R97)
  ⟨2, .pos, .scalar, .ro, 0, 0, .all, [0]⟩,
  -- SLATE_TIME_LAST (R97)
  ⟨3, .time, .scalar, .ro, 0, 0, .all, [0]⟩,
  -- SLATE_LATENESS_LAST (R97)
  ⟨4, .i64, .scalar, .ro, 0, 0, .all, [0]⟩,
  -- SLATE_NAME_POS (R97)
  ⟨5, .pos, .scalar, .wo, 0, 0, .all, []⟩,
  -- SLATE_NAME_TIME (R97)
  ⟨6, .time, .scalar, .wo, 0, 0, .all, []⟩,
  -- SLATE_PENDING (R97)
  ⟨7, .u8, .scalar, .ro, 0, 0, .all, [0]⟩,
  -- SLATE_PENDING_POS (R97)
  ⟨8, .pos, .scalar, .ro, 0, 0, .all, [0]⟩,
  -- SLATE_PENDING_TIME (R97)
  ⟨9, .time, .scalar, .ro, 0, 0, .all, [0]⟩,
  -- SLATE_CANCEL (R97)
  ⟨10, .u8, .scalar, .wo, 0, 0, (.oneOf [1]), []⟩,
  -- STAGE_DISCARD (R97)
  ⟨11, .u8, .scalar, .wo, 0, 0, (.oneOf [1]), []⟩,
  -- AUTO_PERIOD_POS (R97)
  ⟨12, .u64, .scalar, .rw, 1, 0, .all, [0]⟩,
  -- AUTO_PERIOD_TIME (R97)
  ⟨13, .u64, .scalar, .rw, 1, 0, (.zeroOr 1000000 140737488355327), [0]⟩,
  -- STAGED_COMMON (R97)
  ⟨14, .u16, .scalar, .ro, 0, 0, .all, [0]⟩,
  -- STAGED_CHANNEL (R97)
  ⟨15, .u16, (.array 6), .ro, 0, 0, .all, List.replicate 6 0⟩,
  -- SLATE_LATE_COUNT (R97)
  ⟨16, .u32, .scalar, .ro, 0, 0, .all, [0]⟩,
  -- SLATE_HELD_COUNT (R97)
  ⟨17, .u32, .scalar, .ro, 0, 0, .all, [0]⟩,
  -- SLATE_OPEN_SEGMENTS (R97)
  ⟨18, .u16, .scalar, .ro, 0, 0, .all, [0]⟩]

/-- Index 2000h. -/
def rows2000 : List ObjInfo := [
  -- ENC_MODE (R108)
  ⟨1, .u8, .scalar, .rs, 5, 0, (.within 0 5), [0]⟩,
  -- ENC_FILTER (R108)
  ⟨2, .u8, .scalar, .rs, 5, 0, (.within 0 63), [4]⟩,
  -- ENC_POLARITY (R108)
  ⟨3, .u8, .scalar, .rs, 5, 15, .all, [0]⟩,
  -- ENC_SCALE (R108)
  ⟨4, .u64, .scalar, .rs, 5, 0, (.within 4294967296 42949672960000000), [4294967296000]⟩,
  -- INDEX_NOMINAL (R108)
  ⟨5, .u32, .scalar, .rs, 5, 0, .all, [0]⟩,
  -- INDEX_TOL (R108)
  ⟨6, .u16, .scalar, .rs, 5, 0, .all, [2]⟩,
  -- INDEX_POLICY (R108)
  ⟨7, .u8, .scalar, .rs, 5, 0, (.within 0 2), [0]⟩,
  -- WIRE_CHECK (R108)
  ⟨8, .u8, .scalar, .rs, 5, 0, (.within 0 2), [1]⟩,
  -- ENC_COUNT (R108)
  ⟨9, .i64, .scalar, .ro, 0, 0, .all, [0]⟩,
  -- ENC_POS (R108)
  ⟨10, .pos, .scalar, .ro, 0, 0, .all, [0]⟩,
  -- ENC_SPEED (R108)
  ⟨11, .i32, .scalar, .ro, 0, 0, .all, [0]⟩,
  -- ENC_STATE (R108)
  ⟨12, .u8, .scalar, .ro, 0, 0, .all, [0]⟩,
  -- ENC_FLAGS (R108)
  ⟨13, .u8, .scalar, .w1c, 0, 31, .all, [0]⟩,
  -- ILLEGAL_COUNT (R108)
  ⟨14, .u32, .scalar, .ro, 0, 0, .all, [0]⟩,
  -- INDEX_ERROR (R108)
  ⟨15, .i32, .scalar, .ro, 0, 0, .all, [0]⟩,
  -- INDEX_ERR_COUNT (R108)
  ⟨16, .u32, .scalar, .ro, 0, 0, .all, [0]⟩,
  -- WIRE_STATUS (R108)
  ⟨17, .u8, .scalar, .ro, 0, 0, .all, [0]⟩]

/-- Index 2080h. -/
def rows2080 : List ObjInfo := [
  -- WP_PRIMARY (R119)
  ⟨1, .u8, .scalar, .rs, 5, 0, (.orVal 0 7 255), [0]⟩,
  -- WP_SECONDARY (R119)
  ⟨2, .u8, .scalar, .rs, 5, 0, (.orVal 0 7 255), [255]⟩,
  -- WP_POSITION (R119)
  ⟨3, .pos, .scalar, .ro, 0, 0, .all, [0]⟩,
  -- WP_TIME (R119)
  ⟨4, .time, .scalar, .ro, 0, 0, .all, [0]⟩,
  -- WP_SPEED_COARSE (R119)
  ⟨5, .i32, .scalar, .ro, 0, 0, .all, [0]⟩,
  -- WP_SPEED_FINE (R119)
  ⟨6, .i32, .scalar, .ro, 0, 0, .all, [0]⟩,
  -- WP_STATE (R119)
  ⟨7, .u8, .scalar, .ro, 0, 0, .all, [0]⟩,
  -- WP_DIRECTION (R119)
  ⟨8, .u8, .scalar, .ro, 0, 0, .all, [0]⟩,
  -- WP_ACTIVE (R119)
  ⟨9, .u8, .scalar, .ro, 0, 0, .all, [255]⟩,
  -- STANDSTILL_TIME (R119)
  ⟨10, .u32, .scalar, .rs, 5, 0, (.within 10000 1000000000), [10000000]⟩,
  -- FINE_WINDOW (R119)
  ⟨11, .u32, .scalar, .rs, 5, 0, (.within 10000 100000000), [1000000]⟩,
  -- EXTRAP_SOURCE (R119)
  ⟨12, .u8, .scalar, .rs, 5, 0, (.within 0 2), [0]⟩,
  -- ILLEGAL_FAULT_N (R119)
  ⟨13, .u8, .scalar, .rs, 5, 0, .all, [4]⟩,
  -- FAILOVER_SILENCE (R119)
  ⟨14, .u32, .scalar, .rs, 5, 0, (.zeroOr 10000 100000000), [1000000]⟩,
  -- DEVIATION_TOL (R119)
  ⟨15, .u64, .scalar, .rs, 5, 0, .all, [1000000]⟩,
  -- DEVIATION (R119)
  ⟨16, .i64, .scalar, .ro, 0, 0, .all, [0]⟩,
  -- DEVIATION_RESET (R119)
  ⟨17, .u8, .scalar, .wo, 0, 0, (.oneOf [1]), []⟩,
  -- FAILBACK (R119)
  ⟨18, .u8, .scalar, .wo, 0, 0, (.oneOf [1]), []⟩,
  -- FAILOVER_COUNT (R119)
  ⟨19, .u32, .scalar, .ro, 0, 0, .all, [0]⟩,
  -- FAILOVER_LAST (R119)
  ⟨20, .pos, .scalar, .ro, 0, 0, .all, [0]⟩,
  -- POS_STEP_LAST (R119)
  ⟨21, .i64, .scalar, .ro, 0, 0, .all, [0]⟩,
  -- WP_FLAGS (R119)
  ⟨22, .u16, .scalar, .w1c, 0, 255, .all, [2]⟩]

/-- Index 2090h. -/
def rows2090 : List ObjInfo := [
  -- OUT_SOURCE (R125)
  ⟨1, .u8, .scalar, .rs, 5, 0, (.orVal 0 8 255), [255]⟩,
  -- OUT_NUM (R125)
  ⟨2, .u32, .scalar, .rs, 5, 0, .all, [1]⟩,
  -- OUT_DEN (R125)
  ⟨3, .u32, .scalar, .rs, 5, 0, (.within 1 4294967295), [1]⟩,
  -- OUT_MODE (R125)
  ⟨4, .u8, .scalar, .rs, 5, 0, (.within 0 1), [0]⟩,
  -- OUT_MIN_STATE (R125)
  ⟨5, .u8, .scalar, .rs, 5, 0, (.within 1 255), [4]⟩,
  -- OUT_PENDING (R125)
  ⟨6, .i16, .scalar, .ro, 0, 0, .all, [0]⟩,
  -- OUT_COUNT (R125)
  ⟨7, .i64, .scalar, .ro, 0, 0, .all, [0]⟩,
  -- OUT_OVERFLOW (R125)
  ⟨8, .u32, .scalar, .ro, 0, 0, .all, [0]⟩]

/-- Index 2100h. -/
def rows2100 : List ObjInfo := [
  -- TB_TIME (R150)
  ⟨1, .time, .scalar, .ro, 0, 0, .all, [0]⟩,
  -- TB_STATE (R150)
  ⟨2, .u8, .scalar, .ro, 0, 0, .all, [0]⟩,
  -- TB_SOURCE (R150)
  ⟨3, .u8, .scalar, .rw, 1, 0, (.within 0 3), [0]⟩,
  -- TB_OFFSET (R150)
  ⟨4, .i64, .scalar, .ro, 0, 0, .all, [0]⟩,
  -- TB_FREQ_ADJ (R150)
  ⟨5, .i32, .scalar, .ro, 0, 0, .all, [0]⟩,
  -- TB_HOST_ADJ (R150)
  ⟨6, .i32, .scalar, .rw, 0, 0, (.within (-500000000) 500000000), [0]⟩,
  -- TB_SET (R150)
  ⟨7, .time, .scalar, .wo, 0, 0, .all, []⟩,
  -- TB_STEP_ADJ (R150)
  ⟨8, .i64, .scalar, .wo, 0, 0, .all, []⟩,
  -- TB_STEP_LAST (R150)
  ⟨9, .i64, .scalar, .ro, 0, 0, .all, [0]⟩,
  -- TB_STEP_COUNT (R150)
  ⟨10, .u32, .scalar, .ro, 0, 0, .all, [0]⟩,
  -- TB_FLAGS (R150)
  ⟨11, .u16, .scalar, .w1c, 0, 255, .all, [0]⟩,
  -- TB_LOCK_THRESH (R150)
  ⟨12, .u32, .scalar, .rw, 1, 0, (.within 1 1000000), [100]⟩,
  -- TB_STEP_LIMIT (R150)
  ⟨13, .u32, .scalar, .rw, 1, 0, (.within 1000 1000000000), [1000000]⟩,
  -- TB_STEP_POLICY (R150)
  ⟨14, .u8, .scalar, .rw, 1, 0, (.within 0 2), [0]⟩,
  -- TB_FREQ_LIMIT (R150)
  ⟨15, .u32, .scalar, .rw, 1, 0, (.within 1 500000), [100000]⟩,
  -- TB_SLEW_RATE (R150)
  ⟨16, .u32, .scalar, .rw, 1, 0, (.within 1 500000), [20000]⟩,
  -- TB_SOURCE_TIMEOUT (R150)
  ⟨17, .u32, .scalar, .rw, 1, 0, (.within 100 60000), [3000]⟩,
  -- TB_KP (R150)
  ⟨18, .q16, .scalar, .rw, 1, 0, (.within 0 1048576), [45875]⟩,
  -- TB_KI (R150)
  ⟨19, .q16, .scalar, .rw, 1, 0, (.within 0 1048576), [19661]⟩,
  -- TB_HOLDOVER_FREQ (R150)
  ⟨20, .i32, .scalar, .ro, 0, 0, .all, [0]⟩,
  -- TB_HOLDOVER_TIME (R150)
  ⟨21, .u32, .scalar, .ro, 0, 0, .all, [0]⟩]

/-- Index 2101h. -/
def rows2101 : List ObjInfo := [
  -- EXT_SECONDS (R150)
  ⟨1, .u64, .scalar, .rw, 0, 0, .all, [0]⟩,
  -- PPS_IN_LAT (R150)
  ⟨2, .i32, .scalar, .rw, 1, 0, .all, [0]⟩,
  -- REF10M_ENABLE (R150)
  ⟨3, .bool, .scalar, .rw, 1, 0, (.within 0 1), [0]⟩,
  -- PPS_OUT_MODE (R150)
  ⟨4, .u8, .scalar, .rw, 1, 0, (.within 0 1), [0]⟩,
  -- PPS_OUT_WIDTH (R150)
  ⟨5, .u32, .scalar, .rw, 1, 0, (.within 100 900000000), [100000000]⟩,
  -- PPS_OUT_OFFSET (R150)
  ⟨6, .i32, .scalar, .rw, 1, 0, (.within (-1000000) 1000000), [0]⟩,
  -- PPS_IN_LAST (R150)
  ⟨7, .time, .scalar, .ro, 0, 0, .all, [0]⟩,
  -- REF_STATUS (R150)
  ⟨8, .u8, .scalar, .ro, 0, 0, .all, [0]⟩]

/-- Index 2110h. -/
def rows2110 : List ObjInfo := [
  -- LINK_MODE (R151)
  ⟨1, .u8, .scalar, .rw, 1, 0, (.within 0 4), [2]⟩,
  -- LINK_STATUS (R151)
  ⟨2, .u8, .scalar, .ro, 0, 0, .all, [0]⟩,
  -- PTP_ENABLE (R151)
  ⟨3, .bool, .scalar, .rw, 1, 0, (.within 0 1), [0]⟩,
  -- PTP_TRANSPORT (R151)
  ⟨4, .u8, .scalar, .rw, 1, 0, (.within 0 1), [0]⟩,
  -- PTP_DELAY_MECH (R151)
  ⟨5, .u8, .scalar, .rw, 1, 0, (.within 0 1), [0]⟩,
  -- PTP_LOG_SYNC (R151)
  ⟨6, .i16, .scalar, .rw, 1, 0, (.within (-7) 4), [0]⟩,
  -- PTP_LOG_ANNOUNCE (R151)
  ⟨7, .i16, .scalar, .rw, 1, 0, (.within (-3) 4), [1]⟩,
  -- PTP_LOG_DELAYREQ (R151)
  ⟨8, .i16, .scalar, .rw, 1, 0, (.within (-7) 5), [0]⟩,
  -- PTP_ANN_TIMEOUT (R151)
  ⟨9, .u8, .scalar, .rw, 1, 0, (.within 2 10), [3]⟩,
  -- INGRESS_LAT (R151)
  ⟨10, .i32, .scalar, .rw, 1, 0, .all, [0]⟩,
  -- EGRESS_LAT (R151)
  ⟨11, .i32, .scalar, .rw, 1, 0, .all, [0]⟩,
  -- ASYMMETRY (R151)
  ⟨12, .i32, .scalar, .rw, 1, 0, .all, [0]⟩,
  -- INTERNAL_RX_LAT (R151)
  ⟨13, .u32, .scalar, .ro, 0, 0, .all, [58200]⟩,
  -- INTERNAL_TX_LAT (R151)
  ⟨14, .u32, .scalar, .ro, 0, 0, .all, [41600]⟩,
  -- UDP_CSUM_MODE (R151)
  ⟨15, .u8, .scalar, .rw, 1, 0, (.within 0 1), [0]⟩,
  -- PORT_STATE (R151)
  ⟨16, .u8, .scalar, .ro, 0, 0, .all, [3]⟩,
  -- MASTER_ID (R151)
  ⟨17, .u64, .scalar, .ro, 0, 0, .all, [0]⟩,
  -- MEAN_PATH_DELAY (R151)
  ⟨18, .i64, .scalar, .ro, 0, 0, .all, [0]⟩,
  -- RX_OVERRUN (R151)
  ⟨19, .u32, .scalar, .ro, 0, 0, .all, [0]⟩,
  -- PTP_RX_COUNT (R151)
  ⟨20, .u32, .scalar, .ro, 0, 0, .all, [0]⟩,
  -- PTP_DROPPED (R151)
  ⟨21, .u32, .scalar, .ro, 0, 0, .all, [0]⟩]

/-- Index 2130h. -/
def rows2130 : List ObjInfo := [
  -- PTP_DOMAIN (R151)
  ⟨1, .u8, .scalar, .rw, 1, 0, (.within 0 127), [0]⟩,
  -- PTP_PRIORITY1 (R151)
  ⟨2, .u8, .scalar, .rw, 1, 0, .all, [128]⟩,
  -- PTP_PRIORITY2 (R151)
  ⟨3, .u8, .scalar, .rw, 1, 0, .all, [128]⟩,
  -- PTP_CLOCK_TYPE (R151)
  ⟨4, .u8, .scalar, .rw, 1, 0, (.within 0 1), [0]⟩,
  -- PTP_SLAVE_ONLY (R151)
  ⟨5, .bool, .scalar, .rw, 1, 0, (.within 0 1), [1]⟩,
  -- PTP_CLOCK_ID (R151)
  ⟨6, .u64, .scalar, .const, 0, 0, .all, [Config.ptpClockId]⟩,
  -- PTP_CLOCK_CLASS (R151)
  ⟨7, .u8, .scalar, .ro, 0, 0, .all, [248]⟩,
  -- PTP_UTC_OFFSET (R151)
  ⟨8, .i16, .scalar, .rw, 1, 0, .all, [37]⟩,
  -- PTP_UTC_OFFSET_RX (R151)
  ⟨9, .i16, .scalar, .ro, 0, 0, .all, [0]⟩]

/-- Index 2140h. -/
def rows2140 : List ObjInfo := [
  -- TA_TIME (R152)
  ⟨1, .time, .scalar, .rw, 0, 0, .all, [0]⟩,
  -- TA_KIND (R152)
  ⟨2, .u8, .scalar, .rw, 0, 0, (.within 0 3), [0]⟩,
  -- TA_TARGET (R152)
  ⟨3, .u32, .scalar, .rw, 0, 0, .all, [0]⟩,
  -- TA_ARG (R152)
  ⟨4, .u32, .scalar, .rw, 0, 0, .all, [0]⟩,
  -- TA_PERIOD (R152)
  ⟨5, .u64, .scalar, .rw, 0, 0, (.zeroOr 2500 140737488355327), [0]⟩,
  -- TA_COUNT (R152)
  ⟨6, .u32, .scalar, .rw, 0, 0, .all, [1]⟩,
  -- TA_FLAGS (R152)
  ⟨7, .u8, .scalar, .rw, 0, 7, .all, [0]⟩,
  -- TA_CTRL (R152)
  ⟨8, .u8, .scalar, .wo, 0, 0, (.oneOf [1, 2]), []⟩,
  -- TA_STATUS (R152)
  ⟨9, .u8, .scalar, .ro, 0, 0, .all, [0]⟩,
  -- TA_ERROR (R152)
  ⟨10, .u8, .scalar, .ro, 0, 0, .all, [0]⟩,
  -- TA_LATENESS (R152)
  ⟨11, .i64, .scalar, .ro, 0, 0, .all, [0]⟩,
  -- TA_FIRED (R152)
  ⟨12, .u32, .scalar, .ro, 0, 0, .all, [0]⟩,
  -- TA_MISSED (R152)
  ⟨13, .u32, .scalar, .ro, 0, 0, .all, [0]⟩,
  -- TA_NEXT (R152)
  ⟨14, .time, .scalar, .ro, 0, 0, .all, [0]⟩]

/-- Index 2180h. -/
def rows2180 : List ObjInfo := [
  -- TA_NOTIFY_FLAGS (R152)
  ⟨1, .u64, .scalar, .w1c, 0, 0, .all, [0]⟩,
  -- TA_LATE_FLAGS (R152)
  ⟨2, .u64, .scalar, .w1c, 0, 0, .all, [0]⟩,
  -- TA_SKIP_FLAGS (R152)
  ⟨3, .u64, .scalar, .w1c, 0, 0, .all, [0]⟩,
  -- TA_ERROR_FLAGS (R152)
  ⟨4, .u64, .scalar, .w1c, 0, 0, .all, [0]⟩,
  -- TA_ARMED (R152)
  ⟨5, .u64, .scalar, .ro, 0, 0, .all, [0]⟩]

/-- Index 21F0h. -/
def rows21F0 : List ObjInfo := [
  -- TX_INVERT (R218)
  ⟨32, .bool, .scalar, .rw, 1, 0, (.within 0 1), [0]⟩,
  -- TX_FIR (R218)
  ⟨33, .u8, (.array 3), .rw, 1, 0, .all, [0, 56, 7]⟩,
  -- TX_SQUELCH (R218)
  ⟨34, .bool, .scalar, .rw, 0, 0, (.within 0 1), [0]⟩,
  -- D_RX_INVERT (R217)
  ⟨1, .bool, .scalar, .rw, 1, 0, (.within 0 1), [0]⟩,
  -- D_ADAPT_MODE (R217)
  ⟨2, .u8, .scalar, .rw, 1, 0, (.within 0 2), [1]⟩,
  -- D_CTLE_NOW (R217)
  ⟨3, .u8, .scalar, .ro, 0, 0, .all, [8]⟩,
  -- D_DFE_NOW (R217)
  ⟨4, .i8, (.array 5), .ro, 0, 0, .all, List.replicate 5 0⟩,
  -- D_DENS_MIN (R217)
  ⟨5, .u8, .scalar, .rw, 1, 0, .all, [24]⟩,
  -- D_IDLE_MAX (R217)
  ⟨6, .u8, .scalar, .rw, 1, 0, .all, [224]⟩,
  -- D_GOOD_RUN (R217)
  ⟨7, .u8, .scalar, .rw, 1, 0, (.within 1 255), [2]⟩,
  -- D_WANDER_TIME (R217)
  ⟨8, .u16, .scalar, .rw, 1, 0, .all, [100]⟩,
  -- D_WANDER_STEP (R217)
  ⟨9, .u8, .scalar, .rw, 1, 0, .all, [24]⟩,
  -- D_WANDER_POLICY (R217)
  ⟨10, .u8, .scalar, .rw, 1, 0, (.within 0 2), [1]⟩,
  -- D_LOS_THRESH (R217)
  ⟨11, .u8, .scalar, .rw, 1, 0, (.within 40 150), [80]⟩,
  -- D_LOL_PPM (R217)
  ⟨12, .u16, .scalar, .rw, 1, 0, (.within 1000 10000), [6500]⟩,
  -- D_LANE_STATUS (R217)
  ⟨13, .u8, .scalar, .ro, 0, 0, .all, [0]⟩,
  -- D_LANE_FLAGS (R217)
  ⟨14, .u8, .scalar, .w1c, 0, 7, .all, [0]⟩,
  -- D_LOS_COUNT (R217)
  ⟨15, .u32, .scalar, .ro, 0, 0, .all, [0]⟩,
  -- D_LOL_COUNT (R217)
  ⟨16, .u32, .scalar, .ro, 0, 0, .all, [0]⟩,
  -- D_WANDER_COUNT (R217)
  ⟨17, .u32, .scalar, .ro, 0, 0, .all, [0]⟩,
  -- D_FREEZE_COUNT (R217)
  ⟨18, .u32, .scalar, .ro, 0, 0, .all, [0]⟩,
  -- D_FREQ_OFFSET (R217)
  ⟨19, .i32, .scalar, .ro, 0, 0, .all, [0]⟩,
  -- D_TRIM_TEMP (R217)
  ⟨20, .i16, .scalar, .ro, 0, 0, .all, [0]⟩,
  -- D_LANE_TEST (R217)
  ⟨21, .u8, .scalar, .rw, 0, 0, (.within 0 4), [0]⟩,
  -- D_PRBS_SEL (R217)
  ⟨22, .u8, .scalar, .rw, 0, 0, (.within 0 4), [0]⟩,
  -- D_PRBS_INVERT (R217)
  ⟨23, .bool, .scalar, .rw, 0, 0, (.within 0 1), [0]⟩,
  -- D_PRBS_SYNC (R217)
  ⟨24, .bool, .scalar, .ro, 0, 0, (.within 0 1), [0]⟩,
  -- D_PRBS_BITS (R217)
  ⟨25, .u64, .scalar, .ro, 0, 0, .all, [0]⟩,
  -- D_PRBS_ERRORS (R217)
  ⟨26, .u64, .scalar, .ro, 0, 0, .all, [0]⟩,
  -- D_PRBS_RESYNC (R217)
  ⟨27, .u32, .scalar, .ro, 0, 0, .all, [0]⟩,
  -- D_PRBS_CLEAR (R217)
  ⟨28, .u8, .scalar, .wo, 0, 0, (.oneOf [1]), []⟩]

/-- Index 21F8h. -/
def rows21F8 : List ObjInfo := [
  -- D_SCAN_LANE (R217)
  ⟨1, .u8, .scalar, .rw, 0, 0, (.within 0 5), [0]⟩,
  -- D_SCAN_PHASE_MIN (R217)
  ⟨2, .i8, .scalar, .rw, 0, 0, (.within (-64) 64), [192]⟩,
  -- D_SCAN_PHASE_MAX (R217)
  ⟨3, .i8, .scalar, .rw, 0, 0, (.within (-64) 64), [64]⟩,
  -- D_SCAN_PHASE_STEP (R217)
  ⟨4, .u8, .scalar, .rw, 0, 0, (.within 0 128), [4]⟩,
  -- D_SCAN_VOLT_MIN (R217)
  ⟨5, .i8, .scalar, .rw, 0, 0, (.within (-63) 63), [193]⟩,
  -- D_SCAN_VOLT_MAX (R217)
  ⟨6, .i8, .scalar, .rw, 0, 0, (.within (-63) 63), [63]⟩,
  -- D_SCAN_VOLT_STEP (R217)
  ⟨7, .u8, .scalar, .rw, 0, 0, (.within 0 126), [3]⟩,
  -- D_SCAN_DWELL (R217)
  ⟨8, .u8, .scalar, .rw, 0, 0, (.within 16 40), [24]⟩,
  -- D_SCAN_CTRL (R217)
  ⟨9, .u8, .scalar, .wo, 0, 0, (.oneOf [1, 2]), []⟩,
  -- D_SCAN_STATUS (R217)
  ⟨10, .u8, .scalar, .ro, 0, 0, .all, [0]⟩,
  -- D_SCAN_POINTS (R217)
  ⟨11, .u16, .scalar, .ro, 0, 0, .all, [0]⟩,
  -- D_SCAN_RESULT (R217)
  ⟨12, .blob, (.bytes 131064 false false), .ro, 0, 0, .all, []⟩]

/-- Index 21F9h. -/
def rows21F9 : List ObjInfo := [
  -- D_PAT_WORD (R217)
  ⟨1, .u64, .scalar, .rw, 0, 0, .all, [0]⟩]

/-- Index 2200h. -/
def rows2200 : List ObjInfo := [
  -- BW_FLAGS (R561)
  ⟨1, .u16, .scalar, .w1c, 0, 127, .all, [0]⟩,
  -- BW_ROLE (R561)
  ⟨2, .u8, .scalar, .rw, 1, 0, (.within 0 2), [0]⟩,
  -- BW_PRIORITY (R561)
  ⟨3, .u8, .scalar, .rw, 1, 0, .all, [128]⟩,
  -- BW_STATE (R561)
  ⟨4, .u8, .scalar, .ro, 0, 0, .all, [0]⟩,
  -- BW_IS_ROOT (R561)
  ⟨5, .bool, .scalar, .ro, 0, 0, (.within 0 1), [0]⟩,
  -- BW_RING_POS (R561)
  ⟨6, .u8, .scalar, .ro, 0, 0, .all, [255]⟩,
  -- BW_MEMBERS (R561)
  ⟨7, .u8, .scalar, .ro, 0, 0, .all, [0]⟩,
  -- BW_ROOT_ID (R561)
  ⟨8, .u64, .scalar, .ro, 0, 0, .all, [0]⟩,
  -- BW_PORT_STATE (R561)
  ⟨9, .u8, (.array 2), .ro, 0, 0, .all, [0, 0]⟩,
  -- BW_LINK_DELAY (R561)
  ⟨10, .u32, (.array 2), .ro, 0, 0, .all, [0, 0]⟩,
  -- BW_PATH_DELAY (R561)
  ⟨11, .u32, .scalar, .ro, 0, 0, .all, [0]⟩,
  -- BW_EQ_DELAY (R561)
  ⟨12, .u32, .scalar, .const, 0, 0, .all, [480]⟩,
  -- BW_FORWARD (R561)
  ⟨13, .u32, .scalar, .const, 0, 0, .all, [44]⟩,
  -- BW_FALLBACK (R561)
  ⟨14, .bool, .scalar, .rw, 1, 0, (.within 0 1), [0]⟩,
  -- BW_ROOT_TIMEOUT (R561)
  ⟨15, .u32, .scalar, .rw, 1, 0, (.within 1000 1000000), [10000]⟩,
  -- BW_ELECT_WAIT (R561)
  ⟨16, .u32, .scalar, .rw, 1, 0, (.within 10000 10000000), [100000]⟩,
  -- BW_BREAKS (R561)
  ⟨17, .u32, .scalar, .ro, 0, 0, .all, [0]⟩,
  -- BW_CRC_DROPS (R561)
  ⟨18, .u32, (.array 2), .ro, 0, 0, .all, [0, 0]⟩,
  -- BW_JOINS (R561)
  ⟨19, .u32, .scalar, .ro, 0, 0, .all, [0]⟩,
  -- BW_RELAYS (R561)
  ⟨20, .u32, (.array 2), .ro, 0, 0, .all, [0, 0]⟩,
  -- BW_ECHOES (R561)
  ⟨21, .u32, .scalar, .ro, 0, 0, .all, [0]⟩]

/-- Index 2300h. -/
def rows2300 : List ObjInfo := [
  -- PWR_FLAGS (R539)
  ⟨1, .u16, .scalar, .w1c, 0, 63, .all, [0]⟩,
  -- PWR_DEEPEST (R539)
  ⟨2, .u8, (.array 6), .rw, 1, 0, (.within 0 3), List.replicate 6 2⟩,
  -- PWR_STILL_DEEPEST (R539)
  ⟨3, .u8, (.array 6), .rw, 1, 0, (.within 0 3), List.replicate 6 2⟩,
  -- PWR_MARGIN (R539)
  ⟨4, .u32, .scalar, .rw, 1, 0, (.within 0 10000000), [20000]⟩,
  -- PWR_ACCEL (R539)
  ⟨5, .u32, .scalar, .rw, 1, 0, (.within 0 1000000), [10000]⟩,
  -- PWR_STATE (R539)
  ⟨6, .u8, (.array 6), .ro, 0, 0, .all, List.replicate 6 0⟩,
  -- PWR_NEXT_EVENT (R539)
  ⟨7, .u64, (.array 6), .ro, 0, 0, .all, List.replicate 6 18446744073709551615⟩,
  -- PWR_NEXT_KIND (R539)
  ⟨8, .u8, (.array 6), .ro, 0, 0, .all, List.replicate 6 0⟩,
  -- PWR_WAKE (R539)
  ⟨9, .u8, (.array 6), .wo, 0, 0, (.within 1 1), []⟩,
  -- WAKE_COUNT (R539)
  ⟨10, .u32, (.array 6), .ro, 0, 0, .all, List.replicate 6 0⟩,
  -- ENTRY_ABORTS (R539)
  ⟨11, .u32, (.array 6), .ro, 0, 0, .all, List.replicate 6 0⟩,
  -- POWER_LOST (R539)
  ⟨12, .u32, (.array 6), .ro, 0, 0, .all, List.replicate 6 0⟩,
  -- TIME_IN_STATE (R539)
  ⟨13, .u64, (.array 24), .ro, 0, 0, .all, List.replicate 24 0⟩,
  -- CH_RESET (R539)
  ⟨14, .u8, (.array 6), .rw, 0, 0, (.within 0 1), List.replicate 6 0⟩,
  -- DEVICE_RESET (R539)
  ⟨15, .u8, .scalar, .wo, 0, 0, (.oneOf [90]), []⟩,
  -- RESET_CAUSE (R539)
  ⟨16, .u8, .scalar, .ro, 0, 0, .all, [0]⟩,
  -- STARTUP_STEP (R539)
  ⟨17, .u8, .scalar, .ro, 0, 0, .all, [5]⟩,
  -- STARTUP_TIME (R539)
  ⟨18, .u32, .scalar, .ro, 0, 0, .all, [Config.startupTime]⟩]

/-- Index 2308h. -/
def rows2308 : List ObjInfo := [
  -- THERM_WARN (R539)
  ⟨1, .i16, .scalar, .rw, 1, 0, (.within 0 2000), [1840]⟩,
  -- THERM_CRIT (R539)
  ⟨2, .i16, .scalar, .rw, 1, 0, (.within 0 2160), [2000]⟩,
  -- THERM_MAX (R539)
  ⟨3, .i16, .scalar, .ro, 0, 0, .all, [0]⟩,
  -- THERM_PEAK (R539)
  ⟨4, .i16, .scalar, .ro, 0, 0, .all, [0]⟩]

/-- Index 2400h. -/
def rows2400 : List ObjInfo := [
  -- HP_FLAGS (R461)
  ⟨1, .u16, .scalar, .w1c, 0, 127, .all, [0]⟩,
  -- HP_LINK_STATE (R461)
  ⟨2, .u8, .scalar, .ro, 0, 0, .all, [0]⟩,
  -- LINK_RATE (R461)
  ⟨3, .u8, .scalar, .ro, 0, 0, .all, [0]⟩,
  -- HP_LINK_WIDTH (R461)
  ⟨4, .u8, .scalar, .ro, 0, 0, .all, [0]⟩,
  -- LINK_FLIT (R461)
  ⟨5, .bool, .scalar, .ro, 0, 0, (.within 0 1), [0]⟩,
  -- LANE_REVERSED (R461)
  ⟨6, .bool, .scalar, .ro, 0, 0, (.within 0 1), [0]⟩,
  -- MAX_RATE (R461)
  ⟨7, .u8, .scalar, .rw, 1, 0, (.within 1 6), [6]⟩,
  -- MAX_WIDTH (R461)
  ⟨8, .u8, .scalar, .rw, 1, 0, (.oneOf [1, 2, 4, 8, 16]), [16]⟩,
  -- LINK_DOWNS (R461)
  ⟨9, .u32, .scalar, .ro, 0, 0, .all, [0]⟩,
  -- CORR_COUNT (R461)
  ⟨10, .u32, .scalar, .ro, 0, 0, .all, [0]⟩,
  -- NONFATAL_COUNT (R461)
  ⟨11, .u32, .scalar, .ro, 0, 0, .all, [0]⟩,
  -- FATAL_COUNT (R461)
  ⟨12, .u32, .scalar, .ro, 0, 0, .all, [0]⟩,
  -- CPL_TIMEOUTS (R461)
  ⟨13, .u32, (.array 7), .ro, 0, 0, .all, List.replicate 7 0⟩,
  -- FLR_COUNT (R461)
  ⟨14, .u32, (.array 7), .ro, 0, 0, .all, List.replicate 7 0⟩,
  -- FLR_SCOPE (R461)
  ⟨15, .u8, (.array 7), .rw, 1, 0, (.flrScope), List.replicate 7 0⟩,
  -- WRITERS_HELD (R461)
  ⟨16, .u8, .scalar, .ro, 0, 0, .all, [127]⟩,
  -- WRITER_RELEASE (R461)
  ⟨17, .u8, (.array 7), .wo, 0, 0, (.within 0 1), []⟩,
  -- SUBSYS_VID (R461)
  ⟨18, .u16, .scalar, .rw, 1, 0, .all, [Config.vendorId]⟩,
  -- SUBSYS_ID (R461)
  ⟨19, .u16, .scalar, .rw, 1, 0, .all, [25152]⟩,
  -- CHMEM_WIN_SIZE (R461)
  ⟨20, .u8, (.array 6), .rw, 1, 0, (.zeroOr 28 35), List.replicate 6 30⟩,
  -- CHMEM_WIN_BASE (R461)
  ⟨21, .u64, (.array 6), .rw, 0, 0, .all, List.replicate 6 0⟩,
  -- BAR4_ERRS (R461)
  ⟨22, .u32, (.array 6), .ro, 0, 0, .all, List.replicate 6 0⟩]

/-- Index 2440h. -/
def rows2440 : List ObjInfo := [
  -- IC_ENABLE (R480)
  ⟨1, .bool, .scalar, .rw, 0, 0, (.within 0 1), [0]⟩,
  -- IC_SRC_CFG (R480)
  ⟨2, .u32, (.array 193), .rw, 0, 0, .all, List.replicate 193 0⟩,
  -- IC_PENDING (R480)
  ⟨3, .u32, (.array 8), .ro, 0, 0, .all, List.replicate 8 0⟩,
  -- IC_ACTIVE (R480)
  ⟨4, .u32, (.array 8), .ro, 0, 0, .all, List.replicate 8 0⟩,
  -- IC_VSTATUS (R480)
  ⟨5, .u32, (.array 64), .ro, 0, 0, .all, List.replicate 64 0⟩,
  -- IC_MSG_COUNT (R480)
  ⟨6, .u32, (.array 64), .ro, 0, 0, .all, List.replicate 64 0⟩,
  -- IC_FLAGS (R480)
  ⟨7, .u8, .scalar, .w1c, 0, 1, .all, [0]⟩,
  -- IC_ERR (R480)
  ⟨8, .u32, .scalar, .ro, 0, 0, .all, [0]⟩,
  -- IC_SPURIOUS (R480)
  ⟨9, .u32, (.array 2), .ro, 0, 0, .all, [0, 0]⟩,
  -- IC_SWI_SET (R480)
  ⟨10, .u8, .scalar, .wo, 0, 0, .all, []⟩]

/-- Index 3000h. -/
def rows3000 : List ObjInfo := [
  -- LOG_FLAGS (R497)
  ⟨1, .u8, .scalar, .w1c, 0, 63, .all, [0]⟩,
  -- LOG_MIN_CLASS (R497)
  ⟨2, .u8, (.array 3), .rw, 1, 0, (.within 0 2), [1, 1, 0]⟩,
  -- TRACE_LOG2 (R497)
  ⟨3, .u8, .scalar, .rw, 1, 0, (.within 0 16), [0]⟩,
  -- TRACE_SEL (R497)
  ⟨4, .u32, (.array 6), .rw, 0, 0, .all, List.replicate 6 0⟩,
  -- LOG_MARK (R497)
  ⟨5, .u32, .scalar, .wo, 0, 0, .all, []⟩,
  -- LOG_SEQ (R497)
  ⟨6, .u32, .scalar, .ro, 0, 0, .all, [0]⟩,
  -- LOG_ACCEPTED (R497)
  ⟨7, .u64, (.array 3), .ro, 0, 0, .all, List.replicate 3 0⟩]

/-- Index 3008h. -/
def rows3008 : List ObjInfo := [
  -- LRING_ADDR (R497)
  ⟨1, .u64, .scalar, .rs, 1, 0, (.multiple 4096), [0]⟩,
  -- LRING_SIZE (R497)
  ⟨2, .u32, .scalar, .rs, 1, 0, (.multiple 4096), [0]⟩,
  -- LRING_WR (R497)
  ⟨3, .u32, .scalar, .ro, 0, 0, .all, [0]⟩,
  -- LRING_RD (R497)
  ⟨4, .u32, .scalar, .rw, 0, 0, (.multiple 64), [0]⟩,
  -- LRING_WB_ADDR (R497)
  ⟨5, .u64, .scalar, .rs, 1, 0, (.multiple 4), [0]⟩,
  -- LRING_IRQ_N (R497)
  ⟨6, .u16, .scalar, .rw, 1, 0, .all, [1]⟩,
  -- LRING_ORIGINS (R497)
  ⟨7, .u8, .scalar, .rs, 1, 127, .all, [1]⟩]

/-- Index 3010h. -/
def rows3010 : List ObjInfo := [
  -- UDP_ENABLE (R497)
  ⟨1, .bool, .scalar, .rw, 1, 0, (.within 0 1), [0]⟩,
  -- UDP_PORT_SEL (R497)
  ⟨2, .u8, .scalar, .rw, 1, 0, (.within 0 1), [0]⟩,
  -- UDP_DST_ADDR (R497)
  ⟨3, .u32, .scalar, .rw, 1, 0, .all, [0]⟩,
  -- UDP_DST_PORT (R497)
  ⟨4, .u16, .scalar, .rw, 1, 0, (.within 1 65535), [47811]⟩,
  -- UDP_FLUSH (R497)
  ⟨5, .u32, .scalar, .rw, 1, 0, (.within 10000 100000000), [1000000]⟩,
  -- UDP_DGRAMS (R497)
  ⟨6, .u32, .scalar, .ro, 0, 0, .all, [0]⟩]

/-- Index 3018h. -/
def rows3018 : List ObjInfo := [
  -- BUF_MODE (R497)
  ⟨1, .u8, .scalar, .rw, 1, 0, (.within 0 1), [0]⟩,
  -- LOG_BUF (R497)
  ⟨2, .blob, (.bytes 65536 true false), .ro, 0, 0, .all, []⟩,
  -- BUF_WR (R497)
  ⟨3, .u16, .scalar, .ro, 0, 0, .all, [0]⟩,
  -- BUF_RD (R497)
  ⟨4, .u16, .scalar, .rw, 0, 0, (.multiple 64), [0]⟩,
  -- BUF_HIGH_N (R497)
  ⟨5, .u16, .scalar, .rw, 1, 0, .all, [768]⟩,
  -- BUF_OVERWRITTEN (R497)
  ⟨6, .u32, .scalar, .ro, 0, 0, .all, [0]⟩]

/-- Index 3020h. -/
def rows3020 : List ObjInfo := [
  -- DROPPED_TRACE (R497)
  ⟨1, .u32, (.array 3), .ro, 0, 0, .all, List.replicate 3 0⟩,
  -- DROPPED_EVENT (R497)
  ⟨2, .u32, (.array 3), .ro, 0, 0, .all, List.replicate 3 0⟩,
  -- ALARMS_FOLDED (R497)
  ⟨3, .u32, (.array 3), .ro, 0, 0, .all, List.replicate 3 0⟩,
  -- GAP_RECORDS (R497)
  ⟨4, .u32, (.array 3), .ro, 0, 0, .all, List.replicate 3 0⟩,
  -- STORM_RECORDS (R497)
  ⟨5, .u32, (.array 3), .ro, 0, 0, .all, List.replicate 3 0⟩,
  -- WRITTEN (R497)
  ⟨6, .u64, (.array 3), .ro, 0, 0, .all, List.replicate 3 0⟩,
  -- FILL (R497)
  ⟨7, .u16, (.array 3), .ro, 0, 0, .all, List.replicate 3 0⟩,
  -- RESERVE_USE (R497)
  ⟨8, .u16, (.array 21), .ro, 0, 0, .all, List.replicate 21 0⟩]

/-- Index 3100h. -/
def rows3100 : List ObjInfo := [
  -- CAL_FLAGS (R519)
  ⟨1, .u16, .scalar, .w1c, 0, 127, .all, [0]⟩,
  -- STORE_STATE (R519)
  ⟨2, .u8, .scalar, .ro, 0, 0, .all, [0]⟩,
  -- STORE_JEDEC_ID (R519)
  ⟨3, .u32, .scalar, .ro, 0, 0, .all, [0]⟩,
  -- STORE_CAPACITY (R519)
  ⟨4, .u32, .scalar, .ro, 0, 0, .all, [0]⟩,
  -- SLOT_STATE (R519)
  ⟨5, .u8, (.array 16), .ro, 0, 0, .all, List.replicate 16 0⟩,
  -- SLOT_SEQ (R519)
  ⟨6, .u32, (.array 16), .ro, 0, 0, .all, List.replicate 16 0⟩,
  -- AREA_IN_FORCE (R519)
  ⟨7, .u8, (.array 8), .ro, 0, 0, .all, List.replicate 8 255⟩,
  -- STORE_LAST_AREA (R519)
  ⟨8, .u8, .scalar, .ro, 0, 0, .all, [255]⟩,
  -- STORE_RESULT (R519)
  ⟨9, .u8, .scalar, .ro, 0, 0, .all, [0]⟩,
  -- WEAR_SEQ (R519)
  ⟨10, .u32, .scalar, .const, 0, 0, .all, [160000]⟩]

/-- Index 3101h. -/
def rows3101 : List ObjInfo := [
  -- FUSE_STATUS (R519)
  ⟨1, .u8, .scalar, .ro, 0, 0, .all, [0]⟩,
  -- FUSE_BANDGAP (R519)
  ⟨2, .u8, .scalar, .const, 0, 0, .all, [Config.fuseBandgap]⟩,
  -- FUSE_TSENSE (R519)
  ⟨3, .i8, (.array 16), .const, 0, 0, .all, (List.range 16).map Config.fuseTsense⟩,
  -- FUSE_OSC (R519)
  ⟨4, .u8, .scalar, .const, 0, 0, .all, [Config.fuseOsc]⟩,
  -- FUSE_LANE_IMP (R519)
  ⟨5, .u8, (.array 54), .const, 0, 0, .all, (List.range 54).map Config.fuseLaneImp⟩]

/-- Index 3108h. -/
def rows3108 : List ObjInfo := [
  -- TRIM_SET (R519)
  ⟨1, .u8, .scalar, .rw, 0, 0, (.within 0 7), [0]⟩,
  -- TRIM_CAPTURE (R519)
  ⟨2, .u8, .scalar, .wo, 0, 0, (.oneOf [1]), []⟩,
  -- TRIM_STATUS (R519)
  ⟨3, .u8, .scalar, .ro, 0, 0, .all, [0]⟩,
  -- TRIM_VALID (R519)
  ⟨4, .u8, .scalar, .ro, 0, 0, .all, [0]⟩,
  -- TRIM_SAVE (R519)
  ⟨5, .u8, .scalar, .wo, 0, 0, (.oneOf [1]), []⟩,
  -- TRIM_SET_TEMP (R519)
  ⟨6, .i16, (.array 8), .const, 0, 0, .all, [64896, 65376, 320, 800, 1200, 1520, 1760, 2000]⟩,
  -- TRIM_CAPTURED (R519)
  ⟨7, .u64, .scalar, .ro, 0, 0, .all, [0]⟩,
  -- TRIM_IMAGE (R519)
  ⟨8, .blob, (.bytes 3584 true false), .ro, 0, 0, .all, []⟩]

/-- Index 3110h. -/
def rows3110 : List ObjInfo := [
  -- CAL_CHANNEL (R519)
  ⟨1, .u8, .scalar, .rw, 0, 0, (.within 0 5), [0]⟩,
  -- CAL_HEAD (R519)
  ⟨2, .u8, .scalar, .rw, 0, 0, (.within 0 3), [0]⟩,
  -- CAL_KIND (R519)
  ⟨3, .u8, .scalar, .rw, 0, 0, (.within 1 2), [1]⟩,
  -- CAL_ANCHOR (R519)
  ⟨4, .u8, .scalar, .rw, 0, 0, (.within 0 2), [0]⟩,
  -- CAL_LINES_LOG2 (R519)
  ⟨5, .u8, .scalar, .rw, 0, 0, (.within 8 16), [12]⟩,
  -- CAL_MOTION (R519)
  ⟨6, .u8, .scalar, .rw, 0, 0, (.within 0 1), [0]⟩,
  -- CAL_REFLECTANCE (R519)
  ⟨7, .u32, .scalar, .rw, 0, 0, (.within 0 65536), [0]⟩,
  -- CAL_WHITE_LEVEL (R519)
  ⟨8, .u16, .scalar, .rw, 0, 0, (.within 1 65535), [60000]⟩,
  -- CAL_CERT_ID (R519)
  ⟨9, .str, (.bytes 32 false false), .rw, 0, 0, .all, []⟩,
  -- CAL_APPLY (R519)
  ⟨10, .bool, .scalar, .rw, 0, 0, (.within 0 1), [1]⟩,
  -- CAL_DEFECTS (R519)
  ⟨11, .bool, .scalar, .rw, 0, 0, (.within 0 1), [1]⟩,
  -- CAL_GAIN_LIMITS (R519)
  ⟨12, .u32, (.array 2), .rw, 0, 0, (.within 0 1048575), [32768, 262144]⟩,
  -- CAL_DARK_DEFECT (R519)
  ⟨13, .u16, .scalar, .rw, 0, 0, .all, [1024]⟩,
  -- CAL_DEFECT_MAX (R519)
  ⟨14, .u32, .scalar, .rw, 0, 0, .all, [1024]⟩,
  -- CAL_DARK_MAX (R519)
  ⟨15, .u16, .scalar, .rw, 0, 0, .all, [2048]⟩,
  -- CAL_WHITE_MIN (R519)
  ⟨16, .u16, .scalar, .rw, 0, 0, .all, [8192]⟩,
  -- CAL_SAT_MAX (R519)
  ⟨17, .u16, .scalar, .rw, 0, 0, .all, [66]⟩,
  -- CAL_UNIF_TOL (R519)
  ⟨18, .u16, .scalar, .rw, 0, 0, .all, [655]⟩,
  -- CAL_DARK_DRIFT (R519)
  ⟨19, .u16, .scalar, .rw, 0, 0, .all, [4]⟩,
  -- CAL_TEMP_TOL (R519)
  ⟨20, .u16, .scalar, .rw, 0, 0, .all, [32]⟩,
  -- CAL_TIMEOUT (R519)
  ⟨21, .u32, .scalar, .rw, 0, 0, (.within 100 600000), [10000]⟩,
  -- CAL_LIGHT_FORCE (R519)
  ⟨22, .bool, .scalar, .rw, 0, 0, (.within 0 1), [1]⟩,
  -- CAL_CTRL (R519)
  ⟨23, .u8, .scalar, .wo, 0, 0, (.oneOf [1, 2]), []⟩,
  -- CAL_STATE (R519)
  ⟨24, .u8, .scalar, .ro, 0, 0, .all, [0]⟩,
  -- CAL_REASON (R519)
  ⟨25, .u8, .scalar, .ro, 0, 0, .all, [0]⟩,
  -- CAL_DETAIL (R519)
  ⟨26, .u32, .scalar, .ro, 0, 0, .all, [0]⟩,
  -- CAL_LINES_DONE (R519)
  ⟨27, .u32, .scalar, .ro, 0, 0, .all, [0]⟩,
  -- CAL_MARKED (R519)
  ⟨28, .u32, .scalar, .ro, 0, 0, .all, [0]⟩,
  -- CAL_SKIPPED (R519)
  ⟨29, .u32, .scalar, .ro, 0, 0, .all, [0]⟩,
  -- CAL_APPLIED (R519)
  ⟨30, .bool, .scalar, .ro, 0, 0, (.within 0 1), [0]⟩,
  -- CAL_PREPARED (R519)
  ⟨31, .u8, .scalar, .ro, 0, 0, .all, [0]⟩,
  -- CAL_TRACE_INFORCE (R519)
  ⟨32, .blob, (.bytes 1536 true false), .ro, 0, 0, .all, []⟩,
  -- CAL_TRACE_WORKING (R519)
  ⟨33, .blob, (.bytes 1536 true false), .ro, 0, 0, .all, []⟩]

/-- Index 3118h. -/
def rows3118 : List ObjInfo := [
  -- PIX_SAVE (R519)
  ⟨1, .u8, .scalar, .wo, 0, 0, (.within 0 5), []⟩,
  -- PIX_LOAD (R519)
  ⟨2, .u8, .scalar, .wo, 0, 0, (.within 0 5), []⟩,
  -- PIX_AUTOLOAD (R519)
  ⟨3, .u8, .scalar, .rw, 1, 63, .all, [63]⟩,
  -- PIX_LOAD_APPLY (R519)
  ⟨4, .bool, .scalar, .rw, 0, 0, (.within 0 1), [1]⟩,
  -- PIX_LOAD_RESULT (R519)
  ⟨5, .u8, (.array 6), .ro, 0, 0, .all, List.replicate 6 0⟩]

/-- Index 3200h. -/
def rows3200 : List ObjInfo := [
  -- MON_SUPPLY_MV (R588)
  ⟨1, .u16, (.array 13), .ro, 0, 0, .all, List.replicate 13 0⟩,
  -- MON_SUPPLY_LOW (R588)
  ⟨2, .u16, (.array 13), .ro, 0, 0, .all, supplyLow⟩,
  -- MON_SUPPLY_HIGH (R588)
  ⟨3, .u16, (.array 13), .ro, 0, 0, .all, supplyHigh⟩,
  -- MON_AUX_LEVEL (R588)
  ⟨4, .u8, .scalar, .rw, 1, 0, (.within 0 1), [1]⟩,
  -- MON_OUT (R588)
  ⟨5, .u16, .scalar, .ro, 0, 0, .all, [0]⟩,
  -- MON_SUPPLY_MIN (R588)
  ⟨6, .u16, (.array 13), .ro, 0, 0, .all, List.replicate 13 65535⟩,
  -- MON_SUPPLY_MAX (R588)
  ⟨7, .u16, (.array 13), .ro, 0, 0, .all, List.replicate 13 0⟩,
  -- MON_CLEAR (R588)
  ⟨8, .u8, .scalar, .wo, 0, 0, (.oneOf [1]), []⟩,
  -- MON_TEMP (R588)
  ⟨9, .i16, (.array 16), .ro, 0, 0, .all, List.replicate 16 0⟩,
  -- MON_CORE_CURRENT (R588)
  ⟨10, .u32, .scalar, .ro, 0, 0, .all, [0]⟩]

/-- Index 8000h. -/
def rows8000 : List ObjInfo := [
  -- HEAD_RATE_MAX (R55)
  ⟨1, .u32, (.array 4), .rs, 4, 0, (.within 0 400000), [0, 0, 0, 0]⟩,
  -- AUX_RATE_MAX (R55)
  ⟨2, .u32, .scalar, .rs, 4, 0, (.within 0 200000000), [0]⟩,
  -- BUDGET_INFORCE (R55)
  ⟨3, .u32, .scalar, .ro, 0, 0, .all, [0]⟩,
  -- BUDGET_STAGED (R55)
  ⟨4, .u32, .scalar, .ro, 0, 0, .all, [0]⟩,
  -- BUDGET_LIMIT (R55)
  ⟨5, .u32, .scalar, .const, 0, 0, .all, [1187500000]⟩,
  -- BUDGET_USED (R55)
  ⟨6, .u16, .scalar, .ro, 0, 0, .all, [0]⟩,
  -- BUDGET_REJECTS (R55)
  ⟨7, .u32, .scalar, .ro, 0, 0, .all, [0]⟩,
  -- CD_MIN_SHARE (R55)
  ⟨8, .u8, .scalar, .rw, 0, 0, (.within 0 4), [1]⟩,
  -- SLATE_FOLDS (R55)
  ⟨9, .u32, .scalar, .ro, 0, 0, .all, [0]⟩]

/-- Index 8100h. -/
def rows8100 : List ObjInfo := [
  -- INPUT_FLAGS (R194)
  ⟨1, .u16, .scalar, .w1c, 0, 8191, .all, [0]⟩]

/-- Index 8108h. -/
def rows8108 : List ObjInfo := [
  -- HEAD_INPUT (R194)
  ⟨1, .u8, .scalar, .rs, 5, 0, (.within 0 2), [0]⟩,
  -- HEAD_LINK (R194)
  ⟨2, .u8, .scalar, .rs, 5, 0, (.within 0 7), [0]⟩,
  -- SOURCE_ID (R194)
  ⟨3, .u8, .scalar, .rs, 5, 0, .all, [0]⟩,
  -- PIX_FORMAT (R194)
  ⟨4, .u8, .scalar, .rs, 5, 0, (.oneOf [1, 2, 3, 4, 5, 17, 18, 19]), [1]⟩,
  -- LINE_LENGTH (R194)
  ⟨5, .u16, .scalar, .rs, 5, 0, (.within 16 32768), [4096]⟩,
  -- TAP_COUNT (R194)
  ⟨6, .u8, .scalar, .rs, 5, 0, (.within 1 8), [1]⟩,
  -- TAP_START (R194)
  ⟨7, .u16, (.array 8), .rs, 5, 0, .all, List.replicate 8 0⟩,
  -- TAP_LEN (R194)
  ⟨8, .u16, (.array 8), .rs, 5, 0, .all, [4096] ++ List.replicate 7 0⟩,
  -- TAP_DIR (R194)
  ⟨9, .u8, (.array 8), .rs, 5, 0, (.within 0 1), List.replicate 8 0⟩,
  -- LINE_PITCH (R194)
  ⟨10, .u64, .scalar, .rs, 5, 0, (.within 500 100000000), [50000]⟩,
  -- LINE_PHASE (R194)
  ⟨11, .u64, .scalar, .rs, 5, 0, .all, [0]⟩,
  -- LINE_TIMEOUT (R194)
  ⟨12, .u32, .scalar, .rs, 5, 0, (.within 10000 100000000), [1000000]⟩,
  -- LINK_TRIGGER (R194)
  ⟨13, .bool, .scalar, .rs, 5, 0, (.within 0 1), [1]⟩,
  -- LEN_ALARM_N (R194)
  ⟨14, .u16, .scalar, .rs, 5, 0, .all, [16]⟩,
  -- LOST_ALARM_N (R194)
  ⟨15, .u16, .scalar, .rs, 5, 0, .all, [16]⟩,
  -- CXP_EXPO_ADDR (R194)
  ⟨16, .u32, .scalar, .rs, 5, 0, .all, [0]⟩,
  -- SENSOR_TEMP_SET (R194)
  ⟨17, .i16, .scalar, .rw, 0, 0, .all, [0]⟩,
  -- CRC_POLICY (R194)
  ⟨18, .u8, .scalar, .rs, 5, 0, (.within 0 1), [0]⟩]

/-- Index 8110h. -/
def rows8110 : List ObjInfo := [
  -- LANE_ROLE (R194)
  ⟨1, .u8, (.array 8), .rw, 1, 0, (.within 0 3), List.replicate 8 0⟩,
  -- LK_LINK_WIDTH (R194)
  ⟨2, .u8, (.array 8), .rw, 1, 0, .all, List.replicate 8 0⟩,
  -- CXP_SPEED (R194)
  ⟨3, .u8, (.array 8), .rw, 1, 0, (.oneOf [1, 2, 3, 5, 6, 10, 12]), List.replicate 8 12⟩,
  -- LK_LINK_STATE (R194)
  ⟨4, .u8, (.array 8), .ro, 0, 0, .all, List.replicate 8 0⟩,
  -- DECODE_ERR (R194)
  ⟨5, .u32, (.array 8), .ro, 0, 0, .all, List.replicate 8 0⟩,
  -- ALIGN_LOSS (R194)
  ⟨6, .u32, (.array 8), .ro, 0, 0, .all, List.replicate 8 0⟩,
  -- LANE_OVERRUN (R194)
  ⟨7, .u32, (.array 8), .ro, 0, 0, .all, List.replicate 8 0⟩,
  -- LANE_SKEW (R194)
  ⟨8, .u16, (.array 8), .ro, 0, 0, .all, List.replicate 8 0⟩]

/-- Index 8112h. -/
def rows8112 : List ObjInfo := [
  -- CXP_CTRL_LINK (R194)
  ⟨1, .u8, .scalar, .rw, 0, 0, (.within 0 7), [0]⟩,
  -- CXP_CTRL_TX (R194)
  ⟨2, .blob, (.bytes 1024 false false), .wo, 0, 0, .all, []⟩,
  -- CXP_CTRL_RX (R194)
  ⟨3, .blob, (.bytes 1032 false false), .ro, 0, 0, .all, []⟩,
  -- CXP_CTRL_POP (R194)
  ⟨4, .u8, .scalar, .wo, 0, 0, (.oneOf [1]), []⟩,
  -- CXP_CTRL_RX_COUNT (R194)
  ⟨5, .u8, .scalar, .ro, 0, 0, .all, [0]⟩,
  -- CXP_CTRL_RX_DROPS (R194)
  ⟨6, .u32, .scalar, .ro, 0, 0, .all, [0]⟩]

/-- Index 8113h. -/
def rows8113 : List ObjInfo := [
  -- BL_REG_LINK (R194)
  ⟨1, .u8, .scalar, .rw, 0, 0, (.within 0 7), [0]⟩,
  -- BL_REG_ADDR (R194)
  ⟨2, .u32, .scalar, .rw, 0, 0, .all, [0]⟩,
  -- BL_REG_DATA (R194)
  ⟨3, .u32, .scalar, .rw, 0, 0, .all, [0]⟩,
  -- BL_REG_CMD (R194)
  ⟨4, .u8, .scalar, .wo, 0, 0, (.oneOf [1, 2]), []⟩,
  -- BL_REG_STATUS (R194)
  ⟨5, .u8, .scalar, .ro, 0, 0, .all, [0]⟩]

/-- Index 8118h. -/
def rows8118 : List ObjInfo := [
  -- AUX_ENABLE (R194)
  ⟨1, .bool, .scalar, .rs, 5, 0, (.within 0 1), [0]⟩,
  -- AUX_BITS (R194)
  ⟨2, .u8, .scalar, .rs, 5, 0, (.within 8 16), [16]⟩,
  -- AUX_LENGTH (R194)
  ⟨3, .u16, .scalar, .rs, 5, 0, (.within 1 32768), [1024]⟩,
  -- AUX_SYNC (R194)
  ⟨4, .u8, .scalar, .rs, 5, 63, .all, [0]⟩,
  -- AUX_CLASS (R194)
  ⟨5, .u8, .scalar, .rs, 5, 0, .all, [0]⟩,
  -- AUX_RING_ADDR (R194)
  ⟨6, .u64, .scalar, .rs, 5, 0, (.multiple 4096), [0]⟩,
  -- AUX_RING_SIZE (R194)
  ⟨7, .u32, .scalar, .rs, 5, 0, (.multiple 4096), [0]⟩,
  -- AUX_RING_WR (R194)
  ⟨8, .u32, .scalar, .ro, 0, 0, .all, [0]⟩,
  -- AUX_RING_RD (R194)
  ⟨9, .u32, .scalar, .rw, 0, 0, (.multiple 32), [0]⟩,
  -- AUX_LINES (R194)
  ⟨10, .u64, .scalar, .ro, 0, 0, .all, [0]⟩,
  -- AUX_DROPS (R194)
  ⟨11, .u32, .scalar, .ro, 0, 0, .all, [0]⟩,
  -- AUX_LEN_ERR (R194)
  ⟨12, .u32, .scalar, .ro, 0, 0, .all, [0]⟩]

/-- Index 8120h. -/
def rows8120 : List ObjInfo := [
  -- LINES_OK (R194)
  ⟨1, .u64, .scalar, .ro, 2, 0, .all, [0]⟩,
  -- LINES_SHORT (R194)
  ⟨2, .u32, .scalar, .ro, 2, 0, .all, [0]⟩,
  -- LINES_LONG (R194)
  ⟨3, .u32, .scalar, .ro, 2, 0, .all, [0]⟩,
  -- LINES_CRC (R194)
  ⟨4, .u32, .scalar, .ro, 2, 0, .all, [0]⟩,
  -- LINES_LOST (R194)
  ⟨5, .u32, (.array 8), .ro, 2, 0, .all, List.replicate 8 0⟩,
  -- LAST_TRIG_POS (R194)
  ⟨6, .pos, .scalar, .ro, 0, 0, .all, [0]⟩,
  -- SENSOR_TEMP (R194)
  ⟨7, .i16, .scalar, .ro, 0, 0, .all, [0]⟩,
  -- TEMP_AGE (R194)
  ⟨8, .u32, .scalar, .ro, 0, 0, .all, [4294967295]⟩,
  -- TRIG_OUTSTANDING (R194)
  ⟨9, .u8, .scalar, .ro, 0, 0, .all, [0]⟩,
  -- UNSOLICITED (R194)
  ⟨10, .u32, .scalar, .ro, 0, 0, .all, [0]⟩,
  -- EXPO_FAIL (R194)
  ⟨11, .u32, .scalar, .ro, 0, 0, .all, [0]⟩]

/-- Index 8128h. -/
def rows8128 : List ObjInfo := [
  -- TRG_HEAD (R194)
  ⟨1, .u8, .scalar, .rs, 5, 0, (.orVal 0 3 255), [255]⟩,
  -- TRG_POLARITY (R194)
  ⟨2, .u8, .scalar, .rs, 5, 0, (.within 0 1), [0]⟩,
  -- TRG_WIDTH (R194)
  ⟨3, .u32, .scalar, .rs, 5, 0, (.within 10 1000000), [1000]⟩,
  -- TRG_COUNT (R194)
  ⟨4, .u32, .scalar, .ro, 0, 0, .all, [0]⟩,
  -- TRG_OVERLAP (R194)
  ⟨5, .u32, .scalar, .ro, 0, 0, .all, [0]⟩]

/-- Index 8180h. -/
def rows8180 : List ObjInfo := [
  -- RX_INVERT (R217)
  ⟨1, .bool, .scalar, .rw, 1, 0, (.within 0 1), [0]⟩,
  -- ADAPT_MODE (R217)
  ⟨2, .u8, .scalar, .rw, 1, 0, (.within 0 2), [1]⟩,
  -- CTLE_NOW (R217)
  ⟨3, .u8, .scalar, .ro, 0, 0, .all, [8]⟩,
  -- DFE_NOW (R217)
  ⟨4, .i8, (.array 5), .ro, 0, 0, .all, List.replicate 5 0⟩,
  -- DENS_MIN (R217)
  ⟨5, .u8, .scalar, .rw, 1, 0, .all, [24]⟩,
  -- IDLE_MAX (R217)
  ⟨6, .u8, .scalar, .rw, 1, 0, .all, [224]⟩,
  -- GOOD_RUN (R217)
  ⟨7, .u8, .scalar, .rw, 1, 0, (.within 1 255), [2]⟩,
  -- WANDER_TIME (R217)
  ⟨8, .u16, .scalar, .rw, 1, 0, .all, [100]⟩,
  -- WANDER_STEP (R217)
  ⟨9, .u8, .scalar, .rw, 1, 0, .all, [24]⟩,
  -- WANDER_POLICY (R217)
  ⟨10, .u8, .scalar, .rw, 1, 0, (.within 0 2), [1]⟩,
  -- LOS_THRESH (R217)
  ⟨11, .u8, .scalar, .rw, 1, 0, (.within 40 150), [80]⟩,
  -- LOL_PPM (R217)
  ⟨12, .u16, .scalar, .rw, 1, 0, (.within 1000 10000), [6500]⟩,
  -- LANE_STATUS (R217)
  ⟨13, .u8, .scalar, .ro, 0, 0, .all, [0]⟩,
  -- LANE_FLAGS (R217)
  ⟨14, .u8, .scalar, .w1c, 0, 7, .all, [0]⟩,
  -- LOS_COUNT (R217)
  ⟨15, .u32, .scalar, .ro, 0, 0, .all, [0]⟩,
  -- LOL_COUNT (R217)
  ⟨16, .u32, .scalar, .ro, 0, 0, .all, [0]⟩,
  -- WANDER_COUNT (R217)
  ⟨17, .u32, .scalar, .ro, 0, 0, .all, [0]⟩,
  -- FREEZE_COUNT (R217)
  ⟨18, .u32, .scalar, .ro, 0, 0, .all, [0]⟩,
  -- FREQ_OFFSET (R217)
  ⟨19, .i32, .scalar, .ro, 0, 0, .all, [0]⟩,
  -- TRIM_TEMP (R217)
  ⟨20, .i16, .scalar, .ro, 0, 0, .all, [0]⟩,
  -- LANE_TEST (R217)
  ⟨21, .u8, .scalar, .rw, 0, 0, (.within 0 2), [0]⟩,
  -- PRBS_SEL (R217)
  ⟨22, .u8, .scalar, .rw, 0, 0, (.within 0 4), [0]⟩,
  -- PRBS_INVERT (R217)
  ⟨23, .bool, .scalar, .rw, 0, 0, (.within 0 1), [0]⟩,
  -- PRBS_SYNC (R217)
  ⟨24, .bool, .scalar, .ro, 0, 0, (.within 0 1), [0]⟩,
  -- PRBS_BITS (R217)
  ⟨25, .u64, .scalar, .ro, 0, 0, .all, [0]⟩,
  -- PRBS_ERRORS (R217)
  ⟨26, .u64, .scalar, .ro, 0, 0, .all, [0]⟩,
  -- PRBS_RESYNC (R217)
  ⟨27, .u32, .scalar, .ro, 0, 0, .all, [0]⟩,
  -- PRBS_CLEAR (R217)
  ⟨28, .u8, .scalar, .wo, 0, 0, (.oneOf [1]), []⟩]

/-- Index 8188h. -/
def rows8188 : List ObjInfo := [
  -- PAT_WORD (R217)
  ⟨1, .u64, .scalar, .rw, 0, 0, .all, [0]⟩]

/-- Index 8189h. -/
def rows8189 : List ObjInfo := [
  -- SCAN_LANE (R217)
  ⟨1, .u8, .scalar, .rw, 0, 0, (.within 0 7), [0]⟩,
  -- SCAN_PHASE_MIN (R217)
  ⟨2, .i8, .scalar, .rw, 0, 0, (.within (-64) 64), [192]⟩,
  -- SCAN_PHASE_MAX (R217)
  ⟨3, .i8, .scalar, .rw, 0, 0, (.within (-64) 64), [64]⟩,
  -- SCAN_PHASE_STEP (R217)
  ⟨4, .u8, .scalar, .rw, 0, 0, (.within 0 128), [4]⟩,
  -- SCAN_VOLT_MIN (R217)
  ⟨5, .i8, .scalar, .rw, 0, 0, (.within (-63) 63), [193]⟩,
  -- SCAN_VOLT_MAX (R217)
  ⟨6, .i8, .scalar, .rw, 0, 0, (.within (-63) 63), [63]⟩,
  -- SCAN_VOLT_STEP (R217)
  ⟨7, .u8, .scalar, .rw, 0, 0, (.within 0 126), [3]⟩,
  -- SCAN_DWELL (R217)
  ⟨8, .u8, .scalar, .rw, 0, 0, (.within 16 40), [24]⟩,
  -- SCAN_CTRL (R217)
  ⟨9, .u8, .scalar, .wo, 0, 0, (.oneOf [1, 2]), []⟩,
  -- SCAN_STATUS (R217)
  ⟨10, .u8, .scalar, .ro, 0, 0, .all, [0]⟩,
  -- SCAN_POINTS (R217)
  ⟨11, .u16, .scalar, .ro, 0, 0, .all, [0]⟩,
  -- SCAN_RESULT (R217)
  ⟨12, .blob, (.bytes 131064 false false), .ro, 0, 0, .all, []⟩]

/-- Index 8200h. -/
def rows8200 : List ObjInfo := [
  -- FRONT_FLAGS (R242)
  ⟨1, .u8, .scalar, .w1c, 0, 7, .all, [0]⟩,
  -- CORR_BANK0 (R242)
  ⟨2, .blob, (.bytes 524288 true false), .rw, 0, 0x1FFFFFFFFFFFFFE00, .all, []⟩,
  -- CORR_BANK1 (R242)
  ⟨3, .blob, (.bytes 524288 true false), .rw, 0, 0x1FFFFFFFFFFFFFE00, .all, []⟩,
  -- CORR_BANK_SEL (R242)
  ⟨4, .u8, .scalar, .rs, 4, 0, (.within 0 1), [0]⟩,
  -- FADE_LOG2 (R242)
  ⟨5, .u8, .scalar, .rs, 5, 0, (.within 0 12), [6]⟩,
  -- FADE_POS (R242)
  ⟨6, .u16, (.array 4), .ro, 0, 0, .all, List.replicate 4 0⟩,
  -- BANK_IN_USE (R242)
  ⟨7, .u8, .scalar, .ro, 0, 0, .all, [1]⟩,
  -- FADE_COUNT (R242)
  ⟨8, .u32, .scalar, .ro, 0, 0, .all, [0]⟩]

/-- Index 8208h. -/
def rows8208 : List ObjInfo := [
  -- LUT_ENABLE (R242)
  ⟨1, .bool, .scalar, .rs, 5, 0, (.within 0 1), [0]⟩,
  -- LUT (R242)
  ⟨2, .blob, (.bytes 8192 true true), .rs, 5, 0, .all, lutDefault⟩,
  -- SAT_CODE (R242)
  ⟨3, .u16, .scalar, .rs, 5, 0, .all, [0]⟩,
  -- NR_XW_MODE (R242)
  ⟨4, .u8, .scalar, .rs, 5, 0, (.within 0 2), [1]⟩,
  -- NR_XW_WEIGHT (R242)
  ⟨5, .u8, (.array 4), .rs, 5, 0, (.firstNonZero), [8, 4, 2, 1]⟩,
  -- NR_XW_K (R242)
  ⟨6, .u8, .scalar, .rs, 5, 0, .all, [40]⟩,
  -- NR_T_ALPHA (R242)
  ⟨7, .u8, .scalar, .rs, 5, 0, .all, [128]⟩,
  -- NR_T_K (R242)
  ⟨8, .u8, .scalar, .rs, 5, 0, .all, [48]⟩,
  -- NOISE_MODEL (R242)
  ⟨9, .u16, (.array 17), .rs, 5, 0, .all, List.replicate 17 256⟩,
  -- CORR_ENABLE (R242)
  ⟨10, .bool, .scalar, .rs, 5, 0, (.within 0 1), [1]⟩,
  -- TBL_BASE (R242)
  ⟨11, .u16, .scalar, .rs, 5, 0, .all, [0]⟩,
  -- TBL_DECIM (R242)
  ⟨12, .u8, .scalar, .rs, 5, 0, (.within 0 2), [0]⟩,
  -- TEMP_ANCHOR (R242)
  ⟨13, .i16, (.array 2), .rs, 5, 0, .all, [320, 800]⟩]

/-- Index 8210h. -/
def rows8210 : List ObjInfo := [
  -- SAT_SAMPLES (R242)
  ⟨1, .u64, .scalar, .ro, 2, 0, .all, [0]⟩,
  -- REPL_SAMPLES (R242)
  ⟨2, .u64, .scalar, .ro, 2, 0, .all, [0]⟩,
  -- REPL_FAIL (R242)
  ⟨3, .u32, .scalar, .ro, 2, 0, .all, [0]⟩,
  -- NR_RESTARTS (R242)
  ⟨4, .u32, .scalar, .ro, 0, 0, .all, [0]⟩,
  -- DARK_WEIGHT (R242)
  ⟨5, .u32, .scalar, .ro, 0, 0, .all, [0]⟩,
  -- LUT_CLAMPS (R242)
  ⟨6, .u32, .scalar, .ro, 0, 0, .all, [0]⟩]

/-- Index 8300h. -/
def rows8300 : List ObjInfo := [
  -- GEO_FLAGS (R271)
  ⟨1, .u8, .scalar, .w1c, 0, 63, .all, [0]⟩,
  -- OUT_PITCH (R271)
  ⟨2, .u64, .scalar, .rs, 1, 0, (.within 5000 2000000), [50000]⟩,
  -- OUT_PHASE (R271)
  ⟨3, .u64, .scalar, .rs, 1, 0, .all, [0]⟩,
  -- XW_PITCH (R271)
  ⟨4, .u32, .scalar, .rs, 1, 0, (.within 5000 2000000), [50000]⟩,
  -- XW_ORIGIN (R271)
  ⟨5, .xw, .scalar, .rs, 1, 0, .all, [0]⟩,
  -- SWATH_WIDTH (R271)
  ⟨6, .u32, .scalar, .rs, 1, 0, (.within 16 131072), [4096]⟩,
  -- LOST_BRIDGE (R271)
  ⟨7, .u8, .scalar, .rs, 1, 0, (.within 0 4), [2]⟩,
  -- ALIGN_ADDR (R271)
  ⟨8, .u64, .scalar, .rs, 1, 0, (.multiple 4096), [0]⟩,
  -- ALIGN_SIZE (R271)
  ⟨9, .u64, .scalar, .rs, 1, 0, (.multiple 4096), [0]⟩,
  -- ALIGN_BW_LIMIT (R271)
  ⟨10, .u64, .scalar, .const, 0, 0, .all, [32000000000]⟩,
  -- ALIGN_NEED (R271)
  ⟨11, .u64, .scalar, .ro, 0, 0, .all, [0]⟩,
  -- ALIGN_BW_NEED (R271)
  ⟨12, .u64, .scalar, .ro, 0, 0, .all, [0]⟩,
  -- SWATH_BUDGET (R271)
  ⟨13, .u32, .scalar, .ro, 0, 0, .all, [0]⟩,
  -- SWATH_BUDGET_REJECTS (R271)
  ⟨14, .u32, .scalar, .ro, 0, 0, .all, [0]⟩,
  -- SWATH_PLANES (R271)
  ⟨15, .u8, .scalar, .ro, 0, 0, .all, [1]⟩,
  -- OUT_LATENCY_POS (R271)
  ⟨16, .u64, .scalar, .ro, 0, 0, .all, [0]⟩,
  -- OUT_LINES (R271)
  ⟨17, .u64, .scalar, .ro, 2, 0, .all, [0]⟩,
  -- SETTLING_LINES (R271)
  ⟨18, .u64, .scalar, .ro, 2, 0, .all, [0]⟩,
  -- RESYNC_COUNT (R271)
  ⟨19, .u32, .scalar, .ro, 0, 0, .all, [0]⟩,
  -- LAST_RESYNC_POS (R271)
  ⟨20, .pos, .scalar, .ro, 0, 0, .all, [0]⟩,
  -- LAST_OUT_POS (R271)
  ⟨21, .pos, .scalar, .ro, 0, 0, .all, [0]⟩,
  -- UNCOVERED_PIXELS (R271)
  ⟨22, .u64, .scalar, .ro, 2, 0, .all, [0]⟩,
  -- ALIGN_LATE_LINES (R271)
  ⟨23, .u32, .scalar, .ro, 0, 0, .all, [0]⟩,
  -- XW_EDGE (R271)
  ⟨24, .xw, (.array 2), .ro, 0, 0, .all, [0, 204750]⟩]

/-- Index 8308h. -/
def rows8308 : List ObjInfo := [
  -- DW_DELAY_INT (R271)
  ⟨1, .u32, .scalar, .rs, 1, 0, (.within 0 1000000), [0]⟩,
  -- DW_DELAY_FRAC (R271)
  ⟨2, .u16, .scalar, .rs, 1, 0, .all, [0]⟩,
  -- DW_COEF (R271)
  ⟨3, .i16, (.array 512), .rs, 1, 0, .all, dwCoefDefault⟩,
  -- XW_COEF (R271)
  ⟨4, .i16, (.array 384), .rs, 1, 0, .all, xwCoefDefault⟩,
  -- MAP_X0 (R271)
  ⟨5, .xw, .scalar, .rs, 1, 0, .all, [0]⟩,
  -- MAP_DX (R271)
  ⟨6, .u32, .scalar, .rs, 1, 0, (.within 1 1000000), [204750]⟩,
  -- MAP_KNOTS (R271)
  ⟨7, .u16, .scalar, .rs, 1, 0, (.within 2 1024), [2]⟩,
  -- MAP_COL (R271)
  ⟨8, .i32, (.array 1024), .rs, 1, 0, .all, [0, 268369920] ++ List.replicate 1022 0⟩,
  -- COVER (R271)
  ⟨9, .xw, (.array 2), .rs, 1, 0, .all, [2147483648, 2147483647]⟩,
  -- SEAM_MODE (R271)
  ⟨10, .u8, .scalar, .rs, 1, 0, (.within 0 1), [1]⟩]

/-- Index 8310h. -/
def rows8310 : List ObjInfo := [
  -- COVER_PIXELS (R271)
  ⟨1, .u32, .scalar, .ro, 0, 0, .all, [0]⟩,
  -- HOLD_LINES (R271)
  ⟨2, .u32, .scalar, .ro, 0, 0, .all, [0]⟩,
  -- LOST_BRIDGED (R271)
  ⟨3, .u32, .scalar, .ro, 2, 0, .all, [0]⟩,
  -- LOST_UNBRIDGED (R271)
  ⟨4, .u32, .scalar, .ro, 2, 0, .all, [0]⟩,
  -- DW_CLAMPS (R271)
  ⟨5, .u32, .scalar, .ro, 2, 0, .all, [0]⟩,
  -- XW_CLAMPS (R271)
  ⟨6, .u32, .scalar, .ro, 2, 0, .all, [0]⟩,
  -- TIME_LINES (R271)
  ⟨7, .u32, .scalar, .ro, 0, 0, .all, [0]⟩,
  -- SETTLE_LEFT (R271)
  ⟨8, .u8, .scalar, .ro, 0, 0, .all, [0]⟩]

/-- Index 8380h. -/
def rows8380 : List ObjInfo := [
  -- STATS_FLAGS (R293)
  ⟨1, .u16, .scalar, .w1c, 0, 1023, .all, [0]⟩,
  -- STAT_LINE_DECIM (R293)
  ⟨2, .u8, .scalar, .rs, 5, 0, (.within 0 8), [0]⟩,
  -- STAT_GEN (R293)
  ⟨3, .u32, .scalar, .ro, 0, 0, .all, [0]⟩,
  -- CYCLES_RUN (R293)
  ⟨4, .u32, .scalar, .ro, 0, 0, .all, [0]⟩,
  -- CYCLES_STALE (R293)
  ⟨5, .u32, .scalar, .ro, 0, 0, .all, [0]⟩,
  -- CYCLES_MISSED (R293)
  ⟨6, .u32, .scalar, .ro, 0, 0, .all, [0]⟩]

/-- Index 8388h. -/
def rows8388 : List ObjInfo := [
  -- HIST (R293)
  ⟨1, .u32, (.array 3072), .ro, 2, 0, .all, List.replicate 3072 0⟩,
  -- ZONE_MEAN (R293)
  ⟨2, .u16, (.array 192), .ro, 2, 0, .all, List.replicate 192 0⟩,
  -- ZONE_COUNT (R293)
  ⟨3, .u32, (.array 192), .ro, 2, 0, .all, List.replicate 192 0⟩,
  -- STAT_SAMPLES (R293)
  ⟨4, .u64, (.array 3), .ro, 2, 0, .all, List.replicate 3 0⟩,
  -- STAT_SATURATED (R293)
  ⟨5, .u64, (.array 3), .ro, 2, 0, .all, List.replicate 3 0⟩,
  -- STAT_EXCLUDED (R293)
  ⟨6, .u64, (.array 3), .ro, 2, 0, .all, List.replicate 3 0⟩,
  -- STAT_LINES (R293)
  ⟨7, .u32, .scalar, .ro, 2, 0, .all, [0]⟩,
  -- STAT_POS_FIRST (R293)
  ⟨8, .pos, .scalar, .ro, 2, 0, .all, [0]⟩,
  -- STAT_POS_LAST (R293)
  ⟨9, .pos, .scalar, .ro, 2, 0, .all, [0]⟩]

/-- Index 8390h. -/
def rows8390 : List ObjInfo := [
  -- LOOP_MODE (R293)
  ⟨1, .u8, .scalar, .rs, 5, 0, (.within 0 1), [0]⟩,
  -- LOOP_MEASURE (R293)
  ⟨2, .u8, .scalar, .rs, 5, 0, (.within 0 1), [0]⟩,
  -- LOOP_TARGET (R293)
  ⟨3, .u16, .scalar, .rs, 5, 0, (.within 1 65535), [32768]⟩,
  -- LOOP_PCT (R293)
  ⟨4, .u8, .scalar, .rs, 5, 0, (.within 1 255), [128]⟩,
  -- LOOP_ZONES (R293)
  ⟨5, .u64, .scalar, .rs, 5, 0, .all, [18446744073709551615]⟩,
  -- LOOP_KP (R293)
  ⟨6, .q16, .scalar, .rs, 5, 0, (.within 0 262144), [32768]⟩,
  -- LOOP_KI (R293)
  ⟨7, .q16, .scalar, .rs, 5, 0, (.within 0 262144), [16384]⟩,
  -- LOOP_DEADBAND (R293)
  ⟨8, .q16, .scalar, .rs, 5, 0, (.within 0 65536), [1311]⟩,
  -- LOOP_RATE_CAP (R293)
  ⟨9, .q16, .scalar, .rs, 5, 0, (.within 1 262144), [16384]⟩,
  -- EXPO_MIN (R293)
  ⟨10, .u32, .scalar, .rs, 5, 0, (.within 1 10000000), [1000]⟩,
  -- EXPO_MAX (R293)
  ⟨11, .u32, .scalar, .rs, 5, 0, (.within 1 10000000), [100000]⟩,
  -- EXPO_GUARD (R293)
  ⟨12, .u32, .scalar, .rs, 5, 0, (.within 0 1000000), [500]⟩,
  -- EXPO_UNIT (R293)
  ⟨13, .u32, .scalar, .rs, 5, 0, (.within 1 1000000), [1]⟩,
  -- GAIN_MIN (R293)
  ⟨14, .u16, .scalar, .rs, 5, 0, (.within 256 65535), [256]⟩,
  -- GAIN_MAX (R293)
  ⟨15, .u16, .scalar, .rs, 5, 0, (.within 256 65535), [256]⟩,
  -- EXPO_LEAD (R293)
  ⟨16, .u8, .scalar, .rs, 5, 0, (.within 1 64), [4]⟩,
  -- SAT_LIMIT (R293)
  ⟨17, .u16, .scalar, .rs, 5, 0, .all, [655]⟩,
  -- SAT_STEP (R293)
  ⟨18, .q16, .scalar, .rs, 5, 0, (.within 1 262144), [32768]⟩,
  -- DARK_LEVEL (R293)
  ⟨19, .u16, .scalar, .rs, 5, 0, (.within 1 65535), [256]⟩,
  -- WB_MODE (R293)
  ⟨20, .u8, .scalar, .rs, 5, 0, (.within 0 1), [0]⟩,
  -- WB_ZONES (R293)
  ⟨21, .u64, .scalar, .rs, 5, 0, .all, [18446744073709551615]⟩,
  -- WB_KI (R293)
  ⟨22, .q16, .scalar, .rs, 5, 0, (.within 0 262144), [16384]⟩,
  -- WB_MIN (R293)
  ⟨23, .u16, .scalar, .rs, 5, 0, (.within 1024 16384), [2048]⟩,
  -- WB_MAX (R293)
  ⟨24, .u16, .scalar, .rs, 5, 0, (.within 1024 16384), [8192]⟩,
  -- EXPO_SET (R293)
  ⟨25, .u32, .scalar, .rs, 5, 0, .all, [10000]⟩,
  -- GAIN_SET (R293)
  ⟨26, .u16, .scalar, .rs, 5, 0, .all, [256]⟩,
  -- WB_SET (R293)
  ⟨27, .u16, (.array 3), .rs, 5, 0, (.within 1024 16384), [4096, 4096, 4096]⟩]

/-- Index 8398h. -/
def rows8398 : List ObjInfo := [
  -- LOOP_STATE (R293)
  ⟨1, .u8, .scalar, .ro, 0, 0, .all, [0]⟩,
  -- EXPO_NOW (R293)
  ⟨2, .u32, .scalar, .ro, 0, 0, .all, [10000]⟩,
  -- GAIN_NOW (R293)
  ⟨3, .u16, .scalar, .ro, 0, 0, .all, [256]⟩,
  -- WB_NOW (R293)
  ⟨4, .u16, (.array 3), .ro, 0, 0, .all, [4096, 4096, 4096]⟩,
  -- LOOP_MEASURED (R293)
  ⟨5, .u16, .scalar, .ro, 0, 0, .all, [0]⟩,
  -- LOOP_ERROR (R293)
  ⟨6, .q16, .scalar, .ro, 0, 0, .all, [0]⟩,
  -- STEP_RATIO (R293)
  ⟨7, .u32, (.array 3), .ro, 0, 0, .all, List.replicate 3 16777216⟩,
  -- STEP_EFFECT_TRIG (R293)
  ⟨8, .u16, .scalar, .ro, 0, 0, .all, [0]⟩,
  -- STEP_COUNT (R293)
  ⟨9, .u32, .scalar, .ro, 0, 0, .all, [0]⟩,
  -- STEP_GEN (R293)
  ⟨10, .u32, .scalar, .ro, 0, 0, .all, [0]⟩,
  -- EXPO_MAX_EFF (R293)
  ⟨11, .u32, .scalar, .ro, 0, 0, .all, [0]⟩]

/-- Index 83A0h. -/
def rows83A0 : List ObjInfo := [
  -- ILL_OWNER (R293)
  ⟨1, .u8, .scalar, .rs, 5, 0, (.orVal 0 3 255), [255]⟩,
  -- ILL_LIT (R293)
  ⟨2, .u8, .scalar, .rs, 5, 15, .all, [0]⟩,
  -- ILL_FREQ (R293)
  ⟨3, .u32, .scalar, .rs, 5, 0, (.within 1000 5000000), [100000]⟩,
  -- ILL_SYNC (R293)
  ⟨4, .bool, .scalar, .rs, 5, 0, (.within 0 1), [0]⟩,
  -- ILL_POLARITY (R293)
  ⟨5, .u8, .scalar, .rs, 5, 0, (.within 0 1), [0]⟩,
  -- DUTY_MIN (R293)
  ⟨6, .u32, .scalar, .rs, 5, 0, (.within 0 65536), [0]⟩,
  -- DUTY_MAX (R293)
  ⟨7, .u32, .scalar, .rs, 5, 0, (.within 0 65536), [65536]⟩,
  -- DUTY_SET (R293)
  ⟨8, .u32, .scalar, .rs, 5, 0, (.within 0 65536), [0]⟩,
  -- DUTY_NOW (R293)
  ⟨9, .u32, .scalar, .ro, 0, 0, .all, [0]⟩]

/-- Index 83A8h. -/
def rows83A8 : List ObjInfo := [
  -- LMON_MODE (R293)
  ⟨1, .u8, .scalar, .rs, 5, 0, (.within 0 2), [0]⟩,
  -- LMON_DELAY (R293)
  ⟨2, .u32, .scalar, .rs, 5, 0, (.within 0 1000000), [0]⟩,
  -- LMON_LOW (R293)
  ⟨3, .u16, .scalar, .rs, 5, 0, (.within 0 4095), [0]⟩,
  -- LMON_HIGH (R293)
  ⟨4, .u16, .scalar, .rs, 5, 0, (.within 0 4095), [4095]⟩,
  -- LMON_MEAN (R293)
  ⟨5, .u16, .scalar, .ro, 2, 0, .all, [0]⟩,
  -- LMON_MIN (R293)
  ⟨6, .u16, .scalar, .ro, 0, 0, .all, [0]⟩,
  -- LMON_MAX (R293)
  ⟨7, .u16, .scalar, .ro, 0, 0, .all, [0]⟩,
  -- LMON_COUNT (R293)
  ⟨8, .u32, .scalar, .ro, 0, 0, .all, [0]⟩,
  -- LMON_TIME (R293)
  ⟨9, .time, .scalar, .ro, 0, 0, .all, [0]⟩,
  -- LMON_RESULTS (R293)
  ⟨10, .u32, .scalar, .ro, 0, 0, .all, [0]⟩]

/-- Index 8400h. -/
def rows8400 : List ObjInfo := [
  -- SEG_FLAGS (R321)
  ⟨1, .u16, .scalar, .w1c, 0, 255, .all, [0]⟩,
  -- SEG_ENABLE (R321)
  ⟨2, .bool, .scalar, .rs, 1, 0, (.within 0 1), [0]⟩,
  -- SEG_PLANE (R321)
  ⟨3, .u8, .scalar, .rs, 1, 0, (.within 0 3), [0]⟩,
  -- BG_LOG2 (R321)
  ⟨4, .u8, .scalar, .rs, 1, 0, (.within 1 16), [6]⟩,
  -- BG_GUARD (R321)
  ⟨5, .u8, .scalar, .rs, 1, 0, (.within 0 15), [2]⟩,
  -- BG_LEARN (R321)
  ⟨6, .u8, .scalar, .rs, 1, 0, .all, [8]⟩,
  -- BG_FREEZE_MAX (R321)
  ⟨7, .u32, .scalar, .rs, 1, 0, .all, [4096]⟩,
  -- SEED_BRIGHT (R321)
  ⟨8, .u16, .scalar, .rs, 1, 0, .all, [96]⟩,
  -- SEED_DARK (R321)
  ⟨9, .u16, .scalar, .rs, 1, 0, .all, [96]⟩,
  -- GROW_BRIGHT (R321)
  ⟨10, .u16, .scalar, .rs, 1, 0, .all, [48]⟩,
  -- GROW_DARK (R321)
  ⟨11, .u16, .scalar, .rs, 1, 0, .all, [48]⟩,
  -- SAT_AS_SEED (R321)
  ⟨12, .bool, .scalar, .rs, 1, 0, (.within 0 1), [1]⟩,
  -- SIGMA_MIN (R321)
  ⟨13, .u16, .scalar, .rs, 1, 0, (.within 1 65535), [16]⟩,
  -- NOISE_GAIN (R321)
  ⟨14, .u16, (.array 4), .rs, 1, 0, (.within 1 65535), [256, 256, 256, 256]⟩,
  -- SPLIT_LINES (R321)
  ⟨15, .u16, .scalar, .rs, 1, 0, .all, [4096]⟩,
  -- MIN_AREA (R321)
  ⟨16, .u32, .scalar, .rs, 1, 0, .all, [1]⟩,
  -- PROGRESS_LINES (R321)
  ⟨17, .u32, .scalar, .rs, 1, 0, .all, [1024]⟩,
  -- OPEN_HIGH_N (R321)
  ⟨18, .u16, .scalar, .rw, 1, 0, (.zeroOr 1 32768), [30000]⟩]

/-- Index 8408h. -/
def rows8408 : List ObjInfo := [
  -- RULES (R321)
  ⟨1, .blob, (.bytes 12288 true true), .rs, 1, 0x100000000FFFFFFFFFFFFFFFF00FFFFFFFFFFFFFFFFFF00FFFFFFFFFFFFFFFFFF00FFFFFFFFFFFFFFFFFF00FF00FF3F07, .all, List.replicate 12288 0⟩,
  -- DEFAULT_CLASS (R321)
  ⟨2, .u8, .scalar, .rs, 1, 0, (.within 0 63), [0]⟩,
  -- DEFAULT_SEV (R321)
  ⟨3, .u8, .scalar, .rs, 1, 0, .all, [0]⟩,
  -- CLASS_CTRL (R321)
  ⟨4, .u8, (.array 64), .rs, 1, 7, .all, List.replicate 64 1⟩]

/-- Index 8410h. -/
def rows8410 : List ObjInfo := [
  -- REC_RING_ADDR (R321)
  ⟨1, .u64, .scalar, .rs, 1, 0, (.multiple 4096), [0]⟩,
  -- REC_RING_SIZE (R321)
  ⟨2, .u32, .scalar, .rs, 1, 0, (.multiple 4096), [0]⟩,
  -- REC_WR (R321)
  ⟨3, .u32, .scalar, .ro, 0, 0, .all, [0]⟩,
  -- REC_RD (R321)
  ⟨4, .u32, .scalar, .rw, 0, 0, (.multiple 64), [0]⟩,
  -- REC_WB_ADDR (R321)
  ⟨5, .u64, .scalar, .rs, 1, 0, (.multiple 4), [0]⟩,
  -- REC_IRQ_N (R321)
  ⟨6, .u16, .scalar, .rw, 1, 0, .all, [1]⟩,
  -- REC_IRQ_TIME (R321)
  ⟨7, .u32, .scalar, .rw, 1, 0, .all, [100000]⟩,
  -- REC_WRITTEN (R321)
  ⟨8, .u64, .scalar, .ro, 0, 0, .all, [0]⟩,
  -- REC_DROPS (R321)
  ⟨9, .u32, .scalar, .ro, 0, 0, .all, [0]⟩,
  -- REC_QUEUED (R321)
  ⟨10, .u16, .scalar, .ro, 0, 0, .all, [0]⟩]

/-- Index 8418h. -/
def rows8418 : List ObjInfo := [
  -- HIST_ADDR (R321)
  ⟨1, .u64, .scalar, .rs, 1, 0, (.multiple 4096), [0]⟩,
  -- HIST_LINES (R321)
  ⟨2, .u32, .scalar, .rs, 1, 0, .all, [0]⟩,
  -- HIST_STRIDE (R321)
  ⟨3, .u32, .scalar, .ro, 0, 0, .all, [0]⟩,
  -- CROP_RING_ADDR (R321)
  ⟨4, .u64, .scalar, .rs, 1, 0, (.multiple 4096), [0]⟩,
  -- CROP_RING_SIZE (R321)
  ⟨5, .u32, .scalar, .rs, 1, 0, (.multiple 4096), [0]⟩,
  -- CROP_WR (R321)
  ⟨6, .u32, .scalar, .ro, 0, 0, .all, [0]⟩,
  -- CROP_RD (R321)
  ⟨7, .u32, .scalar, .rw, 0, 0, (.multiple 64), [0]⟩,
  -- CROP_MARGIN (R321)
  ⟨8, .u8, .scalar, .rs, 1, 0, .all, [8]⟩,
  -- CROP_MAX_LINES (R321)
  ⟨9, .u32, .scalar, .rs, 1, 0, (.within 1 65536), [512]⟩,
  -- CROP_MAX_COLS (R321)
  ⟨10, .u32, .scalar, .rs, 1, 0, (.within 1 131072), [512]⟩,
  -- CROP_FLAGS (R321)
  ⟨11, .bool, .scalar, .rs, 1, 0, (.within 0 1), [0]⟩,
  -- CROPS (R321)
  ⟨12, .u32, .scalar, .ro, 0, 0, .all, [0]⟩,
  -- CROP_DROPS (R321)
  ⟨13, .u32, .scalar, .ro, 0, 0, .all, [0]⟩,
  -- CROP_TRUNCS (R321)
  ⟨14, .u32, .scalar, .ro, 0, 0, .all, [0]⟩]

/-- Index 8420h. -/
def rows8420 : List ObjInfo := [
  -- OPEN_NOW (R321)
  ⟨1, .u16, .scalar, .ro, 0, 0, .all, [0]⟩,
  -- OPEN_PEAK (R321)
  ⟨2, .u16, .scalar, .ro, 2, 0, .all, [0]⟩,
  -- BLOBS_RECORDED (R321)
  ⟨3, .u64, .scalar, .ro, 2, 0, .all, [0]⟩,
  -- GROW_ONLY (R321)
  ⟨4, .u32, .scalar, .ro, 2, 0, .all, [0]⟩,
  -- SMALL_DISCARDS (R321)
  ⟨5, .u32, .scalar, .ro, 2, 0, .all, [0]⟩,
  -- SUPPRESSED (R321)
  ⟨6, .u32, .scalar, .ro, 2, 0, .all, [0]⟩,
  -- SPLITS (R321)
  ⟨7, .u32, .scalar, .ro, 2, 0, .all, [0]⟩,
  -- OVERFLOW_LINES (R321)
  ⟨8, .u32, .scalar, .ro, 2, 0, .all, [0]⟩,
  -- OVERFLOW_SEEDS (R321)
  ⟨9, .u64, .scalar, .ro, 2, 0, .all, [0]⟩,
  -- BG_THAWS (R321)
  ⟨10, .u32, .scalar, .ro, 2, 0, .all, [0]⟩,
  -- CLASS_COUNT (R321)
  ⟨11, .u32, (.array 64), .ro, 2, 0, .all, List.replicate 64 0⟩,
  -- SEG_LAST_POS (R321)
  ⟨12, .pos, .scalar, .ro, 0, 0, .all, [0]⟩,
  -- OPEN_SNAP_ADDR (R321)
  ⟨13, .u64, .scalar, .rw, 0, 0, .all, [0]⟩,
  -- OPEN_SNAP (R321)
  ⟨14, .u8, .scalar, .wo, 0, 0, (.oneOf [1]), []⟩,
  -- OPEN_SNAP_STATUS (R321)
  ⟨15, .u8, .scalar, .ro, 0, 0, .all, [0]⟩,
  -- OPEN_SNAP_COUNT (R321)
  ⟨16, .u16, .scalar, .ro, 0, 0, .all, [0]⟩]

/-- Index 8500h. -/
def rows8500 : List ObjInfo := [
  -- STK_FLAGS (R351)
  ⟨1, .u16, .scalar, .w1c, 0, 511, .all, [0]⟩,
  -- STK_ENABLE (R351)
  ⟨2, .u8, .scalar, .rw, 0, 15, .all, [0]⟩,
  -- STK_MATCH_Y (R351)
  ⟨3, .u64, .scalar, .rs, 5, 0, .all, [100000]⟩,
  -- STK_MATCH_X (R351)
  ⟨4, .u16, .scalar, .rs, 5, 0, .all, [2]⟩,
  -- STK_RESOLVE_MAX (R351)
  ⟨5, .u64, .scalar, .rs, 5, 0, (.within 1000000 1000000000000), [2000000000]⟩,
  -- STK_CLASS_POLICY (R351)
  ⟨6, .u8, (.array 64), .rs, 1, 0, .all, List.replicate 64 85⟩,
  -- CUE_HIGH_N (R351)
  ⟨7, .u16, .scalar, .rw, 1, 0, (.zeroOr 1 2048), [1792]⟩,
  -- CUES_NOW (R351)
  ⟨8, .u16, .scalar, .ro, 0, 0, .all, [0]⟩,
  -- CUES_PEAK (R351)
  ⟨9, .u16, .scalar, .ro, 2, 0, .all, [0]⟩,
  -- RES_DROPS (R351)
  ⟨10, .u32, .scalar, .ro, 2, 0, .all, [0]⟩,
  -- CUE_SNAP_ADDR (R351)
  ⟨11, .u64, .scalar, .rw, 0, 0, .all, [0]⟩,
  -- CUE_SNAP (R351)
  ⟨12, .u8, .scalar, .wo, 0, 0, (.oneOf [1]), []⟩,
  -- CUE_SNAP_STATUS (R351)
  ⟨13, .u8, .scalar, .ro, 0, 0, .all, [0]⟩,
  -- CUE_SNAP_COUNT (R351)
  ⟨14, .u16, .scalar, .ro, 0, 0, .all, [0]⟩]

/-- Index 8508h. -/
def rows8508 : List ObjInfo := [
  -- PV_ENABLE (R351)
  ⟨1, .bool, .scalar, .rs, 5, 0, (.within 0 1), [0]⟩,
  -- PV_BRIGHT (R351)
  ⟨2, .u16, .scalar, .rs, 5, 0, .all, [160]⟩,
  -- PV_DARK (R351)
  ⟨3, .u16, .scalar, .rs, 5, 0, .all, [160]⟩,
  -- PV_MIN_RUN (R351)
  ⟨4, .u8, .scalar, .rs, 5, 0, (.within 1 32), [2]⟩,
  -- PV_LOG2 (R351)
  ⟨5, .u8, .scalar, .rs, 5, 0, (.within 1 16), [6]⟩,
  -- PV_FREEZE (R351)
  ⟨6, .u16, .scalar, .rs, 5, 0, .all, [48]⟩,
  -- PV_FREEZE_MAX (R351)
  ⟨7, .u32, .scalar, .rs, 5, 0, .all, [4096]⟩,
  -- PV_LEARN (R351)
  ⟨8, .u8, .scalar, .rs, 5, 0, .all, [8]⟩,
  -- PV_NOISE_GAIN (R351)
  ⟨9, .u16, .scalar, .rs, 5, 0, (.within 1 65535), [256]⟩,
  -- PV_PLANE (R351)
  ⟨10, .u8, .scalar, .rs, 5, 0, (.within 0 3), [3]⟩,
  -- PV_SAT_AS_SEED (R351)
  ⟨11, .bool, .scalar, .rs, 5, 0, (.within 0 1), [1]⟩,
  -- PV_DETECTIONS (R351)
  ⟨12, .u32, .scalar, .ro, 2, 0, .all, [0]⟩]

/-- Index 8510h. -/
def rows8510 : List ObjInfo := [
  -- STK_MODE (R351)
  ⟨1, .u8, .scalar, .rs, 5, 0, (.within 0 3), [0]⟩,
  -- STK_HEADS (R351)
  ⟨2, .u8, .scalar, .rs, 5, 0, .all, [15]⟩,
  -- STK_POLARITIES (R351)
  ⟨3, .u8, .scalar, .rs, 5, 0, .all, [3]⟩,
  -- STK_XW_MIN (R351)
  ⟨4, .xw, .scalar, .rs, 5, 0, .all, [2147483648]⟩,
  -- STK_XW_MAX (R351)
  ⟨5, .xw, .scalar, .rs, 5, 0, .all, [2147483647]⟩,
  -- STK_LEAD (R351)
  ⟨6, .u64, .scalar, .rs, 5, 0, (.within 0 100000000000), [0]⟩,
  -- STK_GUARD (R351)
  ⟨7, .u64, .scalar, .rs, 5, 0, .all, [0]⟩,
  -- STK_LATE_POLICY (R351)
  ⟨8, .u8, .scalar, .rs, 5, 0, (.within 0 1), [0]⟩,
  -- STK_MERGE (R351)
  ⟨9, .u64, .scalar, .rs, 5, 0, .all, [1000000]⟩,
  -- STK_WIDTH (R351)
  ⟨10, .u32, .scalar, .rs, 5, 0, (.within 10 100000000), [1000000]⟩,
  -- STK_POLARITY (R351)
  ⟨11, .u8, .scalar, .rs, 5, 0, (.within 0 1), [0]⟩,
  -- STK_RECALL_OUT (R351)
  ⟨12, .u8, .scalar, .rs, 5, 0, (.orVal 0 3 255), [255]⟩,
  -- STK_RECALL_WIDTH (R351)
  ⟨13, .u32, .scalar, .rs, 5, 0, (.within 10 100000000), [1000000]⟩,
  -- STK_RELAY_TX (R351)
  ⟨14, .bool, .scalar, .rs, 5, 0, (.within 0 1), [0]⟩,
  -- STK_RELAY_SRC (R351)
  ⟨15, .u32, .scalar, .rs, 5, 0, .all, [4294967295]⟩,
  -- STK_PULSES (R351)
  ⟨16, .u32, .scalar, .ro, 0, 0, .all, [0]⟩,
  -- STK_OVERLAP (R351)
  ⟨17, .u32, .scalar, .ro, 0, 0, .all, [0]⟩,
  -- STK_LAST_FIRE (R351)
  ⟨18, .pos, .scalar, .ro, 0, 0, .all, [0]⟩]

/-- Index 8518h. -/
def rows8518 : List ObjInfo := [
  -- PQ_RING_ADDR (R351)
  ⟨1, .u64, .scalar, .rs, 5, 0, (.multiple 4096), [0]⟩,
  -- PQ_RING_SIZE (R351)
  ⟨2, .u32, .scalar, .rs, 5, 0, (.multiple 4096), [0]⟩,
  -- PQ_WR (R351)
  ⟨3, .u32, .scalar, .ro, 0, 0, .all, [0]⟩,
  -- PQ_RD (R351)
  ⟨4, .u32, .scalar, .rw, 0, 0, (.multiple 32), [0]⟩,
  -- PQ_WB_ADDR (R351)
  ⟨5, .u64, .scalar, .rs, 5, 0, (.multiple 4), [0]⟩,
  -- PQ_IRQ_N (R351)
  ⟨6, .u16, .scalar, .rw, 1, 0, .all, [1]⟩,
  -- PQ_DROPS (R351)
  ⟨7, .u32, .scalar, .ro, 0, 0, .all, [0]⟩]

/-- Index 8520h. -/
def rows8520 : List ObjInfo := [
  -- CUES_INSERTED (R352)
  ⟨1, .u32, (.array 4), .ro, 2, 0, .all, List.replicate 4 0⟩,
  -- CUES_MERGED (R352)
  ⟨2, .u32, (.array 4), .ro, 2, 0, .all, List.replicate 4 0⟩,
  -- CUES_CONFIRMED (R352)
  ⟨3, .u32, (.array 4), .ro, 2, 0, .all, List.replicate 4 0⟩,
  -- CUES_RECALLED (R352)
  ⟨4, .u32, (.array 4), .ro, 2, 0, .all, List.replicate 4 0⟩,
  -- FIRED_CONFIRMED (R352)
  ⟨5, .u32, (.array 4), .ro, 2, 0, .all, List.replicate 4 0⟩,
  -- FIRED_UNCONFIRMED (R352)
  ⟨6, .u32, (.array 4), .ro, 2, 0, .all, List.replicate 4 0⟩,
  -- WITHHELD (R352)
  ⟨7, .u32, (.array 4), .ro, 2, 0, .all, List.replicate 4 0⟩,
  -- MISSED (R352)
  ⟨8, .u32, (.array 4), .ro, 2, 0, .all, List.replicate 4 0⟩,
  -- UNRESOLVED (R352)
  ⟨9, .u32, (.array 4), .ro, 2, 0, .all, List.replicate 4 0⟩,
  -- LATE_INSERTS (R352)
  ⟨10, .u32, (.array 4), .ro, 2, 0, .all, List.replicate 4 0⟩,
  -- FULL_DROPS (R352)
  ⟨11, .u32, (.array 4), .ro, 2, 0, .all, List.replicate 4 0⟩,
  -- RECALL_PULSES (R352)
  ⟨12, .u32, (.array 4), .ro, 2, 0, .all, List.replicate 4 0⟩,
  -- RELAY_IN (R352)
  ⟨13, .u32, (.array 4), .ro, 2, 0, .all, List.replicate 4 0⟩]

/-- Index 8580h. -/
def rows8580 : List ObjInfo := [
  -- RUSHES_FLAGS (R374)
  ⟨1, .u8, .scalar, .w1c, 0, 31, .all, [0]⟩,
  -- RUSHES_ENABLE (R374)
  ⟨2, .bool, .scalar, .rs, 5, 0, (.within 0 1), [0]⟩,
  -- RUSHES_ADDR (R374)
  ⟨3, .u64, .scalar, .rs, 5, 0, (.multiple 4096), [0]⟩,
  -- RUSHES_SIZE (R374)
  ⟨4, .u64, .scalar, .rs, 5, 0, (.multMax 4096 17179869184), [0]⟩,
  -- RAW_HEADS (R374)
  ⟨5, .u8, .scalar, .rs, 5, 0, .all, [0]⟩,
  -- RAW_FORM (R374)
  ⟨6, .u8, .scalar, .rs, 5, 0, (.within 1 2), [2]⟩,
  -- RAW_FILTER (R374)
  ⟨7, .u8, .scalar, .rs, 5, 0, (.within 0 1), [1]⟩,
  -- EDGE_LOG2 (R374)
  ⟨8, .u8, .scalar, .rs, 5, 0, (.within 0 16), [0]⟩,
  -- TB_SAMPLES (R374)
  ⟨9, .bool, .scalar, .rs, 5, 0, (.within 0 1), [1]⟩,
  -- RUSHES_HEAD (R374)
  ⟨10, .u64, .scalar, .ro, 0, 0, .all, [0]⟩,
  -- RUSHES_TAIL (R374)
  ⟨11, .u64, .scalar, .ro, 0, 0, .all, [0]⟩,
  -- RUSHES_TAIL_SEQ (R374)
  ⟨12, .u32, .scalar, .ro, 0, 0, .all, [0]⟩,
  -- RUSHES_SEQ (R374)
  ⟨13, .u32, .scalar, .ro, 0, 0, .all, [0]⟩,
  -- RUSHES_BYTES (R374)
  ⟨14, .u64, .scalar, .ro, 0, 0, .all, [0]⟩,
  -- RAW_MISSES (R374)
  ⟨15, .u32, .scalar, .ro, 0, 0, .all, [0]⟩,
  -- JRN_DROPS (R374)
  ⟨16, .u32, .scalar, .ro, 0, 0, .all, [0]⟩,
  -- RAW_BW_NEED (R374)
  ⟨17, .u64, .scalar, .ro, 0, 0, .all, [0]⟩,
  -- RAW_BW_LIMIT (R374)
  ⟨18, .u64, (.array 2), .const, 0, 0, .all, [24000000000, 8000000000]⟩]

/-- Index 8581h. -/
def rows8581 : List ObjInfo := [
  -- FREEZE_ON (R374)
  ⟨1, .u8, (.array 8), .rs, 5, 0, (.within 0 160), List.replicate 8 0⟩,
  -- PRE_DEPTH (R374)
  ⟨2, .u64, .scalar, .rs, 5, 0, .all, [0]⟩,
  -- POST_DEPTH (R374)
  ⟨3, .u64, .scalar, .rs, 5, 0, .all, [1000000000]⟩,
  -- POST_TIME (R374)
  ⟨4, .u32, .scalar, .rs, 5, 0, (.within 1 60000), [1000]⟩,
  -- FREEZE_NOW (R374)
  ⟨5, .u8, .scalar, .wo, 0, 0, (.oneOf [1]), []⟩,
  -- FREEZE_RELEASE (R374)
  ⟨6, .u8, .scalar, .wo, 0, 0, (.oneOf [1]), []⟩,
  -- FREEZE_STATE (R374)
  ⟨7, .u8, .scalar, .ro, 0, 0, .all, [0]⟩,
  -- FREEZE_CAUSE (R374)
  ⟨8, .u8, .scalar, .ro, 0, 0, .all, [0]⟩,
  -- FREEZE_POS (R374)
  ⟨9, .pos, .scalar, .ro, 0, 0, .all, [0]⟩,
  -- FREEZE_OFF (R374)
  ⟨10, .u64, .scalar, .ro, 0, 0, .all, [0]⟩,
  -- FREEZE_EXTRA (R374)
  ⟨11, .u32, .scalar, .ro, 0, 0, .all, [0]⟩]

/-- Index 8582h. -/
def rows8582 : List ObjInfo := [
  -- CKPT_PERIOD (R374)
  ⟨1, .u64, .scalar, .rs, 5, 0, (.zeroOr 10000000 1000000000000), [0]⟩,
  -- CKPT_COUNT (R374)
  ⟨2, .u32, .scalar, .ro, 0, 0, .all, [0]⟩,
  -- CKPT_ABANDONED (R374)
  ⟨3, .u32, .scalar, .ro, 0, 0, .all, [0]⟩,
  -- CKPT_OLDEST (R374)
  ⟨4, .u64, .scalar, .ro, 0, 0, .all, [18446744073709551615]⟩,
  -- CKPT_NEWEST (R374)
  ⟨5, .u64, .scalar, .ro, 0, 0, .all, [18446744073709551615]⟩,
  -- CKPT_LAST_POS (R374)
  ⟨6, .pos, .scalar, .ro, 0, 0, .all, [0]⟩]

/-- Index 8584h. -/
def rows8584 : List ObjInfo := [
  -- RETAKE_ADDR (R374)
  ⟨1, .u64, .scalar, .rw, 0, 0, (.multiple 4096), [0]⟩,
  -- RETAKE_SIZE (R374)
  ⟨2, .u64, .scalar, .rw, 0, 0, (.multiple 4096), [0]⟩,
  -- RETAKE_FIRST (R374)
  ⟨3, .u64, .scalar, .rw, 0, 0, (.multiple 8), [0]⟩,
  -- RETAKE_ENTRIES (R374)
  ⟨4, .u32, .scalar, .rw, 0, 0, .all, [0]⟩,
  -- RETAKE_CTRL (R374)
  ⟨5, .u8, .scalar, .wo, 0, 0, (.oneOf [1, 2, 3]), []⟩,
  -- RETAKE_STATE (R374)
  ⟨6, .u8, .scalar, .ro, 0, 0, .all, [0]⟩,
  -- RETAKE_ERROR (R374)
  ⟨7, .u8, .scalar, .ro, 0, 0, .all, [0]⟩,
  -- RETAKE_ERR_OFF (R374)
  ⟨8, .u64, .scalar, .ro, 0, 0, .all, [0]⟩,
  -- RETAKE_DETAIL (R374)
  ⟨9, .u32, .scalar, .ro, 0, 0, .all, [0]⟩,
  -- RETAKE_DONE_ENTRIES (R374)
  ⟨10, .u64, .scalar, .ro, 0, 0, .all, [0]⟩,
  -- RETAKE_POS (R374)
  ⟨11, .pos, .scalar, .ro, 0, 0, .all, [0]⟩,
  -- RETAKE_COMPARED (R374)
  ⟨12, .u32, .scalar, .ro, 0, 0, .all, [0]⟩,
  -- RETAKE_MISMATCH_GEN (R374)
  ⟨13, .u32, .scalar, .ro, 0, 0, .all, [0]⟩,
  -- RETAKE_MISMATCH_K (R374)
  ⟨14, .u8, .scalar, .ro, 0, 0, .all, [0]⟩]

/-- Index 8588h. -/
def rows8588 : List ObjInfo := [
  -- K_POINT (R374)
  ⟨1, .u8, .scalar, .rs, 1, 0, (.within 0 6), [0]⟩,
  -- K_SEL (R374)
  ⟨2, .u8, .scalar, .rs, 1, 0, (.within 0 7), [0]⟩,
  -- K_PRESET (R374)
  ⟨3, .u8, .scalar, .rs, 1, 0, (.within 0 4), [1]⟩,
  -- K_WIDTH (R374)
  ⟨4, .u8, .scalar, .rs, 1, 0, (.within 1 64), [32]⟩,
  -- K_POLY (R374)
  ⟨5, .u64, .scalar, .rs, 1, 0, .all, [517762881]⟩,
  -- K_INIT (R374)
  ⟨6, .u64, .scalar, .rs, 1, 0, .all, [4294967295]⟩,
  -- K_XOROUT (R374)
  ⟨7, .u64, .scalar, .rs, 1, 0, .all, [4294967295]⟩,
  -- K_REFLECT (R374)
  ⟨8, .u8, .scalar, .rs, 1, 3, .all, [3]⟩,
  -- K_RESULT (R374)
  ⟨9, .u64, .scalar, .ro, 2, 0, .all, [0]⟩,
  -- K_BYTES (R374)
  ⟨10, .u64, .scalar, .ro, 2, 0, .all, [0]⟩,
  -- K_GEN (R374)
  ⟨11, .u32, .scalar, .ro, 2, 0, .all, [0]⟩,
  -- K_TEST (R374)
  ⟨12, .u8, .scalar, .wo, 0, 0, (.oneOf [1]), []⟩,
  -- K_TEST_RESULT (R374)
  ⟨13, .u64, .scalar, .ro, 0, 0, .all, [0]⟩]

/-- Index 8600h. -/
def rows8600 : List ObjInfo := [
  -- MEM_FLAGS (R395)
  ⟨1, .u8, .scalar, .w1c, 0, 31, .all, [0]⟩,
  -- MEM_TYPE (R395)
  ⟨2, .u8, .scalar, .rw, 1, 0, (.within 0 2), [2]⟩,
  -- MEM_DENSITY (R395)
  ⟨3, .u8, .scalar, .rw, 1, 0, (.oneOf [4, 8, 16, 32]), [16]⟩,
  -- MEM_RANKS (R395)
  ⟨4, .u8, .scalar, .rw, 1, 0, (.within 1 2), [1]⟩,
  -- ADDR_ORDER (R395)
  ⟨5, .u8, .scalar, .rw, 1, 0, (.within 0 3), [1]⟩,
  -- MEM_CAPACITY (R395)
  ⟨6, .u64, .scalar, .ro, 0, 0, .all, [0]⟩,
  -- MEM_STATE (R395)
  ⟨7, .u8, .scalar, .ro, 0, 0, .all, [0]⟩,
  -- ACTIVE_SET (R395)
  ⟨8, .u8, .scalar, .ro, 0, 0, .all, [0]⟩,
  -- FREQ_SWITCH (R395)
  ⟨9, .u8, .scalar, .wo, 0, 0, (.oneOf [1]), []⟩,
  -- MEM_TRAIN (R395)
  ⟨10, .u8, .scalar, .wo, 0, 0, (.oneOf [1]), []⟩,
  -- BOOT_TRAIN_B (R395)
  ⟨11, .bool, .scalar, .rw, 1, 0, (.within 0 1), [0]⟩,
  -- MR4_POLL (R395)
  ⟨12, .u32, .scalar, .rw, 1, 0, (.within 100 100000), [1000]⟩,
  -- NBR_LOG2 (R395)
  ⟨13, .u8, .scalar, .rw, 1, 0, (.zeroOr 6 16), [10]⟩,
  -- NBR_SEED (R395)
  ⟨14, .u32, .scalar, .rw, 0, 0, (.within 1 4294967295), [1]⟩,
  -- SR_TEST (R395)
  ⟨15, .u8, .scalar, .wo, 0, 0, (.oneOf [1, 2]), []⟩]

/-- Index 8608h. -/
def rows8608 : List ObjInfo := [
  -- RATE (R395)
  ⟨1, .u16, .scalar, .rw, 1, 0, (.oneOf [3200, 4267, 5500, 6400, 7500, 8533, 9600, 10667]), [10667]⟩,
  -- TIMING (R395)
  ⟨2, .u32, (.array 16), .rw, 1, 2 ^ 512 + (2 ^ 480 - 1), (.firsts 15), timingDefault⟩,
  -- LATENCY (R395)
  ⟨3, .u8, (.array 4), .rw, 1, 2 ^ 32 + (2 ^ 24 - 1), .all, [30, 16, 40, 0]⟩,
  -- MR_WRITES (R395)
  ⟨4, .u16, (.array 16), .rw, 1, 0, .all, List.replicate 16 0⟩,
  -- SET_TRAINED (R395)
  ⟨5, .bool, .scalar, .ro, 0, 0, (.within 0 1), [0]⟩]

/-- Index 8610h. -/
def rows8610 : List ObjInfo := [
  -- REF_RATE (R395)
  ⟨1, .u8, (.array 8), .ro, 0, 0, .all, List.replicate 8 1⟩,
  -- REF_DEBT (R395)
  ⟨2, .i8, (.array 8), .ro, 0, 0, .all, List.replicate 8 0⟩,
  -- MR4_LAST (R395)
  ⟨3, .u8, (.array 8), .ro, 0, 0, .all, List.replicate 8 0⟩,
  -- FORCED_BURSTS (R395)
  ⟨4, .u32, .scalar, .ro, 0, 0, .all, [0]⟩,
  -- RATE_CHANGES (R395)
  ⟨5, .u32, .scalar, .ro, 0, 0, .all, [0]⟩,
  -- NBR_REFRESHES (R395)
  ⟨6, .u64, .scalar, .ro, 0, 0, .all, [0]⟩,
  -- SR_ENTRIES (R395)
  ⟨7, .u32, .scalar, .ro, 0, 0, .all, [0]⟩,
  -- SR_ABORTS (R395)
  ⟨8, .u32, .scalar, .ro, 0, 0, .all, [0]⟩,
  -- FREQ_CHANGES (R395)
  ⟨9, .u32, .scalar, .ro, 0, 0, .all, [0]⟩,
  -- TRAIN_COUNT (R395)
  ⟨10, .u32, .scalar, .ro, 0, 0, .all, [0]⟩,
  -- TRAIN_RESULT (R395)
  ⟨11, .u8, .scalar, .ro, 0, 0, .all, [0]⟩,
  -- TRAIN_DETAIL (R395)
  ⟨12, .u32, .scalar, .ro, 0, 0, .all, [0]⟩,
  -- ADDR_ERR_ADDR (R395)
  ⟨13, .u64, .scalar, .ro, 0, 0, .all, [0]⟩,
  -- ADDR_ERR_COUNT (R395)
  ⟨14, .u32, .scalar, .ro, 0, 0, .all, [0]⟩,
  -- READS (R395)
  ⟨15, .u64, .scalar, .ro, 0, 0, .all, [0]⟩,
  -- WRITES (R395)
  ⟨16, .u64, .scalar, .ro, 0, 0, .all, [0]⟩,
  -- BW_NOW (R395)
  ⟨17, .u32, .scalar, .ro, 0, 0, .all, [0]⟩]

/-- Index 8680h. -/
def rows8680 : List ObjInfo := [
  -- CMP_FLAGS (R421)
  ⟨1, .u8, .scalar, .w1c, 0, 15, .all, [0]⟩,
  -- CMP_SUBMIT (R421)
  ⟨2, .blob, (.bytes 64 true true), .wo, 0, 0, .all, []⟩,
  -- CMP_QUEUED (R421)
  ⟨3, .u8, .scalar, .ro, 0, 0, .all, [0]⟩,
  -- CMP_ABORT (R421)
  ⟨4, .u8, .scalar, .wo, 0, 0, (.oneOf [1, 2]), []⟩,
  -- CMP_STATE (R421)
  ⟨5, .u8, .scalar, .ro, 0, 0, .all, [0]⟩,
  -- CMP_LAST (R421)
  ⟨6, .blob, (.bytes 32 false false), .ro, 0, 0, .all, []⟩,
  -- CPL_RING_ADDR (R421)
  ⟨7, .u64, .scalar, .rw, 1, 0, (.multiple 4096), [0]⟩,
  -- CPL_RING_SIZE (R421)
  ⟨8, .u32, .scalar, .rw, 1, 0, (.multiple 4096), [0]⟩,
  -- CPL_WR (R421)
  ⟨9, .u32, .scalar, .ro, 0, 0, .all, [0]⟩,
  -- CPL_RD (R421)
  ⟨10, .u32, .scalar, .rw, 0, 0, (.multiple 32), [0]⟩,
  -- CPL_WB_ADDR (R421)
  ⟨11, .u64, .scalar, .rw, 1, 0, (.multiple 4), [0]⟩,
  -- CPL_IRQ_N (R421)
  ⟨12, .u16, .scalar, .rw, 1, 0, .all, [1]⟩,
  -- JOBS_DONE (R421)
  ⟨13, .u64, .scalar, .ro, 0, 0, .all, [0]⟩,
  -- JOBS_ERR (R421)
  ⟨14, .u32, .scalar, .ro, 0, 0, .all, [0]⟩,
  -- ERR_LAST (R421)
  ⟨15, .u8, .scalar, .ro, 0, 0, .all, [0]⟩,
  -- BYTES_IN (R421)
  ⟨16, .u64, .scalar, .ro, 0, 0, .all, [0]⟩,
  -- BYTES_OUT (R421)
  ⟨17, .u64, .scalar, .ro, 0, 0, .all, [0]⟩,
  -- STORED_BLOCKS (R421)
  ⟨18, .u32, .scalar, .ro, 0, 0, .all, [0]⟩,
  -- RECORDER_JOBS (R421)
  ⟨19, .u64, .scalar, .ro, 0, 0, .all, [0]⟩]

/-- Index 8700h. -/
def rows8700 : List ObjInfo := [
  -- DMA_FLAGS (R445)
  ⟨1, .u8, .scalar, .w1c, 0, 0, .all, [0]⟩,
  -- DMA_ENABLE (R445)
  ⟨2, .u8, .scalar, .rw, 0, 0, .all, [0]⟩,
  -- DMA_ACTIVE (R445)
  ⟨3, .u8, .scalar, .ro, 0, 0, .all, [0]⟩]

/-- Index 8708h. -/
def rows8708 : List ObjInfo := [
  -- PROG_ADDR (R445)
  ⟨1, .u64, .scalar, .rw, 0, 0, (.multiple 16), [0]⟩,
  -- PROG_SPACE (R445)
  ⟨2, .u8, .scalar, .rw, 0, 0, (.within 0 1), [0]⟩,
  -- THREAD_CLASS (R445)
  ⟨3, .u8, .scalar, .rw, 1, 0, (.within 0 1), [1]⟩,
  -- LINK_LIMIT (R445)
  ⟨4, .u16, .scalar, .rw, 1, 0, .all, [64]⟩,
  -- THREAD_CTRL (R445)
  ⟨5, .u8, .scalar, .wo, 0, 0, (.oneOf [1, 2, 3]), []⟩,
  -- DOORBELL (R445)
  ⟨6, .u32, .scalar, .rw, 0, 0, .all, [0]⟩]

/-- Index 8710h. -/
def rows8710 : List ObjInfo := [
  -- THREAD_STATE (R445)
  ⟨1, .u8, .scalar, .ro, 0, 0, .all, [0]⟩,
  -- PC (R445)
  ⟨2, .u64, .scalar, .ro, 0, 0, .all, [0]⟩,
  -- DB_TAKEN (R445)
  ⟨3, .u32, .scalar, .ro, 0, 0, .all, [0]⟩,
  -- SEM (R445)
  ⟨4, .u32, .scalar, .ro, 0, 0, .all, [0]⟩,
  -- CHAN_OFF (R445)
  ⟨5, .i64, .scalar, .ro, 0, 0, .all, [0]⟩,
  -- FAR_OFF (R445)
  ⟨6, .i64, .scalar, .ro, 0, 0, .all, [0]⟩,
  -- LOOP_LEFT (R445)
  ⟨7, .u32, (.array 4), .ro, 0, 0, .all, List.replicate 4 0⟩,
  -- BYTES_MOVED (R445)
  ⟨8, .u64, .scalar, .ro, 0, 0, .all, [0]⟩,
  -- INSTR_DONE (R445)
  ⟨9, .u64, .scalar, .ro, 0, 0, .all, [0]⟩,
  -- WAIT_TIMEOUTS (R445)
  ⟨10, .u32, .scalar, .ro, 0, 0, .all, [0]⟩,
  -- ERR_CODE (R445)
  ⟨11, .u8, .scalar, .ro, 0, 0, .all, [0]⟩,
  -- ERR_WHERE (R445)
  ⟨12, .u8, .scalar, .ro, 0, 0, .all, [0]⟩,
  -- ERR_ADDR (R445)
  ⟨13, .u64, .scalar, .ro, 0, 0, .all, [0]⟩,
  -- ERR_PC (R445)
  ⟨14, .u64, .scalar, .ro, 0, 0, .all, [0]⟩,
  -- ERR_ENTRY (R445)
  ⟨15, .u32, .scalar, .ro, 0, 0, .all, [0]⟩,
  -- ERR_DONE (R445)
  ⟨16, .u64, .scalar, .ro, 0, 0, .all, [0]⟩]

/-- Index 8780h. -/
def rows8780 : List ObjInfo := [
  -- C_IC_ENABLE (R480)
  ⟨1, .bool, .scalar, .rw, 0, 0, (.within 0 1), [0]⟩,
  -- C_IC_SRC_CFG (R480)
  ⟨2, .u32, (.array 161), .rw, 0, 0, .all, List.replicate 161 0⟩,
  -- C_IC_PENDING (R480)
  ⟨3, .u32, (.array 8), .ro, 0, 0, .all, List.replicate 8 0⟩,
  -- C_IC_ACTIVE (R480)
  ⟨4, .u32, (.array 8), .ro, 0, 0, .all, List.replicate 8 0⟩,
  -- C_IC_VSTATUS (R480)
  ⟨5, .u32, (.array 64), .ro, 0, 0, .all, List.replicate 64 0⟩,
  -- C_IC_MSG_COUNT (R480)
  ⟨6, .u32, (.array 64), .ro, 0, 0, .all, List.replicate 64 0⟩,
  -- C_IC_FLAGS (R480)
  ⟨7, .u8, .scalar, .w1c, 0, 1, .all, [0]⟩,
  -- C_IC_ERR (R480)
  ⟨8, .u32, .scalar, .ro, 0, 0, .all, [0]⟩,
  -- C_IC_SPURIOUS (R480)
  ⟨9, .u32, (.array 2), .ro, 0, 0, .all, [0, 0]⟩,
  -- C_IC_SWI_SET (R480)
  ⟨10, .u8, .scalar, .wo, 0, 0, .all, []⟩]

/-- Index 87C0h. -/
def rows87C0 : List ObjInfo := [
  -- CLOG_FLAGS (R498)
  ⟨1, .u8, .scalar, .w1c, 0, 3, .all, [0]⟩,
  -- CTRACE_SEL (R498)
  ⟨2, .u32, (.array 6), .rw, 0, 0, .all, List.replicate 6 0⟩,
  -- CLOG_MIN_CLASS (R498)
  ⟨3, .u8, .scalar, .rw, 1, 0, (.within 0 2), [1]⟩]

/-- Index 87C8h. -/
def rows87C8 : List ObjInfo := [
  -- C_LRING_ADDR (R497)
  ⟨1, .u64, .scalar, .rs, 1, 0, (.multiple 4096), [0]⟩,
  -- C_LRING_SIZE (R497)
  ⟨2, .u32, .scalar, .rs, 1, 0, (.multiple 4096), [0]⟩,
  -- C_LRING_WR (R497)
  ⟨3, .u32, .scalar, .ro, 0, 0, .all, [0]⟩,
  -- C_LRING_RD (R497)
  ⟨4, .u32, .scalar, .rw, 0, 0, (.multiple 64), [0]⟩,
  -- C_LRING_WB_ADDR (R497)
  ⟨5, .u64, .scalar, .rs, 1, 0, (.multiple 4), [0]⟩,
  -- C_LRING_IRQ_N (R497)
  ⟨6, .u16, .scalar, .rw, 1, 0, .all, [1]⟩]

/-- Index 87D0h. -/
def rows87D0 : List ObjInfo := [
  -- C_DROPPED_TRACE (R497)
  ⟨1, .u32, .scalar, .ro, 0, 0, .all, [0]⟩,
  -- C_DROPPED_EVENT (R497)
  ⟨2, .u32, .scalar, .ro, 0, 0, .all, [0]⟩,
  -- C_ALARMS_FOLDED (R497)
  ⟨3, .u32, .scalar, .ro, 0, 0, .all, [0]⟩,
  -- C_GAP_RECORDS (R497)
  ⟨4, .u32, .scalar, .ro, 0, 0, .all, [0]⟩,
  -- C_STORM_RECORDS (R497)
  ⟨5, .u32, .scalar, .ro, 0, 0, .all, [0]⟩,
  -- C_WRITTEN (R497)
  ⟨6, .u64, .scalar, .ro, 0, 0, .all, [0]⟩,
  -- C_FILL (R497)
  ⟨7, .u16, .scalar, .ro, 0, 0, .all, [0]⟩]

/-- The rows of a base index. -/
def rowsAt (i : Nat) : List ObjInfo :=
  if i < 0x8180 then
    if i < 0x3000 then
      if i < 0x2140 then
        if i < 0x2090 then
          if i < 0x1200 then
            if i < 0x1100 then
              if i = 0x1000 then rows1000 else []
            else
              if i = 0x1100 then rows1100 else []
          else
            if i < 0x2000 then
              if i = 0x1200 then rows1200 else []
            else
              if i < 0x2080 then
                if i = 0x2000 then rows2000 else []
              else
                if i = 0x2080 then rows2080 else []
        else
          if i < 0x2101 then
            if i < 0x2100 then
              if i = 0x2090 then rows2090 else []
            else
              if i = 0x2100 then rows2100 else []
          else
            if i < 0x2110 then
              if i = 0x2101 then rows2101 else []
            else
              if i < 0x2130 then
                if i = 0x2110 then rows2110 else []
              else
                if i = 0x2130 then rows2130 else []
      else
        if i < 0x2200 then
          if i < 0x21F0 then
            if i < 0x2180 then
              if i = 0x2140 then rows2140 else []
            else
              if i = 0x2180 then rows2180 else []
          else
            if i < 0x21F8 then
              if i = 0x21F0 then rows21F0 else []
            else
              if i < 0x21F9 then
                if i = 0x21F8 then rows21F8 else []
              else
                if i = 0x21F9 then rows21F9 else []
        else
          if i < 0x2308 then
            if i < 0x2300 then
              if i = 0x2200 then rows2200 else []
            else
              if i = 0x2300 then rows2300 else []
          else
            if i < 0x2400 then
              if i = 0x2308 then rows2308 else []
            else
              if i < 0x2440 then
                if i = 0x2400 then rows2400 else []
              else
                if i = 0x2440 then rows2440 else []
    else
      if i < 0x3200 then
        if i < 0x3100 then
          if i < 0x3010 then
            if i < 0x3008 then
              if i = 0x3000 then rows3000 else []
            else
              if i = 0x3008 then rows3008 else []
          else
            if i < 0x3018 then
              if i = 0x3010 then rows3010 else []
            else
              if i < 0x3020 then
                if i = 0x3018 then rows3018 else []
              else
                if i = 0x3020 then rows3020 else []
        else
          if i < 0x3108 then
            if i < 0x3101 then
              if i = 0x3100 then rows3100 else []
            else
              if i = 0x3101 then rows3101 else []
          else
            if i < 0x3110 then
              if i = 0x3108 then rows3108 else []
            else
              if i < 0x3118 then
                if i = 0x3110 then rows3110 else []
              else
                if i = 0x3118 then rows3118 else []
      else
        if i < 0x8112 then
          if i < 0x8100 then
            if i < 0x8000 then
              if i = 0x3200 then rows3200 else []
            else
              if i = 0x8000 then rows8000 else []
          else
            if i < 0x8108 then
              if i = 0x8100 then rows8100 else []
            else
              if i < 0x8110 then
                if i = 0x8108 then rows8108 else []
              else
                if i = 0x8110 then rows8110 else []
        else
          if i < 0x8118 then
            if i < 0x8113 then
              if i = 0x8112 then rows8112 else []
            else
              if i = 0x8113 then rows8113 else []
          else
            if i < 0x8120 then
              if i = 0x8118 then rows8118 else []
            else
              if i < 0x8128 then
                if i = 0x8120 then rows8120 else []
              else
                if i = 0x8128 then rows8128 else []
  else
    if i < 0x8500 then
      if i < 0x8388 then
        if i < 0x8210 then
          if i < 0x8189 then
            if i < 0x8188 then
              if i = 0x8180 then rows8180 else []
            else
              if i = 0x8188 then rows8188 else []
          else
            if i < 0x8200 then
              if i = 0x8189 then rows8189 else []
            else
              if i < 0x8208 then
                if i = 0x8200 then rows8200 else []
              else
                if i = 0x8208 then rows8208 else []
        else
          if i < 0x8308 then
            if i < 0x8300 then
              if i = 0x8210 then rows8210 else []
            else
              if i = 0x8300 then rows8300 else []
          else
            if i < 0x8310 then
              if i = 0x8308 then rows8308 else []
            else
              if i < 0x8380 then
                if i = 0x8310 then rows8310 else []
              else
                if i = 0x8380 then rows8380 else []
      else
        if i < 0x8400 then
          if i < 0x8398 then
            if i < 0x8390 then
              if i = 0x8388 then rows8388 else []
            else
              if i = 0x8390 then rows8390 else []
          else
            if i < 0x83A0 then
              if i = 0x8398 then rows8398 else []
            else
              if i < 0x83A8 then
                if i = 0x83A0 then rows83A0 else []
              else
                if i = 0x83A8 then rows83A8 else []
        else
          if i < 0x8410 then
            if i < 0x8408 then
              if i = 0x8400 then rows8400 else []
            else
              if i = 0x8408 then rows8408 else []
          else
            if i < 0x8418 then
              if i = 0x8410 then rows8410 else []
            else
              if i < 0x8420 then
                if i = 0x8418 then rows8418 else []
              else
                if i = 0x8420 then rows8420 else []
    else
      if i < 0x8600 then
        if i < 0x8580 then
          if i < 0x8510 then
            if i < 0x8508 then
              if i = 0x8500 then rows8500 else []
            else
              if i = 0x8508 then rows8508 else []
          else
            if i < 0x8518 then
              if i = 0x8510 then rows8510 else []
            else
              if i < 0x8520 then
                if i = 0x8518 then rows8518 else []
              else
                if i = 0x8520 then rows8520 else []
        else
          if i < 0x8582 then
            if i < 0x8581 then
              if i = 0x8580 then rows8580 else []
            else
              if i = 0x8581 then rows8581 else []
          else
            if i < 0x8584 then
              if i = 0x8582 then rows8582 else []
            else
              if i < 0x8588 then
                if i = 0x8584 then rows8584 else []
              else
                if i = 0x8588 then rows8588 else []
      else
        if i < 0x8708 then
          if i < 0x8610 then
            if i < 0x8608 then
              if i = 0x8600 then rows8600 else []
            else
              if i = 0x8608 then rows8608 else []
          else
            if i < 0x8680 then
              if i = 0x8610 then rows8610 else []
            else
              if i < 0x8700 then
                if i = 0x8680 then rows8680 else []
              else
                if i = 0x8700 then rows8700 else []
        else
          if i < 0x87C0 then
            if i < 0x8710 then
              if i = 0x8708 then rows8708 else []
            else
              if i < 0x8780 then
                if i = 0x8710 then rows8710 else []
              else
                if i = 0x8780 then rows8780 else []
          else
            if i < 0x87C8 then
              if i = 0x87C0 then rows87C0 else []
            else
              if i < 0x87D0 then
                if i = 0x87C8 then rows87C8 else []
              else
                if i = 0x87D0 then rows87D0 else []

/-- The base index of a replicated index (R103, R124, R138, R151, R194, R217, R218, R242, R271, R293, R322, R351, R374, R395, R445).
`i` is a common index, or a channel index in the SW0 form. -/
def baseIndex (i : Nat) : Nat :=
  if i < 0x2000 then i
  else if i < 0x2080 then (if i % 16 = 0 then 0x2000 else 0)
  else if i < 0x2094 ∧ 0x2090 ≤ i then 0x2090
  else if i = 0x2120 then 0x2110
  else if 0x2140 ≤ i ∧ i < 0x2180 then 0x2140
  else if 0x21F0 ≤ i ∧ i < 0x21F6 then 0x21F0
  else if i < 0x8108 then i
  else if i < 0x8300 then
    (if i < 0x810C then 0x8108
     else if 0x8120 ≤ i ∧ i < 0x8124 then 0x8120
     else if 0x8128 ≤ i ∧ i < 0x812C then 0x8128
     else if 0x8180 ≤ i ∧ i < 0x8188 then 0x8180
     else if 0x8208 ≤ i ∧ i < 0x820C then 0x8208
     else if 0x8210 ≤ i ∧ i < 0x8214 then 0x8210
     else i)
  else if i < 0x8500 then
    (if 0x8308 ≤ i ∧ i < 0x830C then 0x8308
     else if 0x8310 ≤ i ∧ i < 0x8314 then 0x8310
     else if 0x8388 ≤ i ∧ i < 0x838C then 0x8388
     else if 0x8390 ≤ i ∧ i < 0x8394 then 0x8390
     else if 0x8398 ≤ i ∧ i < 0x839C then 0x8398
     else if 0x83A0 ≤ i ∧ i < 0x83A2 then 0x83A0
     else if 0x83A8 ≤ i ∧ i < 0x83AA then 0x83A8
     else i)
  else
    (if 0x8508 ≤ i ∧ i < 0x850C then 0x8508
     else if 0x8510 ≤ i ∧ i < 0x8514 then 0x8510
     else if 0x8588 ≤ i ∧ i < 0x8590 then 0x8588
     else if i = 0x8609 then 0x8608
     else if 0x8708 ≤ i ∧ i < 0x8710 then 0x8708
     else if 0x8710 ≤ i ∧ i < 0x8718 then 0x8710
     else i)

/-- The row of an object key (`256·index + sub`, a channel's in the SW0 form); subindex 00 is the highest subindex (R56). -/
def objInfo (k : Nat) : Option ObjInfo :=
  let rows := rowsAt (baseIndex (k / 256))
  if k % 256 = 0 then
    match rows with
    | [] => none
    | _ => some ⟨0, .u8, .scalar, .const, 0, 0, .all, [rows.foldl (fun m r => max m r.sub) 0]⟩
  else rows.find? fun r => r.sub = k % 256

/-- The default of an object, with the defaults that differ between copies of one index:
TBL_BASE 16,384·h (R242), TX_FIR of the Boardwalk lanes (R218), timing set B (R395). -/
def dfltOf (k : Nat) : List Nat :=
  let i := k / 256
  let s := k % 256
  if 0x8208 ≤ i ∧ i < 0x820C ∧ s = 0x0B then [16384 * (i - 0x8208)]
  else if 0x21F2 ≤ i ∧ i < 0x21F6 ∧ s = 0x21 then [4, 48, 11]
  else if k = 0x820002 ∨ k = 0x820003 then bankDefault
  else if i = 0x8609 ∧ s = 0x01 then [6400]
  else if i = 0x8609 ∧ s = 0x03 then [18, 9, 24, 0]
  else match objInfo k with
    | some r => r.dflt
    | none => []

end Sys2Proof.Machine
end

