-- ==== Sys2Proof/Machine/Deflate.lean ====
section
/-!
DEFINITION. DEFLATE (RFC 1951) and zlib framing (RFC 1950) as chapter 14 uses them: codes, the decoder symbol by symbol, the encoder as a
list of symbols, Adler-32 and the pre-filters.
-/

namespace Sys2Proof.Machine

/-! ## Bits of a stream, the first bit of a byte being its least significant one -/

/-- The bits of a byte. -/
def byteBits (b : Nat) : List Bool := (List.range 8).map fun i => bit b i
/-- The bits of bytes. -/
def bytesBits (bs : List Nat) : List Bool := bs.flatMap byteBits
/-- The number bits spell, least significant first. -/
def bitsNat : List Bool → Nat
  | [] => 0
  | b :: r => b2n b + 2 * bitsNat r
/-- `n` bits of a number, least significant first. -/
def natBits (n v : Nat) : List Bool := (List.range n).map fun i => bit v i
/-- `n` bits of a Huffman code, most significant first. -/
def codeBits (n v : Nat) : List Bool := (natBits n v).reverse
/-- The whole bytes of bits, and the bits left. -/
def packBits : Nat → List Bool → List Nat × List Bool
  | 0, bs => ([], bs)
  | k + 1, bs => if bs.length < 8 then ([], bs) else
      let (r, rest) := packBits k (bs.drop 8)
      (bitsNat (bs.take 8) :: r, rest)

/-! ## Huffman codes -/

/-- How many of the code lengths are `l`. -/
def lenCount (lens : List Nat) (l : Nat) : Nat := (lens.filter (· == l)).length
/-- The first code of length `l`. -/
def firstCode (lens : List Nat) : Nat → Nat
  | 0 => 0
  | l + 1 => (firstCode lens l + (if l = 0 then 0 else lenCount lens l)) * 2
/-- The code of symbol `s`: its length and value; length 0 where it has none. -/
def symCode (lens : List Nat) (s : Nat) : Nat × Nat :=
  let l := lens.getD s 0
  if l = 0 then (0, 0) else (l, firstCode lens l + lenCount (lens.take s) l)
/-- The bits of symbol `s`. -/
def symBits (lens : List Nat) (s : Nat) : List Bool := let (l, v) := symCode lens s; codeBits l v
/-- The share of the code space in use, in 2^-15. -/
def kraft (lens : List Nat) : Nat := lens.foldl (fun a l => if l = 0 then a else a + 2 ^ (15 - l)) 0

/-- The symbol of length `l` and code value `v`. -/
def codeSym (lens : List Nat) (l v : Nat) : Option Nat :=
  let f := firstCode lens l
  if v < f ∨ f + lenCount lens l ≤ v then none else
    (((List.range lens.length).filter fun s => lens.getD s 0 == l)[v - f]?)

/-- What reading from a stream gives: a value and the bits after it, an end of the bits, or an error code. -/
inductive Parse (α : Type)
  | ok (a : α) (rest : List Bool)
  | more
  | bad (code : Nat)

/-- Read `n` bits as a number. -/
def readBits (n : Nat) (bs : List Bool) : Parse Nat := if bs.length < n then .more else .ok (bitsNat (bs.take n)) (bs.drop n)

/-- Read a symbol: at most `fuel` bits, `l` of them read with value `v`. Bits that no code begins with: error `err`, whatever follows; the codes
fill the code space from 0 up. -/
def readSym (lens : List Nat) (err : Nat) : Nat → Nat → Nat → List Bool → Parse Nat
  | 0, _, _, _ => .bad err
  | _ + 1, _, _, [] => .more
  | k + 1, l, v, b :: r =>
    match codeSym lens (l + 1) (2 * v + b2n b) with
    | some s => .ok s r
    | none => if kraft lens ≤ (2 * v + b2n b) * 2 ^ (14 - l) then .bad err else readSym lens err k (l + 1) (2 * v + b2n b) r

/-- Code lengths of the fixed literal/length code and distance code (RFC 1951 3.2.6). -/
def fixedLit : List Nat := List.replicate 144 8 ++ List.replicate 112 9 ++ List.replicate 24 7 ++ List.replicate 8 8
def fixedDist : List Nat := List.replicate 32 5

/-- Extra bits and base of length code 257 + i. -/
def lenExtra (i : Nat) : Nat := if i < 8 ∨ i = 28 then 0 else (i - 4) / 4
def lenBase (i : Nat) : Nat := if i = 28 then 258 else if i < 8 then 3 + i else 3 + (4 + i % 4) * 2 ^ ((i - 4) / 4)
/-- Extra bits and base of distance code i. -/
def distExtra (i : Nat) : Nat := if i < 4 then 0 else (i - 2) / 2
def distBase (i : Nat) : Nat := if i < 4 then 1 + i else 1 + (2 + i % 2) * 2 ^ ((i - 2) / 2)
/-- The code of a length and of a distance. -/
def lenCode (n : Nat) : Nat := if n = 258 then 28 else ((List.range 28).filter fun i => lenBase i ≤ n).getLastD 0
def distCode (d : Nat) : Nat := ((List.range 30).filter fun i => distBase i ≤ d).getLastD 0

/-- The order of the code length code lengths. -/
def clenOrder : List Nat := [16, 17, 18, 0, 8, 7, 9, 6, 10, 5, 11, 4, 12, 3, 13, 2, 14, 1, 15]

/-- Code lengths read with the code length code until `n` of them are there. -/
def readLens (cl : List Nat) (n : Nat) : Nat → List Nat → List Bool → Parse (List Nat)
  | 0, _, _ => .bad 6
  | k + 1, got, bs =>
    if got.length = n then .ok got bs else
      match readSym cl 6 7 0 0 bs with
      | .more => .more
      | .bad e => .bad e
      | .ok s r =>
        let rep (v ext base : Nat) : Parse (List Nat) :=
          match readBits ext r with
          | .more => .more
          | .bad e => .bad e
          | .ok x r => if n < got.length + base + x then .bad 6 else readLens cl n k (got ++ List.replicate (base + x) v) r
        if s < 16 then readLens cl n k (got ++ [s]) r
        else if s = 16 then (match got.getLast? with | none => .bad 6 | some v => rep v 2 3)
        else if s = 17 then rep 0 3 3 else rep 0 7 11

/-- Complete sets of code lengths; a distance set may be incomplete with at most one code. -/
def lensOk (dist : Bool) (lens : List Nat) : Bool :=
  kraft lens == 32768 || (dist && decide ((lens.filter (· != 0)).length ≤ 1) && lens.all (· ≤ 1))

/-- The two codes of a dynamic block (RFC 1951 3.2.7); BAD_HEADER is 6. -/
def readDynamic (bs : List Bool) : Parse (List Nat × List Nat) :=
  match readBits 14 bs with
  | .more => .more
  | .bad e => .bad e
  | .ok h bs =>
    let hlit := h % 32 + 257
    let hdist := h / 32 % 32 + 1
    let hclen := h / 1024 + 4
    if 286 < hlit ∨ 30 < hdist then .bad 6
    else match readBits (3 * hclen) bs with
      | .more => .more
      | .bad e => .bad e
      | .ok x bs =>
        let cl := (List.range 19).map fun (s : Nat) =>
          let i := (clenOrder.findIdx? (· == s)).getD 19
          if i < hclen then x / 8 ^ i % 8 else 0
        if kraft cl ≠ 32768 then .bad 6
        else match readLens cl (hlit + hdist) 400 [] bs with
          | .more => .more
          | .bad e => .bad e
          | .ok ls bs =>
            if lensOk false (ls.take hlit) && lensOk true (ls.drop hlit) then .ok (ls.take hlit, ls.drop hlit) bs else .bad 6

/-! ## Adler-32 -/

/-- Adler-32 continued over bytes. -/
def adler (a : Nat) (bs : List Nat) : Nat :=
  let (x, y) := bs.foldl (fun (x, y) b => let x := (x + b) % 65521; (x, (y + x) % 65521)) (a % 65536, a / 65536)
  x + 65536 * y

/-! ## The pre-filters (R406) -/

/-- The prediction of a sample. -/
def predict (f top a b c : Nat) : Nat :=
  match f with
  | 1 => a
  | 2 => b
  | 3 => (a + b) / 2
  | _ => min top (a + b - c)

/-- Samples of a line through the filter, forward or inverse: those to come, those of the line above to come and passed (newest first),
and the unfiltered samples of this line passed, newest first. -/
def filtGo (inv : Bool) (f planes md : Nat) : List Nat → List Nat → List Nat → List Nat → List Nat
  | [], _, _, _ => []
  | x :: xs, ps, pb, os =>
    let b := ps.headD 0
    let p := predict f (md - 1) (os.getD (planes - 1) 0) b (pb.getD (planes - 1) 0)
    let y := if inv then (x + p) % md else (x + md - p % md) % md
    y :: filtGo inv f planes md xs ps.tail (b :: pb) ((if inv then y else x) :: os)

/-- The samples of bytes; a last one may have its low byte only. -/
def toSamples (sb : Nat) (bs : List Nat) : List Nat :=
  if sb = 2 then (List.range (cdiv bs.length 2)).map fun (i : Nat) => bs.getD (2 * i) 0 + 256 * bs.getD (2 * i + 1) 0 else bs

/-- A line of bytes, or its beginning, through the filter. -/
def filtLine (inv : Bool) (f sb planes : Nat) (prev cur : List Nat) : List Nat :=
  ((filtGo inv f planes (256 ^ sb) (toSamples sb cur) (toSamples sb prev) [] []).flatMap (leBytes sb)).take cur.length

/-- What a filter keeps: the unfiltered line above, and what has come in of this line. -/
structure FiltSt where
  prev : List Nat := []
  cur : List Nat := []
deriving DecidableEq, Repr

/-- Bytes of a stream through the filter, line by line. -/
def filtFeed (inv : Bool) (f sb planes lb : Nat) : Nat → FiltSt → List Nat → List Nat × FiltSt
  | 0, st, _ => ([], st)
  | k + 1, st, bs =>
    if f = 0 then (bs, st) else if bs = [] then ([], st) else
      let chunk := bs.take (lb - st.cur.length)
      let cur := st.cur ++ chunk
      let line := filtLine inv f sb planes st.prev cur
      let st' : FiltSt := if lb ≤ cur.length then { prev := if inv then line else cur, cur := [] } else { st with cur := cur }
      let (r, st'') := filtFeed inv f sb planes lb k st' (bs.drop chunk.length)
      (line.drop st.cur.length ++ r, st'')

/-! ## Matches -/

/-- `n` bytes copied from `d` back; `hist` is newest first. The bytes, newest first on top of `hist`. -/
def copyMatch : Nat → Nat → List Nat → List Nat
  | 0, _, hist => hist
  | n + 1, d, hist => copyMatch n d (hist.getD (d - 1) 0 :: hist)

/-- The window: the newest 32,768 bytes. -/
def window (hist : List Nat) : List Nat := hist.take 32768

/-- The literals (byte, 0) and matches (length, distance) of a block; the search looks at the window and at the rest of the block. -/
def tokens : Nat → List Nat → List Nat → List (Nat × Nat)
  | 0, _, _ => []
  | k + 1, hist, data =>
    match data with
    | [] => []
    | b :: rest =>
      let (n, d) := Config.matchSearch hist data
      if 3 ≤ n ∧ n ≤ 258 ∧ n ≤ data.length ∧ 1 ≤ d ∧ d ≤ hist.length ∧ (copyMatch n d hist).take n = (data.take n).reverse then
        (n, d) :: tokens k (window (copyMatch n d hist)) (data.drop n)
      else (b, 0) :: tokens k (window (b :: hist)) rest

/-- The bits of a token under a block's codes. -/
def tokenBits (lit dist : List Nat) (t : Nat × Nat) : List Bool :=
  if t.2 = 0 then symBits lit t.1 else
    let lc := lenCode t.1
    let dc := distCode t.2
    symBits lit (257 + lc) ++ natBits (lenExtra lc) (t.1 - lenBase lc) ++ symBits dist dc ++ natBits (distExtra dc) (t.2 - distBase dc)

/-- A block's codes give every token and the end of block a code. -/
def covers (lit dist : List Nat) (ts : List (Nat × Nat)) : Bool :=
  lit.getD 256 0 != 0 && ts.all fun t =>
    if t.2 = 0 then lit.getD t.1 0 != 0 else lit.getD (257 + lenCode t.1) 0 != 0 && dist.getD (distCode t.2) 0 != 0

/-! ## The encoder (R405, R411) -/

/-- An open block: its encoding (0 stored, 1 fixed, 2 dynamic), the input bytes left in it, its codes, and whether it is the last. -/
structure OpenBlock where
  enc : Nat
  left : Nat
  lit : List Nat := []
  dist : List Nat := []
  last : Bool
deriving DecidableEq, Repr

/-- Where a compression stream is: zlib header bytes owed, between or in blocks, padding owed, trailer bytes owed, ended. -/
inductive CPhase
  | head (n : Nat)
  | blocks (b : Option OpenBlock)
  | pad
  | trailer (n : Nat)
  | done
deriving DecidableEq, Repr

/-- A symbol: its bits (`none`: padding to a byte), the input bytes it stands for, where the stream is after it, a stored block's header. -/
structure CSym where
  bits : Option (List Bool)
  take : Nat
  after : CPhase
  stored : Bool := false
deriving DecidableEq, Repr

/-- After a block. -/
def afterBlock (last : Bool) : CPhase := if last then .pad else .blocks none

/-- The symbols of the rest of a block, for the bytes before it and its bytes. -/
def bodySyms (b : OpenBlock) (hist data : List Nat) : List CSym :=
  if b.enc = 0 then
    data.mapIdx fun i x => { bits := some (byteBits x), take := 1,
                             after := if i + 1 = data.length then afterBlock b.last else .blocks (some { b with left := data.length - i - 1 }) }
  else
    let ts := tokens data.length (window hist) data
    let step (acc : Nat × List CSym) (t : Nat × Nat) : Nat × List CSym :=
      let n := if t.2 = 0 then 1 else t.1
      (acc.1 - n, acc.2 ++ [{ bits := some (tokenBits b.lit b.dist t), take := n, after := .blocks (some { b with left := acc.1 - n }) }])
    (ts.foldl step (data.length, [])).2 ++ [{ bits := some (symBits b.lit 256), take := 0, after := afterBlock b.last }]

/-- The symbols of a block opened at bit `pos` of a byte: the permitted encoding with the fewest bits, stored before fixed before dynamic. -/
def blockSyms (level : Nat) (last : Bool) (pos : Nat) (hist data : List Nat) : List CSym :=
  let n := data.length
  let padS := (8 - (pos + 3) % 8) % 8
  let storedBits := 3 + padS + 32 + 8 * n
  let hd (bt : Nat) : List Bool := [last] ++ natBits 2 bt
  let st : OpenBlock := { enc := 0, left := n, last := last }
  let open_ : CPhase := if n = 0 then afterBlock last else .blocks (some st)
  let sHead := hd 0 ++ List.replicate padS false ++ natBits 16 n ++ natBits 16 (65535 - n)
  let stored : List CSym := { bits := some sHead, take := 0, after := open_, stored := true } :: bodySyms st hist data
  if level = 0 then stored else
    let ts := tokens n (window hist) data
    let size (lit dist : List Nat) : Nat := (ts.map fun t => (tokenBits lit dist t).length).sum + lit.getD 256 0
    let fixedBits := 3 + size fixedLit fixedDist
    let fx : OpenBlock := { enc := 1, left := n, lit := fixedLit, dist := fixedDist, last := last }
    let fixed : List CSym := { bits := some (hd 1), take := 0, after := .blocks (some fx) } :: bodySyms fx hist data
    let dyn : Option (Nat × List CSym) :=
      if level = 2 then
        let h := Config.dynHeader ts
        match readDynamic h with
        | .ok (lit, dist) [] =>
          if covers lit dist ts then
            let d : OpenBlock := { enc := 2, left := n, lit := lit, dist := dist, last := last }
            some (3 + h.length + size lit dist, { bits := some (hd 2 ++ h), take := 0, after := .blocks (some d) } :: bodySyms d hist data)
          else none
        | _ => none
      else none
    let (b, s) := if storedBits ≤ fixedBits then (storedBits, stored) else (fixedBits, fixed)
    match dyn with
    | some (db, ds) => if db < b then ds else s
    | none => s

/-- Bits of symbols after bit `pos` of a byte. -/
def symsPos (pos : Nat) (l : List CSym) : Nat := l.foldl (fun p s => match s.bits with | some b => (p + b.length) % 8 | none => 0) pos

/-- The blocks of the input, cut every `bl` bytes; with `final` the last carries BFINAL, and one block is there even without input. -/
def blocksSyms (level bl : Nat) (final : Bool) : Nat → Nat → List Nat → List Nat → List CSym
  | 0, _, _, _ => []
  | k + 1, pos, hist, data =>
    let d := data.take bl
    let rest := data.drop bl
    let last := final && rest.isEmpty
    let s := blockSyms level last pos hist d
    s ++ (if rest.isEmpty then [] else blocksSyms level bl final k (symsPos pos s) (d.reverse ++ hist) rest)

/-- The symbols of a job from where its stream is: header, open block, blocks, padding and trailer (R405, R411); none for a job without input
that does not end the stream (R416). `sum` is the Adler-32 of the whole stream. -/
def jobSyms (level bl : Nat) (zlib final : Bool) (sum pos : Nat) (hist data : List Nat) (ph : CPhase) : List CSym :=
  if data = [] ∧ final = false then [] else
  let flg := match level with | 0 => 1 | 1 => 0x5E | _ => 0x9C
  let trailer (n : Nat) : List CSym := (List.range n).map fun (i : Nat) =>
    { bits := some (byteBits (sum / 256 ^ (n - 1 - i) % 256)), take := 0, after := if i + 1 = n then .done else .trailer (n - 1 - i) }
  let ending : List CSym := { bits := none, take := 0, after := if zlib then .trailer 4 else .done } :: (if zlib then trailer 4 else [])
  let fresh (pos : Nat) (hist data : List Nat) : List CSym := blocksSyms level bl final (data.length + 1) pos hist data
  let tail : List CSym := if final then ending else []
  match ph with
  | .head n =>
    let h : List CSym := (List.range n).map fun (i : Nat) =>
      { bits := some (byteBits (if n - 1 - i = 1 then 0x78 else flg)), take := 0,
        after := if i + 1 = n then .blocks none else .head (n - 1 - i) }
    h ++ fresh pos hist data ++ tail
  | .blocks none => fresh pos hist data ++ tail
  | .blocks (some b) =>
    let body := bodySyms b hist (data.take b.left)
    let rest := data.drop b.left
    body ++ (if b.last ∨ (rest = [] ∧ final = false) then [] else if rest = [] then blocksSyms level bl true 1 (symsPos pos body)
      ((data.take b.left).reverse ++ hist) [] else blocksSyms level bl final (rest.length + 1) (symsPos pos body) ((data.take b.left).reverse ++ hist) rest)
      ++ tail
  | .pad => ending
  | .trailer n => trailer n
  | .done => []

/-- What emitting symbols has come to: bytes out (newest first), held bits, input taken, where the stream is, stored blocks, symbols. -/
structure Emit where
  out : List Nat := []
  held : List Bool
  room : Nat
  taken : Nat := 0
  phase : CPhase
  stored : Nat := 0
  count : Nat := 0
  /-- bits of the symbols emitted -/
  sent : Nat := 0
  /-- output has been refused -/
  full : Bool := false
deriving DecidableEq, Repr

/-- One symbol goes out where all its bits fit in whole bytes of the output; `split` writes what fits of one that does not (R411, R415). -/
def emitSym (split : Bool) (e : Emit) (s : CSym) : Emit :=
  if e.full then e else
    let bs := e.held ++ (match s.bits with | some b => b | none => List.replicate ((8 - e.held.length % 8) % 8) false)
    let (bytes, rest) := packBits (bs.length / 8) bs
    if cdiv bs.length 8 ≤ e.room then
      { e with out := bytes.reverse ++ e.out, held := rest, room := e.room - bytes.length, taken := e.taken + s.take, phase := s.after,
               stored := e.stored + b2n s.stored, count := e.count + 1, sent := e.sent + (bs.length - e.held.length) }
    else if split then { e with out := (bytes.take e.room).reverse ++ e.out, room := 0, full := true }
    else { e with full := true }

/-! ## The decoder (R408-R411) -/

/-- Where a decompression stream is. -/
inductive IPhase
  | head (n : Nat)
  | block
  | stored (left : Nat) (last : Bool)
  | codes (lit dist : List Nat) (last : Bool)
  | trailer (n sum : Nat)
  | done
deriving DecidableEq, Repr

/-- A decompression job under way. -/
structure Infl where
  phase : IPhase
  bits : List Bool
  /-- bits used so far -/
  used : Nat := 0
  /-- the bytes before, newest first, and those of this job, newest first -/
  hist : List Nat
  out : List Nat := []
  room : Nat
  /-- bytes of the stream so far -/
  total : Nat
  sum : Nat
  /-- the rest of a match -/
  pendLen : Nat := 0
  pendDist : Nat := 0
  /-- the bits used before that match -/
  pendAt : Nat := 0
  count : Nat := 0
deriving DecidableEq, Repr

/-- Why decoding stopped: the input ran out, the output is full, the stream ended, an error of R409. -/
inductive IStop
  | input | full | ended | error (code : Nat)
deriving DecidableEq, Repr

namespace Infl

/-- Bits taken up to `rest`. -/
def adv (s : Infl) (rest : List Bool) : Infl := { s with used := s.used + (s.bits.length - rest.length), bits := rest, count := s.count + 1 }

/-- Bytes put out, newest first. -/
def produce (s : Infl) (bs : List Nat) : Infl :=
  { s with out := bs ++ s.out, hist := window (bs ++ s.hist), room := s.room - bs.length, total := s.total + bs.length,
           sum := adler s.sum bs.reverse }

/-- As much of a match as the output reaches; the rest is kept (R411). -/
def copy (s : Infl) (n d : Nat) : Infl :=
  let k := min n s.room
  let s := s.produce ((copyMatch k d s.hist).take k)
  { s with pendLen := n - k, pendDist := if n - k = 0 then 0 else d }

/-- Bytes to the next byte boundary of the stream, where `base` is the stream bit offset of the job's first bit. -/
def toByte (s : Infl) (base : Nat) : Nat := (8 - (base + s.used) % 8) % 8

/-- A phase follows a block. -/
def blockEnd (zlib last : Bool) : IPhase := if last then (if zlib then .trailer 4 0 else .done) else .block

/-- One symbol. `base` is the stream bit offset of the first bit; `expect` limits the stream (0 none). -/
def step (zlib : Bool) (base expect : Nat) (s : Infl) : Infl × Option IStop :=
  if s.pendLen ≠ 0 then (if s.room = 0 then (s, some .full) else (s.copy s.pendLen s.pendDist, none)) else
  match s.phase with
  | .done => (s, some .ended)
  | .head n =>
    match readBits 8 s.bits with
    | .more => (s, some .input)
    | .bad e => (s, some (.error e))
    | .ok x r =>
      if n = 2 then
        if x % 16 ≠ 8 ∨ 7 < x / 16 then (s, some (.error 6)) else ({ (s.adv r) with phase := .head 1, sum := x }, none)
      else if (256 * s.sum + x) % 31 ≠ 0 ∨ bit x 5 = true then (s, some (.error 6))
      else ({ (s.adv r) with phase := .block, sum := 1 }, none)
  | .trailer n acc =>
    match readBits (if n = 4 then s.toByte base + 8 else 8) s.bits with
    | .more => (s, some .input)
    | .bad e => (s, some (.error e))
    | .ok x r =>
      let b := if n = 4 then x / 2 ^ s.toByte base else x
      if n = 1 then
        if 256 * acc + b = s.sum then ({ (s.adv r) with phase := .done }, none) else (s, some (.error 7))
      else ({ (s.adv r) with phase := .trailer (n - 1) (256 * acc + b) }, none)
  | .block =>
    match readBits 3 s.bits with
    | .more => (s, some .input)
    | .bad e => (s, some (.error e))
    | .ok h r =>
      let last := h % 2 == 1
      match h / 2 with
      | 0 =>
        let pad := (8 - (base + s.used + 3) % 8) % 8
        match readBits (pad + 32) r with
        | .more => (s, some .input)
        | .bad e => (s, some (.error e))
        | .ok x r =>
          let x := x / 2 ^ pad
          if x % 65536 + x / 65536 ≠ 65535 then (s, some (.error 5))
          else ({ (s.adv r) with phase := if x % 65536 = 0 then blockEnd zlib last else .stored (x % 65536) last }, none)
      | 1 => ({ (s.adv r) with phase := .codes fixedLit fixedDist last }, none)
      | 2 =>
        match readDynamic r with
        | .more => (s, some .input)
        | .bad e => (s, some (.error e))
        | .ok (lit, dist) r => ({ (s.adv r) with phase := .codes lit dist last }, none)
      | _ => (s, some (.error 6))
  | .stored left last =>
    match readBits 8 s.bits with
    | .more => (s, some .input)
    | .bad e => (s, some (.error e))
    | .ok x r =>
      if s.room = 0 then (s, some .full)
      else if expect ≠ 0 ∧ expect < s.total + 1 then (s, some (.error 4))
      else ({ (s.adv r).produce [x] with phase := if left ≤ 1 then blockEnd zlib last else .stored (left - 1) last }, none)
  | .codes lit dist last =>
    match readSym lit 2 15 0 0 s.bits with
    | .more => (s, some .input)
    | .bad e => (s, some (.error e))
    | .ok x r =>
      if x = 256 then ({ (s.adv r) with phase := blockEnd zlib last }, none)
      else if x < 256 then
        (if s.room = 0 then (s, some .full)
         else if expect ≠ 0 ∧ expect < s.total + 1 then (s, some (.error 4))
         else ((s.adv r).produce [x], none))
      else if 285 < x then (s, some (.error 2))
      else match readBits (lenExtra (x - 257)) r with
        | .more => (s, some .input)
        | .bad e => (s, some (.error e))
        | .ok le r =>
          match readSym dist 2 15 0 0 r with
          | .more => (s, some .input)
          | .bad e => (s, some (.error e))
          | .ok dc r =>
            if 29 < dc then (s, some (.error 2)) else
              match readBits (distExtra dc) r with
              | .more => (s, some .input)
              | .bad e => (s, some (.error e))
              | .ok de r =>
                let n := lenBase (x - 257) + le
                let d := distBase dc + de
                if s.room = 0 then (s, some .full)
                else if s.total < d then (s, some (.error 3))
                else if expect ≠ 0 ∧ expect < s.total + n then (s, some (.error 4))
                else ({ (s.adv r).copy n d with pendAt := s.used }, none)

/-- Symbols until decoding stops; `budget` symbols at most, `none` where they ran out first. -/
def run (zlib : Bool) (base expect : Nat) : Nat → Infl → Infl × Option IStop
  | 0, s => (s, none)
  | k + 1, s =>
    match s.step zlib base expect with
    | (s, some x) => (s, some x)
    | (s, none) => run zlib base expect k s

end Infl

/-- One raw DEFLATE stream from bytes: the bytes it holds, at most `cap` of them; an error code of R409 otherwise. -/
def inflateRaw (cap : Nat) (bs : List Nat) : Except Nat (List Nat) :=
  let s : Infl := { phase := .block, bits := bytesBits bs, hist := [], room := cap, total := 0, sum := 1 }
  match s.run false 0 0 (8 * bs.length + 8) with
  | (s, some .ended) => .ok s.out.reverse
  | (_, some .input) => .error 8
  | (_, some .full) => .error 9
  | (_, some (.error e)) => .error e
  | (_, none) => .error 8

/-- One raw DEFLATE stream of bytes, as the recorder makes it (R359). -/
def deflateRaw (bs : List Nat) : List Nat :=
  let bl := max 1024 (min 65535 Config.recorderBlock)
  let syms := jobSyms Config.recorderLevel.val bl false true 1 0 [] bs (.blocks none)
  ((syms.foldl (emitSym false) { held := [], room := 2 * bs.length + 4096, phase := .blocks none }).out).reverse

end Sys2Proof.Machine
end

