-- ==== Sys2Proof/Machine/State.lean ====
section
/-!
DEFINITION. The state of the block: everything spec/ gives it, as plain data. Common block and six channels (R18), and the queue of
waiting commands. Registers of the object dictionary live in the object stores, under their keys; what is no object has a field.
-/

namespace Sys2Proof.Machine

/-- No command of this block ends in a fault: every error of the spec is an effect (a status code, a flag, a counter).
The type has the one constructor the interface needs. -/
inductive Fault
  /-- Raised by no meaning. Safe: the block never stops. -/
  | none
deriving DecidableEq, Repr

/-- Why a command was refused. -/
inductive Refusal
  /-- Raised by the dispatch for a command without a meaning yet. Safe: nothing is claimed of the command. -/
  | notModelled (mnemonic : String)
deriving DecidableEq, Repr

/-- Objects by key (`256·index + sub`, a channel's in the SW0 form), each a list of raw elements; keys rise, and an object at its
default is not listed. -/
abbrev Store := List (Nat × List Nat)

/-! ## One unit: the common block or a channel, with its PCIe function -/

/-- One interrupt source (R463). PENDING of a level source is not stored: it is its flag. -/
structure SrcState where
  pend : Bool := false
  enable : Bool := false
  active : Bool := false
  prio : Nat := 0
  vec : Nat := 0
  count : Nat := 0
deriving DecidableEq, Repr

/-- One vector: the outstanding bit and the cause (R466). -/
structure VecState where
  outstanding : Bool := false
  cause : Nat := 0
deriving DecidableEq, Repr

/-- One MSI-X table entry and its PBA bit (R452, R468). -/
structure MsixEntry where
  addr : Nat := 0
  data : Nat := 0
  masked : Bool := true
  pba : Bool := false
deriving DecidableEq, Repr

/-- An access of BAR2 (R452) that waits for its channel to wake (R477). -/
inductive Bar2Access
  | read (off size : Nat)
  | write (off : Nat) (data : List Nat)
deriving DecidableEq, Repr

/-- The PCIe function of a unit (R451, R458-R460), and its control page and latches (R88, R92). -/
structure Function where
  busMaster : Bool := false
  memEnable : Bool := false
  d3hot : Bool := false
  /-- the link is in flit mode (R447) -/
  flit : Bool := false
  flr : Bool := false
  /-- the running FLR holds the channel in reset: FLR_SCOPE as it was when the FLR began (R458) -/
  flrHolds : Bool := false
  /-- the writers are held (R459) -/
  held : Bool := true
  msixEnable : Bool := false
  msixMask : Bool := false
  msix : List (Nat × MsixEntry) := []
  /-- Max Payload Size and Max Read Request Size, as 128 · 2^n bytes, and Completion Timeout Disable (R455) -/
  mps : Nat := 0
  mrrs : Nat := 2
  noTimeout : Bool := false
  /-- Completion Timeout Value (R455); 0 is the default range -/
  cplRange : Nat := 0
  /-- AER status bits logged: uncorrectable, correctable -/
  aerUncorr : Nat := 0
  aerCorr : Nat := 0
  /-- AER masks and severity, and the error reporting enables of Device Control: correctable, non-fatal, fatal, unsupported request (R457); their
  reset values are those of the base specification -/
  aerUncorrMask : Nat := 0x400000
  aerSeverity : Nat := 0x462030
  aerCorrMask : Nat := 0xE000
  errEnable : Nat := 0
  /-- accesses of BAR2 that wait for the channel to wake, oldest first (R477) -/
  waiting : List Bar2Access := []
  lowSelect : Nat := 0
  lowOffset : Nat := 0
  lowMore : Bool := false
  barErr : Nat := 0
  barErrCount : Nat := 0
  /-- the read latch: the slot's key and its 16 bytes -/
  readLatch : Option (Nat × List Nat) := none
  /-- the write latch: the slot's key and its bytes 0-7 -/
  writeLatch : Option (Nat × List Nat) := none
deriving DecidableEq, Repr

/-- A record on its way to the logbook (R487-R489); SEQ is given at acceptance. -/
structure LogRec where
  time : Nat
  gen : Nat
  kind : Nat
  origin : Nat
  code : Nat
  arg : Nat := 0
  pos : Pos := 0
  flagValue : Nat := 0
deriving DecidableEq, Repr

/-- What the transmit pins of a duplex lane carry (R209): the pattern by PRBS_SEL, its inversion and its word. -/
inductive LaneTx
  | link
  | pattern (sel : Nat) (inverted : Bool) (word : Nat)
  | idle
  | echo
deriving DecidableEq, Repr

/-- What leaves the block, in order (the newest first in a unit's list). -/
inductive Out
  /-- a datagram of a network port: source address and port, destination address and port, payload -/
  | udp (port srcIp srcPort dstIp dstPort : Nat) (payload : List Nat)
  /-- an ARP or ICMP answer of a port -/
  | arp (port ip mac : Nat)
  | icmp (port ip : Nat) (payload : List Nat)
  /-- an Ethernet frame with a PTP message of a port, with its FCS -/
  | ptp (port : Nat) (frame : List Nat)
  /-- a posted write to host memory -/
  | busWrite (addr : Nat) (bytes : List Nat)
  /-- a read request to host memory of thread `t` -/
  | busRead (thread tag addr len : Nat)
  /-- an MSI-X message -/
  | msix (vector addr data : Nat)
  /-- a completion to the host: status 0 Successful, 1 Unsupported Request, 2 Retry; data -/
  | completion (status : Nat) (bytes : List Nat)
  /-- an error message to the root complex: 0 correctable, 1 non-fatal, 2 fatal (R457) -/
  | errMessage (severity : Nat)
  /-- 8b/10b characters on a BuarnLink back-channel, 100h set in a K character: a frame, a trigger word, or the idle pair that stands
  from there on between frames (R170, R171) -/
  | blChars (link : Nat) (chars : List Nat)
  /-- a CoaXPress trigger packet of a head's trigger, with its delay field (R178) -/
  | cxpTrigger (link head delay : Nat)
  /-- a CoaXPress control packet (R179) -/
  | cxp (link : Nat) (bytes : List Nat)
  /-- a device-originated CoaXPress control packet that writes a register (R179) -/
  | cxpWrite (link addr value : Nat)
  /-- a response of MEM_REQ to a request: tag, status 0 OK, 1 ADDR, 2 UNAVAIL, bytes read -/
  | memResp (chan tag status : Nat) (bytes : List Nat)
  /-- what the transmit pins of duplex lane `lane` carry from now on (R209) -/
  | laneTx (lane : Nat) (content : LaneTx)
  /-- a ring frame out of port `port` (R544) -/
  | bw (port : Nat) (bytes : List Nat)
deriving DecidableEq, Repr

/-- The position broadcast as a unit holds it (R20). -/
structure PosCopy where
  pos : Pos := 0
  stamp : Stamp := 0
  upstream : Bool := false
  standstill : Bool := true
  starting : Bool := false
  /-- failover status: on the secondary, and no source (R116) -/
  failover : Bool := false
  noSource : Bool := true
  /-- this update came by a forward step of R107 or R117 (R345) -/
  stepped : Bool := false
deriving DecidableEq, Repr

/-- What the common block and a channel have alike: objects, interrupt controller, log intake, function, broadcast copies, output. -/
structure Node where
  /-- a channel (160 sources) or the common block (192) -/
  chan : Bool
  /-- the log origin (R486) -/
  origin : Nat
  objs : Store := []
  srcs : List (Nat × SrcState) := []
  vecs : List (Nat × VecState) := []
  fn : Function := {}
  /-- records waiting in the intake, oldest first, at most 16 (R486) -/
  intake : List LogRec := []
  /-- records that found the intake full or were discarded by a channel reset, still to be accounted for (R486) -/
  shed : List LogRec := []
  /-- occurrences sampled for TRACE, by source (R485) -/
  traced : List (Nat × Nat) := []
  /-- sources that became pending and were not yet looked at by the recorder (R364) -/
  fresh : List Nat := []
  /-- TRACE_LOG2 as every origin holds it (R485) -/
  traceLog2 : Nat := 0
  now : Ticks := 0
  /-- device time without the steps it has made: what the intervals of the block's timers are measured on (R128) -/
  mono : Ticks := 0
  posn : PosCopy := {}
  /-- the generation of the last commit broadcast (R20) -/
  gen : Nat := 0
  /-- what has left through the unit, newest first -/
  out : List Out := []
  /-- MODEL's own: the count of free values taken -/
  free : Nat := 0
deriving DecidableEq, Repr

/-! ## The Slate (01) -/

/-- A staged entry (R34, R71). -/
structure Staged where
  key : Nat
  val : List Nat
  isOpen : Bool := false
deriving DecidableEq, Repr

/-- An in-flight set (R42, R45). -/
structure InFlight where
  gen : Nat
  pos : Pos
  /-- later generations folded into it take its place: the first generation it stands for -/
  firstGen : Nat
  entries : Store := []
deriving DecidableEq, Repr

/-- One of the eight stages of R45: the values in force and the sets it holds, oldest first. -/
structure Stage where
  gen : Nat := 0
  base : Store := []
  sets : List InFlight := []
deriving DecidableEq, Repr

/-- The pending host-named Slate (R38). -/
inductive Pending
  | none
  | pos (p : Pos)
  | time (t : Ticks)
deriving DecidableEq, Repr

/-- The Slate sequencer of the common block. -/
structure Sequencer where
  staged : List Staged := []
  /-- direct segmented writes that are open (R71) -/
  openDirect : List Nat := []
  pending : Pending := .none
  /-- the highest multiple of AUTO_PERIOD_POS issued, as a position (R41) -/
  multiple : Int := 0
  /-- the latest of standstill entry, last commit and write of AUTO_PERIOD_TIME (R41) -/
  origin : Ticks := 0
  /-- a Slate has committed since PORST -/
  committed : Bool := false
deriving DecidableEq, Repr

/-- Counts of generations not yet published, by generation and object key (R50), and the newest published generation of each part. -/
structure Publication where
  building : List (Nat × Store) := []
  /-- the newest published generation, by part of the channel -/
  newest : List (Nat × Nat) := []
  /-- replaced snapshots that a SNAPSHOT can still need (R69): part, generation, values -/
  kept : List (Nat × Nat × Store) := []
deriving DecidableEq, Repr

/-- The Slate state of a channel. -/
structure ChanSlate where
  staged : List Staged := []
  openDirect : List Nat := []
  /-- stages 0-7 of R45 -/
  stages : List Stage := List.replicate 8 {}
  /-- a Slate has committed since PORST or the release of the channel reset (R592) -/
  started : Bool := false
  pub : Publication := {}
  /-- Slate positions of the commits, oldest first: generation, position -/
  marks : List (Nat × Pos) := []
deriving DecidableEq, Repr

/-! ## Dictionary paths (02) -/

/-- A KDP session (R83, R84). -/
structure Session where
  port : Nat
  ip : Nat
  udp : Nat
  sid : Nat
  top : Nat
  last : Ticks
  /-- the last 16 answers, newest first: sequence, bytes -/
  answers : List (Nat × List Nat) := []
deriving DecidableEq, Repr

/-- A subscription (R81, R82). -/
structure Subscription where
  port : Nat
  ip : Nat
  udp : Nat
  sid : Nat
  id : Nat
  every : Nat
  /-- object keys (a channel's at its own index) -/
  items : List Nat
  g0 : Nat
  seq : Nat := 0
  lease : Ticks
  /-- the newest generation notified or dropped -/
  doneGen : Option Nat := none
  /-- a notification formed that the port has not sent yet (R82) -/
  waiting : Option (List Nat) := none
deriving DecidableEq, Repr

/-- The dictionary server: sessions, subscriptions and the mailbox of PF0 (R83, R86, R89). -/
structure Server where
  sessions : List Session := []
  subs : List Subscription := []
  mbRequest : List Nat := []
  mbResponse : List Nat := []
  mbBusy : Bool := false
  mbDone : Bool := false
  mbOverrun : Bool := false
  /-- the answer of the running request -/
  mbAnswer : List Nat := []
  /-- PF0's FLR came while the request ran: its answer is discarded (R458) -/
  mbDiscard : Bool := false
deriving DecidableEq, Repr

/-! ## Logbook (18) -/

/-- An accepted record in a path's queue: its SEQ, its 64 bytes, its class, and the origin whose reserve it uses. -/
structure LogEntry where
  seq : Nat
  bytes : List Nat
  kind : Nat
  reserve : Option Nat := none
deriving DecidableEq, Repr

/-- A pending gap of one class (R492). -/
structure Gap where
  time : Nat
  timeLast : Nat
  seq : Nat
  gen : Nat
  drops : List Nat
deriving DecidableEq, Repr

/-- A storm entry (R493): `code` is `none` for OTHER. -/
structure Storm where
  origin : Nat
  code : Option Nat
  time : Nat
  timeLast : Nat
  seq : Nat
  gen : Nat
  count : Nat
  argLast : Nat
  posLast : Pos
  flagLast : Nat
deriving DecidableEq, Repr

/-- One path of the logbook (R490). -/
structure LogPath where
  queue : List LogEntry := []
  gapTrace : Option Gap := none
  gapEvent : Option Gap := none
  storms : List Storm := []
  /-- records written since the last raise of the ring's source -/
  since : Nat := 0
deriving DecidableEq, Repr

/-- The logbook of the common block: the paths of the PF0 ring, the UDP stream and the on-die buffer. -/
structure Logbook where
  ring : LogPath := {}
  udp : LogPath := {}
  buf : LogPath := {}
  /-- the bytes of LOG_BUF by slot of 64 (R496) -/
  store : List (Nat × List Nat) := []
  /-- DGRAM_SEQ, and the MAC the destination or gateway resolved to (R495) -/
  dgramSeq : Nat := 0
  dstMac : Option Nat := none
  /-- admission times of the records queued for the UDP stream, as the queue has them -/
  udpAt : List Ticks := []
  /-- the origin the pass over the intakes goes on from (R486) -/
  turn : Nat := 0
deriving DecidableEq, Repr

/-! ## Encoders and web position (03) -/

/-- The motion states of R110. -/
inductive Motion
  | standstill | starting | moving
deriving DecidableEq, Repr

/-- One encoder (R101-R114). Positions are in units of 2^-32 nm. -/
structure Encoder where
  /-- accepted levels behind the polarity inversion -/
  a : Bool := false
  b : Bool := false
  z : Bool := false
  /-- the accumulator of R114: the position latched at the last edge -/
  acc : Int := 0
  motion : Motion := .standstill
  /-- the reported direction is upstream -/
  upstream : Bool := false
  /-- direction of the edge that entered STARTING -/
  startUp : Bool := false
  te : Stamp := 0
  tp : Stamp := 0
  /-- edges of the MOVING run, newest first: position, time-stamp -/
  run : List (Int × Stamp) := []
  /-- the furthest position reported since the last edge (R113) -/
  far : Option Int := none
  /-- the index reference (R106) -/
  cref : Option Int := none
  /-- start of the start-up wire check (R105) -/
  wireStart : Option Stamp := none
  /-- time-stamps of illegal transitions within the last 1 ms (R115), newest first -/
  illegal : List Stamp := []
  /-- time-stamps of the last eight edges downstream and upstream (R115), newest first -/
  downs : List Stamp := []
  ups : List Stamp := []
deriving DecidableEq, Repr

/-- The source states of R116. -/
inductive WpState
  | onPrimary | onSecondary | noSource
deriving DecidableEq, Repr

/-- The web-position engine (R114-R118), positions in 2^-32 nm. -/
structure WpEngine where
  src : WpState := .noSource
  /-- web position less the active encoder's position (R117) -/
  off : Int := 0
  /-- the position held in NO_SOURCE -/
  held : Int := 0
  /-- the position not to fall behind after a switch (R117) -/
  catchUp : Option Int := none
  /-- every encoder's position at the active encoder's last edge, or at the last switch where none has come since (R117) -/
  seen : List Int := List.replicate 8 0
  /-- the deviation reference, primary and secondary (R118) -/
  refA : Int := 0
  refB : Int := 0
  upstream : Bool := false
  /-- web position at the last position update -/
  last : Int := 0
  /-- a forward step since the last position update (R345) -/
  stepped : Bool := false
deriving DecidableEq, Repr

/-- A divided output (R124): accumulator and pin levels. -/
structure DivOut where
  acc : Int := 0
  a : Bool := false
  b : Bool := false
  /-- the ENCCLK cycle in which its pins took their present state -/
  last : Nat := 0
deriving DecidableEq, Repr

/-- The encoder block of the common block. -/
structure EncBlock where
  /-- ENCCLK cycles since PORST, as of the last time update (R20) -/
  cycles : Nat := 0
  encs : List Encoder := List.replicate 8 {}
  wp : WpEngine := {}
  outs : List DivOut := List.replicate 4 {}
deriving DecidableEq, Repr

/-! ## Timebase, PTP and timed actions (04) -/

/-- The discipline states of R130. -/
inductive TbState
  | free | acquiring | locked | holdover
deriving DecidableEq, Repr

/-- The timebase (R127-R137). `f` (TB_FREQ_ADJ) and the flags live in the object store. -/
structure Timebase where
  /-- device time in units of 2^-48 ns, modulo 2^112 (R127) -/
  acc : Nat := 0
  state : TbState := .free
  /-- the present ACQUIRING follows FREE (R134) -/
  afterFree : Bool := false
  /-- consecutive samples within TB_LOCK_THRESH, beyond four times it, and valid in HOLDOVER -/
  good : Nat := 0
  bad : Nat := 0
  valid : Nat := 0
  /-- the servo's integrator, in 2^-32 of 0.001 ppb (R133) -/
  integ : Int := 0
  /-- time of the previous sample, and of the last valid one -/
  prev : Option Ticks := none
  lastValid : Ticks := 0
  /-- device time before its last update -/
  before : Ticks := 0
  /-- samples taken, for the journal (R360) -/
  samples : Nat := 0
  /-- f at the last 16 LOCKED samples since TB_SOURCE was written, newest first (R131) -/
  hist : List Int := []
  holdStart : Ticks := 0
  /-- the feedforward term in 0.001 ppb (R135) -/
  feed : Int := 0
  lastPps : Option Ticks := none
  ppsOut : Bool := false
  ppsRise : Ticks := 0
  /-- PPS_OUT is held low until this time after a step (R137) -/
  blank : Ticks := 0
deriving DecidableEq, Repr

/-- A foreign master heard on a port: its Announce contents and the times of the last two (R139). -/
structure Foreign where
  rank : PtpRank
  utc : Int
  sender : Nat
  last : Ticks
  prev : Option Ticks
deriving DecidableEq, Repr

/-- The PTP engine of a network port (R139-R141). -/
structure PtpPort where
  foreign : List Foreign := []
  parent : Option Nat := none
  lastAnnounce : Ticks := 0
  /-- a Sync waiting for its Follow_Up: sequenceId, receive time, correction -/
  waiting : Option (Nat × Stamp × Int) := none
  /-- master-to-slave time t2 − t1 less corrections, of the last Sync, in 2^-16 ns -/
  forward : Option Int := none
  /-- Delay_Req or Pdelay_Req in flight: sequenceId, departure -/
  request : Option (Nat × Stamp) := none
  /-- Pdelay_Resp waiting for its follow-up: sequenceId, t2, receive time, correction -/
  pdelay : Option (Nat × Ticks × Stamp × Int) := none
  /-- sequenceIds of Sync, Announce and requests -/
  syncSeq : Nat := 0
  annSeq : Nat := 0
  reqSeq : Nat := 0
deriving DecidableEq, Repr

/-- An armed entry of the timed-action table: the fields ARM captured and the occurrences that have passed (R144). -/
structure TaEntry where
  time : Ticks
  kind : Nat
  target : Nat
  arg : Nat
  period : Nat
  count : Nat
  flags : Nat
  /-- occurrences passed, executed or missed -/
  passed : Nat := 0
deriving DecidableEq, Repr

/-- An occurrence that waits for a channel to wake (R147): entry, kind, the channel's part of the target, argument, its time, and whether
it is of the device's own table, not an echo (R560). -/
structure TaWait where
  entry : Nat
  kind : Nat
  chan : Nat
  target : Nat
  arg : Nat
  time : Ticks
  own : Bool
  /-- TA_TARGET and TA_FLAGS as ARM captured them (R144); an echo's wait has none -/
  whole : Nat := 0
  flags : Nat := 0
  /-- the occurrence has been counted in TA_FIRED -/
  counted : Bool := false
deriving DecidableEq, Repr

/-- The time block of the common block. -/
structure TimeBlock where
  tb : Timebase := {}
  ports : List PtpPort := [{}, {}]
  /-- armed entries by number -/
  armed : List (Nat × TaEntry) := []
  waits : List TaWait := []
deriving DecidableEq, Repr
/-! ## Sensor inputs (05) -/

/-- A line descriptor (R186); `head` is the head of the channel, `time` in ns. -/
structure Desc where
  pos : Pos
  time : Nat
  num : Nat := 0
  lenRx : Nat := 0
  gen : Nat
  short : Bool := false
  long : Bool := false
  crcErr : Bool := false
  overrun : Bool := false
  lost : Bool := false
  formatErr : Bool := false
  timeTrig : Bool := false
  tempStale : Bool := false
  reason : Nat := 0
  head : Nat
  expoDelay : Nat := 0xFF
  temp : Nat := 0
  tapErr : Nat := 0
deriving DecidableEq, Repr

/-- What a tap of a line has received (R167-R169): codes in delivery order, one list per pixel. -/
structure TapRx where
  isOpen : Bool := false
  ended : Bool := false
  pixels : List (List Nat) := []
  /-- running CRC-32C state over the data bytes -/
  crc : Nat := 0xFFFFFFFF
  crcErr : Bool := false
  overrun : Bool := false
  /-- it closed as short: before its LINE_END, or an earlier tap line of the same tap did (R169, R174, R187) -/
  cut : Bool := false
deriving DecidableEq, Repr

/-- Lines of pixel words (R220): one list of columns for each plane. -/
abbrev Planes := List (List Nat)

/-- A line or lost grid point of a head, outstanding until the merge arbiter passes it (R183, R192). -/
structure HeadLine where
  desc : Desc
  /-- it belongs to an issued trigger, with a place in the trigger queue until it closes -/
  trig : Bool := true
  /-- ns of its issue by device time in ticks, for LINE_TIMEOUT -/
  issued : Ticks := 0
  /-- standstill or a change of direction since the head's previous grid line (R266) -/
  disturbed : Bool := false
  started : Bool := false
  closed : Bool := false
  /-- it has taken its sensor temperature (R187) -/
  warm : Bool := false
  taps : List TapRx := List.replicate 8 {}
  /-- the raw line after assembly: codes with bit 16 for invalid pixels (R188, R189) -/
  raw : Planes := []
  /-- the corrected line, once it has left the front end -/
  front : Option Planes := none
  /-- the planned gain of the line by plane, in 2^-64 (R292) -/
  gain : List Nat := []
deriving DecidableEq, Repr

/-- What the recorder and the check-value contexts take from a channel (R356, R371). -/
inductive Note
  /-- a journal entry: type, FLAGS, global head, time in ns, body -/
  | entry (kind flags head time : Nat) (body : List Nat)
  /-- a line descriptor as the merge arbiter passes it (R358) -/
  | line (l : HeadLine)
  /-- a counted edge of the active encoder, or another position sample of KIND 1-4 (R357) -/
  | edge (kind time : Nat) (pos : Pos) (fine coarse : Int) (state active extrap : Nat)
  /-- an item at a snoop point: point, selector, generation, bytes (R371) -/
  | item (point sel gen : Nat) (bytes : List Nat)
  /-- the first capture of the checkpoint at a position (R362) -/
  | ckpt (pos : Pos)
deriving DecidableEq, Repr

/-- A run of the loss queue (R529): first point, grid pitch, count, time in ns, generation. -/
structure LossRun where
  first : Pos
  pitch : Nat
  count : Nat
  time : Nat
  gen : Nat
  /-- standstill or a change of direction came before its first point (R266) -/
  disturbed : Bool := false
deriving DecidableEq, Repr

/-- A head's input (R120, R183-R193). -/
structure HeadIn where
  /-- W_h -/
  w : Pos := 0
  /-- time of the last trigger issued (R54) -/
  last : Option Ticks := none
  /-- TRIGGER_NUM -/
  num : Nat := 0
  lines : List HeadLine := []
  /-- the last temperature and its time (R187) -/
  temp : Option (Nat × Ticks) := none
  /-- the last 1,024 lines, newest first: 1 short or long, 2 lost, 0 neither (R191) -/
  marks : List Nat := []
  lenOver : Bool := false
  lostOver : Bool := false
  losses : List LossRun := []
  /-- a grid line has come, and since the last one standstill or a change of direction (R266) -/
  grid : Bool := false
  moved : Bool := false
  /-- lines dropped at a full merge FIFO, whose data still arrive and are discarded (R193) -/
  ghosts : List HeadLine := []
deriving DecidableEq, Repr

/-- A trigger pin (R185, R593): `driven` false is high-impedance (R536). -/
structure TrgPin where
  driven : Bool := false
  active : Bool := false
  gap : Bool := false
  since : Ticks := 0
  /-- TRG_WIDTH of the trigger that the pulse serves (R44, R185) -/
  width : Nat := 0
  /-- the polarity the pin drives -/
  pol : Nat := 0
deriving DecidableEq, Repr

/-- An aux line under way (R180), with the AUX_SYNC, AUX_BITS, AUX_LENGTH and AUX_CLASS in force at LVAL assertion (R44). -/
structure AuxLine where
  pos : Pos
  time : Ticks
  gen : Nat
  sync : Nat := 0
  bits : Nat := 16
  len : Nat := 1024
  cls : Nat := 0
deriving DecidableEq, Repr

/-- A BL_REG access under way (R172). -/
structure RegAccess where
  link : Nat
  write : Bool
  tag : Nat
  start : Ticks
deriving DecidableEq, Repr

/-- The input block of a channel. -/
structure InputBlock where
  heads : List HeadIn := List.replicate 4 {}
  pins : List TrgPin := List.replicate 4 {}
  /-- periods in a row with unequal ALIGN_SEQ, by link (R174) -/
  skewed : List Nat := List.replicate 8 0
  /-- the CoaXPress receive queue, oldest first: link, packet (R179) -/
  cxp : List (Nat × List Nat) := []
  aux : Option AuxLine := none
  /-- aux lines since the port was enabled -/
  auxSeq : Nat := 0
  reg : Option RegAccess := none
  regTag : Nat := 0
  /-- tap lines under way that are discarded: link, HEAD field or Stream ID, TAP field (R169, R177) -/
  strays : List (Nat × Nat × Nat) := []
deriving DecidableEq, Repr

/-! ## Serial lanes (06) -/

/-- The adaptation states of R203. -/
inductive Adapt
  | fixed | adapting | frozen | held
deriving DecidableEq, Repr

/-- A trim set as a lane uses it: CTLE, DFE taps 1-5, CDR bandwidth, LOS offset (R207). -/
structure Trims where
  ctle : Int := 8
  dfe : List Int := [0, 0, 0, 0, 0]
  cdr : Int := 0
  los : Int := 0
deriving DecidableEq, Repr

/-- A receive lane; its objects are in the unit's store. -/
structure Lane where
  cdr : Bool := false
  blockLock : Bool := false
  /-- the detectors assert -/
  los : Bool := false
  lol : Bool := false
  lolSince : Ticks := 0
  adapt : Adapt := .fixed
  /-- a one-shot has converged -/
  converged : Bool := false
  /-- HELD was entered by wander -/
  byWander : Bool := false
  /-- good windows in a row in FROZEN -/
  good : Nat := 0
  entered : Ticks := 0
  /-- coefficients (CTLE, then DFE) at the last move by more than one code, and its time (R203) -/
  ref : List Int := []
  moved : Ticks := 0
  /-- since when each coefficient has been at a range end (R205) -/
  atEnd : List (Option Ticks) := List.replicate 6 none
  target : Trims := {}
  live : Trims := {}
  trimDefault : Bool := false
  /-- start of FROZEN or of standby, in which the time at an end does not run (R203, R215) -/
  paused : Ticks := 0
  /-- the PRBS checker has lost sync and not regained it (R212) -/
  lost : Bool := false
  /-- standby in Doze, or powered down in Park (R215) -/
  standby : Bool := false
deriving DecidableEq, Repr

/-- A running eye scan: the lane, and the phase and voltage of the next point (R213). -/
structure Scan where
  lane : Nat
  phase : Int
  volt : Int
deriving DecidableEq, Repr

/-! ## Pixel front end (07) -/

/-- A crossfade of a head (R238): its banks, its length and its counter. -/
structure Fade where
  old : Nat
  new : Nat
  log2 : Nat
  j : Nat
deriving DecidableEq, Repr

/-- The front end of a head (R227, R228, R238). -/
structure HeadFront where
  /-- stored values, with bit 16 the stale bit, by plane -/
  store : Planes := []
  /-- no line since PORST, the channel reset or the wake from Park -/
  virgin : Bool := true
  prevLost : Bool := false
  prevPos : Option Pos := none
  /-- what R228 compares between generations, as of the last line -/
  cfg : Store := []
  /-- the bank the head uses outside a crossfade -/
  bank : Nat := 0
  fade : Option Fade := none
deriving DecidableEq, Repr

/-- The front end of a channel. -/
structure FrontEnd where
  heads : List HeadFront := List.replicate 4 {}
  /-- the bank a crossfade of the channel goes to, from its start until it has ended in every head -/
  fading : Option Nat := none
deriving DecidableEq, Repr

/-! ## Resampling and stitching (08) -/

/-- When a synchronising reset takes effect (R266): at the first output line at or above a position, or whose window reaches a line. -/
inductive ResetAt
  | pos (y : Pos)
  | reach (x : Pos)
  | first
deriving DecidableEq, Repr

/-- A head's contribution to an output line, formed as its window passed and held until the last head has delivered (R249, R260): samples of
the covered pixels, the planes of a pixel adjacent. -/
structure HeldLine where
  y : Pos
  /-- position of the last head line of its window -/
  windowEnd : Pos
  planes : Nat
  /-- the place of each swath pixel among the covered ones -/
  cov : List (Option Nat)
  /-- fine and coarse words; empty where they lie in the alignment ring -/
  fine : List Nat
  coarse : List Nat
  /-- address and bytes in the alignment ring; a head whose H_h is 0 bypasses it -/
  addr : Option (Nat × Nat) := none
  /-- the ring did not take it -/
  lost : Bool := false
  dwClamp : Bool
  xwClamp : Bool
  /-- lost lines its windows used: bridged, and unbridged (R254) -/
  bridged : List Pos
  gone : List Pos
  /-- what it counts of them, where the history it was formed from has been cleared since -/
  counts : Option (Nat × Nat) := none
  /-- G_k by plane in 2^-78 of the fine and of the coarse path (R292) -/
  gain : List Int
  gainNear : List Int
deriving DecidableEq, Repr

/-- The resampler of a head. -/
structure HeadGeo where
  /-- pitch, phase and first line of the retained history -/
  pitch : Nat := 0
  phase : Nat := 0
  first : Pos := 0
  /-- TRIG_POS of every line that has entered (R251) -/
  passed : List Pos := []
  /-- grid lines passed, newest first: position, and the line where it was not lost -/
  lines : List (Pos × Option Planes) := []
  /-- planned gains of the lines, in 2^-64 by plane (R292) -/
  gains : List (Pos × List Nat) := []
  /-- G of the previous output line by plane (R292) -/
  lastG : List Int := []
  /-- lost lines already counted as bridged, and the newest unbridged one used (R254) -/
  counted : List Pos := []
  gone : Option Pos := none
  virgin : Bool := true
  resets : List ResetAt := [.first]
  /-- settling lines still to be produced after a reset line -/
  settle : Nat := 0
  /-- contributions not yet stitched, in ascending position -/
  held : List HeldLine := []
deriving DecidableEq, Repr

/-- A finished output line (R249): its position, its words by plane, its head by pixel (8 none), and its generation. -/
structure OutLine where
  y : Pos
  planes : Planes
  heads : List Nat
  gen : Nat
  /-- the gain notice of every sample, Q8.24, by plane (R292) -/
  notice : Planes := []
  /-- time of the line -/
  time : Ticks := 0
deriving DecidableEq, Repr

/-- The resamplers and the stitcher of a channel. -/
structure Geometry where
  heads : List HeadGeo := List.replicate 4 {}
  /-- position of the last output line -/
  lastY : Option Pos := none
  /-- a geometry change that has not reached its first output line: the Slate position -/
  changed : List Pos := []
  /-- output lines not yet taken by segmentation -/
  out : List OutLine := []
  /-- the contributions in force lie at the end of the alignment ring, not at its start -/
  flip : Bool := false
deriving DecidableEq, Repr


/-! ## Statistics, exposure loop, illumination (09) -/

/-- What the statistics of a head and generation hold beside the objects: zone sums, and the last release whose effect line had
passed at the first counted line (R276, R288). -/
structure StatGen where
  sums : List Nat := List.replicate 192 0
  lines : Nat := 0
  seen : Nat := 0
deriving DecidableEq, Repr

/-- The loop states of R291. -/
inductive LoopState
  | off | track | wait | dark | fault
deriving DecidableEq, Repr

/-- Absolute values of a head: exposure in ns, gain in 1/256, duties of the two outputs, white balance in 1/4,096. -/
structure StepVals where
  expo : Nat := 10000
  gain : Nat := 256
  duty : List Nat := [0, 0]
  wb : List Nat := [4096, 4096, 4096]
deriving DecidableEq, Repr

/-- A released step that has not reached its effect line (R287). -/
structure Release where
  ordinal : Nat
  nEff : Nat
  /-- N_eff still depends on the CoaXPress acknowledgement -/
  awaited : Bool := false
  ratio : List Nat
  vals : StepVals := {}
  /-- duties of the owned outputs -/
  duty : List (Nat × Nat) := []
  /-- the duties have taken effect -/
  lit : Bool := false
  /-- a notice alone, of another head's duty: nothing of this head changes -/
  noticeOnly : Bool := false
deriving DecidableEq, Repr

/-- An exposure command that has no acknowledgement (R172, R290). -/
structure ExpoSend where
  cxp : Bool
  trig : Nat
  expo : Nat
  gain : Nat
  /-- the release it belongs to -/
  ordinal : Nat
  sends : Nat
  sent : Ticks
deriving DecidableEq, Repr

/-- The exposure loop of a head. -/
structure HeadLoop where
  st : LoopState := .off
  /-- e of the previous cycle, Q16.16 -/
  ePrev : Int := 0
  /-- values in force once every released step has taken effect; a duty is kept with its output -/
  plan : StepVals := {}
  pending : Option StepVals := none
  /-- releases so far, and the newest whose effect line has passed -/
  released : Nat := 0
  reached : Nat := 0
  /-- the loop waits for a settled snapshot (R288) -/
  settling : Bool := false
  rels : List Release := []
  sends : List ExpoSend := []
  /-- planned gain by plane in 2^-64 (R292) -/
  gain : List Nat := List.replicate 3 (2 ^ 64)
  /-- statistics not yet published, by generation -/
  stats : List (Nat × StatGen) := []
  /-- the newest published snapshot, and the generation the previous cycle used -/
  snap : Option (Nat × StatGen) := none
  used : Option Nat := none
deriving DecidableEq, Repr

/-- An illumination output (R278). -/
structure IllOut where
  driven : Bool := false
  /-- the active level is driven -/
  lit : Bool := false
  /-- start of the period, and its duty -/
  start : Ticks := 0
  duty : Nat := 0
  /-- the duty in force once every release has taken effect -/
  plan : Nat := 0
deriving DecidableEq, Repr

/-- Samples of a monitor result: count, sum, smallest, largest, time of the first. -/
structure LmonAcc where
  count : Nat := 0
  sum : Nat := 0
  lo : Nat := 0
  hi : Nat := 0
  first : Ticks := 0
deriving DecidableEq, Repr

/-- An illumination monitor (R280). -/
structure Lmon where
  /-- a burst: samples wanted, and its start -/
  burst : Option (Nat × Ticks) := none
  acc : LmonAcc := {}
  /-- samples due after triggers: time, generation -/
  due : List (Ticks × Nat) := []
  last : Option Ticks := none
  /-- results of generations not yet published (PER_TRIGGER) -/
  gens : List (Nat × LmonAcc) := []
deriving DecidableEq, Repr

/-- Statistics and exposure of a channel. -/
structure Exposure where
  loops : List HeadLoop := List.replicate 4 {}
  ill : List IllOut := List.replicate 2 {}
  mons : List Lmon := List.replicate 2 {}
  /-- the active heads of each generation whose statistics are not yet all published (R277), as a mask -/
  acts : List (Nat × Nat) := []
  /-- until when the last control cycle runs (R281) -/
  cycleStart : Option Ticks := none
  cycleEnd : Ticks := 0
deriving DecidableEq, Repr

/-! ## Segmentation and records (10) -/

/-- A background or reference of one column and plane (R296, R324): value in 1/256 LSB, set, learn counter. -/
structure Bg where
  b : Nat := 0
  on : Bool := false
  learn : Nat := 0
deriving DecidableEq, Repr

/-- An entry of the open-blob table: the growing piece (R303). `uid` names the piece among all pieces, `k0` and `k1` are the line numbers
of its first and last lines. -/
structure Blob where
  slot : Nat
  uid : Nat
  id : Nat
  piece : Nat := 0
  dark : Bool
  seeded : Bool := false
  contIn : Bool := false
  contOut : Bool := false
  seamLo : Bool := false
  seamHi : Bool := false
  ovf : Bool := false
  sat : Bool := false
  repl : Bool := false
  gainStep : Bool := false
  cut : Bool := false
  yFirst : Pos
  k0 : Nat
  k1 : Nat
  nMin : Nat
  nMax : Nat
  area : Nat := 0
  perim : Nat := 0
  devMin : Int
  devMax : Int
  sd : Int := 0
  sx : Nat := 0
  sy : Nat := 0
  sxx : Nat := 0
  syy : Nat := 0
  sxy : Nat := 0
  loFirst : Nat := 0
  loLast : Nat := 0
  hiFirst : Nat := 0
  hiLast : Nat := 0
deriving DecidableEq, Repr

/-- A crop to be taken (R320): the piece, the output line number after which it can be taken, and the values of its closing line. -/
structure CropReq where
  gen : Nat
  id : Nat
  piece : Nat
  yFirst : Pos
  yLast : Pos
  nMin : Nat
  nMax : Nat
  /-- centroid: line and column, rounded down -/
  cenLine : Nat
  cenCol : Nat
  after : Nat
  margin : Nat
  maxLines : Nat
  maxCols : Nat
  flags : Bool
  /-- the geometry of the closing line: P_out, W, Q, XW_ORIGIN in µm and XW_PITCH -/
  outPitch : Nat
  width : Nat
  planes : Nat
  origin : Int
  xwPitch : Nat
deriving DecidableEq, Repr

/-- A record ring: its place in the sequence of rings that commits bring (R319), its address and size. -/
structure RecRing where
  no : Nat := 0
  addr : Nat := 0
  size : Nat := 0
deriving DecidableEq, Repr

/-- A record formed and waiting for what its CROP and CUE bits depend on (R312, R317). -/
structure HeldRec where
  no : Nat
  line : Nat
  bytes : List Nat
  seamFollows : Bool := false
  crop : Option CropReq := none
  ring : RecRing
deriving DecidableEq, Repr

/-- A piece handed to the Cue sheet (R337). `survivor` makes it an absorbed record; `rec` is the number of its record. -/
structure HandPiece where
  dark : Bool
  cls : Nat
  discarded : Bool
  id : Nat
  piece : Nat
  contOut : Bool
  yFirst : Pos
  yLast : Pos
  nMin : Nat
  nMax : Nat
  policy : Nat
  outPitch : Nat
  line : Nat
  lineEnd : Bool
  survivor : Option Nat := none
  recNo : Option Nat := none
deriving DecidableEq, Repr

/-- Segmentation, records, history and crops of a channel. -/
structure Seg where
  /-- backgrounds by plane and column -/
  bg : List (List Bg) := []
  /-- freeze counts by column -/
  fc : List Nat := []
  /-- the candidates of the previous line, and the dark ones among them -/
  pcand : List Bool := []
  pdark : List Bool := []
  enabled : Bool := false
  plane : Nat := 0
  /-- the newest generation whose SEG_ENABLE and SEG_PLANE `enabled` and `plane` hold -/
  seen : Option Nat := none
  blobs : List Blob := []
  /-- pieces of the previous line and of the one before, by column -/
  lab : List (Option Nat) := []
  lab2 : List (Option Nat) := []
  /-- the number of the next output line, of the next piece, and the blob counter -/
  k : Nat := 0
  nextUid : Nat := 0
  counter : Nat := 0
  /-- lines since the last record (R314) -/
  sinceRec : Nat := 0
  lastLine : Option (Pos × Nat) := none
  held : List HeldRec := []
  nextNo : Nat := 0
  /-- records waiting for their ring -/
  queue : List (RecRing × List Nat) := []
  /-- the ring REC_WR and REC_RD belong to, and the number of the one that stage 6 has applied -/
  ring : RecRing := {}
  ringBase : Nat := 0
  irqCount : Nat := 0
  irqFirst : Option Ticks := none
  /-- lines in the history ring, newest first: position, slot, address of the ring, stride -/
  hist : List (Pos × Nat) := []
  histSlot : Nat := 0
  histCfg : List Nat := []
  snapDue : Bool := false
deriving DecidableEq, Repr

/-! ## Provisional detection and the Cue sheet (11) -/

/-- The provisional detector of a head (R324). -/
structure HeadPv where
  refs : List (List Bg) := []
  fc : List Nat := []
  enabled : Bool := false
  plane : Nat := 0
  /-- the newest generation whose PV_ENABLE and PV_PLANE `enabled` and `plane` hold -/
  seen : Option Nat := none
deriving DecidableEq, Repr

/-- The occupied states of R334. -/
inductive CueState
  | provisional | confirmed | committed | firedOpen | withheld
deriving DecidableEq, Repr

/-- A tentative resolution (R338). -/
structure Tentative where
  confirm : Bool
  id : Nat
  piece : Nat
  cls : Nat
  recNo : Option Nat
deriving DecidableEq, Repr

/-- An occupied entry of the Cue sheet, with the values of its decisive line (R330). -/
structure Cue where
  slot : Nat
  id : Nat
  out : Nat
  dark : Bool
  st : CueState
  f : Pos
  z : Pos
  yLo : Pos
  yHi : Pos
  nLo : Nat
  nHi : Nat
  gen : Nat
  head : Nat
  time : Nat
  hold : Bool
  lead : Nat
  merge : Nat
  width : Nat
  recallOut : Nat
  recallWidth : Nat
  matchY : Nat
  matchX : Nat
  resolveMax : Nat
  relayTx : Bool
  multi : Bool := false
  late : Bool := false
  recalled : Bool := false
  relayed : Bool := false
  bound : Option Nat := none
  resolved : Bool := false
  tent : Option Tentative := none
  /-- the recall cover (R339): position once updated, columns, and whether a merge has broken it -/
  rcY : Option Pos := none
  rcN : Option (Int × Int) := none
  rcBroken : Bool := false
  /-- the source's CUE_ID of a relayed entry -/
  srcId : Option Nat := none
deriving DecidableEq, Repr

/-- A strike pin (R335). -/
structure StkPin where
  driven : Bool := false
  /-- a pulse is in progress; in Retake the pin holds its inactive level all the same (R344) -/
  active : Bool := false
  /-- end of the pulse -/
  till : Ticks := 0
  pol : Nat := 0
deriving DecidableEq, Repr

/-- The strike path of a channel. -/
structure Strike where
  pv : List HeadPv := List.replicate 4 {}
  cues : List Cue := []
  counter : Nat := 0
  /-- relayed entries that have fired, newest first, as they were at the fire (R347) -/
  firedRelays : List Cue := []
  pins : List StkPin := List.replicate 4 {}
  hand : List HandPiece := []
  /-- the closing line the Cue sheet is in, and whether it has ended (R338) -/
  line : Option (Nat × Bool) := none
  irqCount : Nat := 0
  snapDue : Option Ticks := none
deriving DecidableEq, Repr

/-! ## Recorder, checkpoints and check values (12) -/

/-- An entry that lies complete in the journal ring: offset, length, SEQ, TYPE (R354). -/
structure JrnEntry where
  off : Nat
  len : Nat
  seq : Nat
  kind : Nat
deriving DecidableEq, Repr

/-- An entry of the on-die queue (R361). `pack`: the raw payload and the bytes to compress of a line that the compressor has taken
(R359); its body then has no payload yet. `ckpt`: C of a checkpoint still under capture, which keeps its place in the journal. -/
structure JrnWait where
  kind : Nat
  flags : Nat
  head : Nat
  time : Nat
  body : List Nat
  pack : Option (List Nat × List Nat) := none
  ckpt : Option Pos := none
deriving DecidableEq, Repr

/-- A checkpoint being captured (R362): C, its generation, and the captures of the heads (TRIG_NUM, crossfade counter, blocks). -/
structure CkptWork where
  pos : Pos
  gen : Nat
  heads : List (Nat × Nat × Nat × List Nat) := []
deriving DecidableEq, Repr

/-- A check-value context (R371-R373): the register and bytes of generations not yet published, the results and bytes of those published
that a CHECK entry has not taken. -/
structure KCtx where
  sums : List (Nat × Nat × Nat) := []
  outs : List (Nat × Nat × Nat) := []
deriving DecidableEq, Repr

/-- A Slate read ahead in the journal (R368). -/
structure ReSlate where
  gen : Nat
  pos : Pos
  fold : Nat
  nextTrig : List Nat
  items : Store
deriving DecidableEq, Repr

/-- A direct write of the journal that waits for NEXT_TRIG or NEXT_Y (R368). -/
structure ReDict where
  nextY : Pos
  nextTrig : List Nat
  key : Nat
  val : List Nat
  /-- the heads whose line of NEXT_TRIG has come to the front end -/
  heads : List Nat := []
deriving DecidableEq, Repr

/-- A recorded crop (R360): its piece, first line, and lines kept. -/
structure ReCrop where
  id : Nat
  piece : Nat
  top : Pos
  lines : Nat
deriving DecidableEq, Repr

/-- Retake (R366-R370). -/
structure Retake where
  /-- the channel's configuration before the start, and what its parts had published -/
  saved : Store := []
  newest : List (Nat × Nat) := []
  /-- offset of the next entry, the SEQ it must carry, and the entries still to come where RETAKE_ENTRIES gives them -/
  off : Nat := 0
  seq : Nat := 0
  left : Option Nat := none
  /-- bytes of the region read so far -/
  read : Nat := 0
  /-- C of the checkpoint, its generation, and CAPTURE_TRIG -/
  pos : Pos := 0
  gen : Nat := 0
  trig : List Nat := []
  /-- the first entry has been checked (R367) -/
  checked : Bool := false
  /-- the TIME of the last entry read, which the Cue sheet takes for device time (R368) -/
  time : Nat := 0
  /-- heads whose capture line has been fed -/
  begun : List Nat := []
  dicts : List ReDict := []
  /-- what the journal says of later events: pieces with CUE, crops, late heads, check values -/
  cued : List (Nat × Nat) := []
  crops : List ReCrop := []
  late : List (Pos × Nat) := []
  checks : List (Nat × Nat × List Nat × List Nat) := []
  /-- the last EDGE entry: position, time in ns, speed in µm/s -/
  edge : Option (Pos × Int × Int) := none
deriving DecidableEq, Repr

/-- The Rushes recorder, the check-value contexts and Retake of a channel. -/
structure Rushes where
  ring : List JrnEntry := []
  queue : List JrnWait := []
  /-- losses a GAP entry will tell: entries, LINE entries, bytes -/
  lost : Nat := 0
  lostLines : Nat := 0
  lostBytes : Nat := 0
  /-- counted edges that no EDGE entry was written for since the last EDGE entry, and every counted edge (R357) -/
  skipped : Nat := 0
  edges : Nat := 0
  /-- time of the freeze, and the bytes of the ring from the FREEZE entry on; 0 before it is written -/
  frozenAt : Ticks := 0
  post : Nat := 0
  /-- POST is over once the FREEZE and CONFIG entries are written -/
  ending : Bool := false
  /-- checkpoints under capture, the highest C begun, and the highest TRIG_POS of each head's lines -/
  ckpts : List CkptWork := []
  lastC : Option Pos := none
  passed : List (Option Pos) := [none, none, none, none]
  ks : List KCtx := List.replicate 8 {}
  retake : Retake := {}
deriving DecidableEq, Repr
/-! ## Channel memory controller (13) -/

/-- An access in a subchannel's command queue (R378, R380); `req` is the request of MEM_REQUEST it belongs to. -/
structure MemAccess where
  write : Bool
  gran : Nat
  rank : Nat
  bank : Nat
  row : Nat
  req : Option Nat := none
  /-- batches of the other direction since the access entered the command queue (R381) -/
  behind : Nat := 0
deriving DecidableEq, Repr

/-- What MEM_TYPE, MEM_DENSITY, MEM_RANKS and ADDR_ORDER say of the memory (R376-R378). -/
structure MemCfg where
  kind : Nat := 2
  density : Nat := 16
  ranks : Nat := 1
  order : Nat := 1
deriving DecidableEq, Repr

/-- The grants an arbiter made while Class C and Class D both waited, modulo 8, and how many of those went to Class D (R33). -/
structure Turns where
  turn : Nat := 0
  given : Nat := 0
deriving DecidableEq, Repr

/-- A request that waits at MEM_REQ (R382): its class is 0 alignment ring, 1 Class C, 2 Class D. -/
structure MemReq where
  tag : Nat
  cls : Nat
  write : Bool
  addr : Nat
  len : Nat
  bytes : List Nat
deriving DecidableEq, Repr

/-- A granted request that has accesses to complete: how many, and the bytes it returns. -/
structure MemOpen where
  tag : Nat
  addr : Nat
  left : Nat
  bytes : List Nat
deriving DecidableEq, Repr

/-- Refresh of a subchannel and rank (R384-R386). -/
structure RankRefresh where
  /-- the next bank of the rotation, and the banks under refresh, oldest first -/
  bank : Nat := 0
  busy : List Nat := []
  /-- a forced burst runs -/
  burst : Bool := false
  /-- M of the previous poll where it was below M -/
  lower : Option Nat := none
deriving DecidableEq, Repr

/-- The causes of R388 but the frequency change. -/
inductive SrCause
  | power | reset | test
deriving DecidableEq, Repr

/-- The memory controller of a channel; its objects are in the unit's store. -/
structure MemCtl where
  /-- the configuration in force: that of the last training; and the one the present training takes (R393) -/
  cfg : MemCfg := {}
  next : MemCfg := {}
  /-- accesses by subchannel, in order of acceptance; the first 32 are in the command queue -/
  queues : List (List MemAccess) := List.replicate 4 []
  /-- the batch under way in each subchannel: its direction and the accesses completed in it (R381) -/
  batch : List (Bool × Nat) := List.replicate 4 (false, 0)
  /-- requests that wait at MEM_REQ, and granted ones to be answered -/
  waiting : List MemReq := []
  opened : List MemOpen := []
  refs : List RankRefresh := List.replicate 8 {}
  /-- the shares of Class C and Class D at MEM_REQ (R33) -/
  turns : Turns := {}
  lfsr : Nat := 1
  /-- causes of self-refresh that stand (R388) -/
  causes : List SrCause := []
  /-- the training in progress ends a frequency change (R392) -/
  switching : Bool := false
  /-- the frequency change is made inside a self-refresh -/
  inSr : Bool := false
  /-- start-up training of set B: 0 not under way, 1 set A or the change to B, 2 the change back (R393) -/
  boot : Nat := 0
  /-- the millisecond of device time counted now, its bytes, and those of the one before -/
  ms : Nat := 0
  msBytes : Nat := 0
  lastBytes : Nat := 0
deriving DecidableEq, Repr

/-! ## Compression engine (14) -/

/-- A saved resume context (R413): its 40,960 bytes, and what the device keeps in their STATE field. -/
structure CmpCtx where
  bytes : List Nat
  level : Nat
  sampleBytes : Nat
  planes : Nat
  lineBytes : Nat
  streamIn : Nat := 0
  streamOut : Nat := 0
  sum : Nat := 1
  /-- bits held back (compression) or not yet used (decompression) -/
  held : List Bool := []
  /-- the window, newest first -/
  hist : List Nat := []
  filt : FiltSt := {}
  cPhase : CPhase := .blocks none
  iPhase : IPhase := .block
  pendLen : Nat := 0
  pendDist : Nat := 0
deriving DecidableEq, Repr

/-- A submitted job: its descriptor, and whether CMP_ABORT 2 has ended it before its start (R419). -/
structure CmpJob where
  desc : List Nat
  aborted : Bool := false
deriving DecidableEq, Repr

/-- The compression engine of a channel. -/
structure Compressor where
  queue : List CmpJob := []
  /-- the running job and the context it goes on from -/
  job : Option (List Nat × Option CmpCtx) := none
  /-- CMP_ABORT has stopped the running job, which cannot complete yet (R417, R420) -/
  aborting : Bool := false
  /-- the next job waits for room in the completion ring -/
  stalled : Bool := false
  /-- the contexts this channel's engine has ever saved: what their STATE bytes stand for (R413), which no reset undoes -/
  saved : List CmpCtx := []
  /-- completions counted for source 129 -/
  irq : Nat := 0
deriving DecidableEq, Repr

/-! ## DMA threads (15) -/

/-- A loop register (R430). -/
structure LoopReg where
  active : Bool := false
  left : Nat := 0
  chan0 : Nat := 0
  far0 : Nat := 0
deriving DecidableEq, Repr

/-- What a bus read is for: an instruction, a list entry, data for a channel address; `drop`: its data is not used. -/
inductive DmaWhat
  | fetch
  | entry
  | data (chan : Nat)
  | drop
deriving DecidableEq, Repr

/-- A bus-space read of a thread, with its data once returned; data is used in transfer order. -/
structure DmaRead where
  tag : Nat
  addr : Nat
  len : Nat
  what : DmaWhat
  got : Option (List Nat) := none
deriving DecidableEq, Repr

/-- The list of a MOVSG: address of the next entry, hops, entries processed, and its space. -/
structure SgWork where
  list : Nat
  hops : Nat := 0
  entries : Nat := 0
  bus : Bool
  last : Bool := false
deriving DecidableEq, Repr

/-- An instruction in progress: its direction, the range not yet moved or requested, the list, and what has gone so far. -/
structure DmaWork where
  dir : Nat
  chan : Nat
  far : Nat
  left : Nat := 0
  sg : Option SgWork := none
  /-- the crop ring of a RING move, address and size; `chan` is then an offset in it (R435) -/
  ring : Option (Nat × Nat) := none
  /-- the rest of a source in channel memory, read before any byte of its range was written (R436) -/
  src : List Nat := []
  /-- bytes of the instruction moved -/
  done : Nat := 0
  /-- channel ranges the instruction writes to -/
  dests : List (Nat × Nat) := []
deriving DecidableEq, Repr

/-- A thread; its other values are objects of the unit's store. -/
structure DmaThread where
  loops : List LoopReg := List.replicate 4 {}
  /-- the instruction at PC, once fetched -/
  code : Option (List Nat) := none
  since : Ticks := 0
  reads : List DmaRead := []
  work : Option DmaWork := none
deriving DecidableEq, Repr

/-- The DMA engine of a channel. -/
structure Dma where
  threads : List DmaThread := List.replicate 8 {}
  tag : Nat := 0
  /-- the turns of Class C and Class D, and the thread of each that had the last one (R424) -/
  turns : Turns := {}
  last : List Nat := [7, 7]
deriving DecidableEq, Repr


/-! ## Calibration (19) -/

/-- The bytes of a slot of the calibration store (R502): those of its commit page, and those from slot offset 1000h on. A byte beyond the
end of either list is erased and reads FFh. -/
structure Slot where
  page : List Nat := []
  data : List Nat := []
deriving DecidableEq, Repr

/-- What the bytes of a slot say it is (R504): empty, bad, or valid with SEQ, WRITE_TIME and payload. -/
inductive SlotView
  | empty
  | bad
  | valid (seq time : Nat) (payload : List Nat)
deriving DecidableEq, Repr

/-- A store write under way (R505): area, target slot by 2a + s, SEQ, and the image captured. -/
structure StoreWrite where
  area : Nat
  slot : Nat
  seq : Nat
  payload : List Nat
deriving DecidableEq, Repr

/-- The zone sums of half of a run's lines (R513): sums and counts by 64 · plane + zone. -/
structure ZoneSums where
  sum : List Nat := List.replicate 192 0
  count : List Nat := List.replicate 192 0
deriving DecidableEq, Repr

/-- A calibration run (R512-R516) with the settings it was started with. -/
structure CalRun where
  chan : Nat
  head : Nat
  /-- 3110h at the start -/
  set : Store
  /-- the head's configuration at the start (R513) -/
  cfg : Store
  /-- COMPUTING (R514) -/
  computing : Bool := false
  started : Ticks
  counted : Nat := 0
  skipped : Nat := 0
  /-- sums of y and counts of samples, by entry and plane -/
  sums : List Nat := []
  counts : List Nat := []
  first : ZoneSums := {}
  last : ZoneSums := {}
  saturated : Nat := 0
  temp : Int := 0
  planes : Nat := 1
  cols : Nat := 0
  /-- bytes 0-63 of the traceability record, formed at the end of measurement -/
  record : List Nat := []
deriving DecidableEq, Repr

/-- Calibration: the store, the runs, and the traceability sets of both banks of each channel (R501-R518). -/
structure CalBlock where
  /-- by 2a + s -/
  slots : List Slot := List.replicate 16 {}
  write : Option StoreWrite := none
  run : Option CalRun := none
  /-- 12 records of 128 bytes for each channel and bank, by 2c + bank; an absent one is zeros -/
  traces : List (List (List Nat)) := List.replicate 12 (List.replicate 12 [])
deriving DecidableEq, Repr
/-! ## Power (20) -/

/-- The power states of R521. -/
inductive PowerState
  | run | hold | doze | park
deriving DecidableEq, Repr

/-- Where a channel is between states (PWR_STATE 4-6). -/
inductive PowerPhase
  | steady
  | entering (dest : PowerState)
  | waking
  | reset
deriving DecidableEq, Repr

/-- What a channel reports to the common block: an occurrence of a common source, or a bit of PWR_FLAGS (R539). -/
inductive Signal
  | source (s : Nat)
  | pwrFlag (b : Nat)
  /-- a strike relay for the Boardwalk ring (R346): 1 FIRE_AT, 2 FIRE_NOW, 3 RECALL; output, CUE_ID, Y_d -/
  | relay (kind out cue : Nat) (y : Pos)
  /-- an access of the channel memory window was dropped or reads all ones (16 R453) -/
  | window
deriving DecidableEq, Repr

/-- The power state of a channel and its counters, the elements of the arrays of R539. -/
structure ChanPower where
  /-- the channel has entered Run since PORST (R533) -/
  started : Bool := false
  st : PowerState := .run
  phase : PowerPhase := .steady
  /-- the channel core holds a copy of the position and of the time broadcast: not in Park (R21). The unit's `now` and `posn` are the
  values of the always-on blocks that serve it -/
  posHeld : Bool := true
  timeHeld : Bool := true
  /-- a wake cause has arrived and not been acted on (R527) -/
  cause : Bool := false
  /-- a wake starts when the entry completes (R528) -/
  after : Bool := false
  /-- PWR_WAKE was written since the channel last became quiescent (R524) -/
  woken : Bool := false
  /-- the channel was not quiescent at the last decision -/
  busy : Bool := true
  since : Ticks := 0
  wakes : Nat := 0
  aborts : Nat := 0
  lost : Nat := 0
  times : List Nat := [0, 0, 0, 0]
  nextEvent : Nat := 2 ^ 64 - 1
  nextKind : Nat := 0
  /-- reports to the common block not yet taken -/
  sig : List Signal := []
deriving DecidableEq, Repr


/-! ## Boardwalk (21) -/

/-- What of a waiting frame is formed as it goes out (R545, R548): nothing, the position, the time t1, or the turnaround. -/
inductive BwStamp
  | none | position | request | turnaround
deriving DecidableEq, Repr

/-- A frame that waits for a port's transmitter (R544, R546). -/
structure BwFrame where
  type : Nat
  src : Nat
  hops : Nat
  seq : Nat
  accum : Nat
  body : List Nat
  stamp : BwStamp := .none
  /-- when it began to wait -/
  at_ : Ticks
deriving DecidableEq, Repr

/-- A ring port (R548, R551): its last link delays in 1/16 ns, newest first, the DELAY_REQ under way (SEQ, t1 in ns), and when a root
frame last came in by it. -/
structure BwPort where
  /-- frames that wait for the transmitter, in the order they go out, and when the frame on the wire has left (R546) -/
  queue : List BwFrame := []
  busy : Ticks := 0
  delays : List Int := []
  req : Option (Nat × Nat) := none
  heard : Option Ticks := none
  /-- the port's overrun status: BW_RX has overrun (R25); no object shows it -/
  overrun : Bool := false
deriving DecidableEq, Repr

/-- A device heard in HELLOs (R550, R552): UNIQUE_ID element 0, priority, ELIGIBLE, IS_ROOT, and when it was last heard. -/
structure BwPeer where
  id : Nat
  prio : Nat
  eligible : Bool
  isRoot : Bool
  last : Ticks
deriving DecidableEq, Repr

/-- The last POSITION frame acted on (R554): position, fine speed, status bits, ACCUM in 1/16 ns, receipt. -/
structure BwPos where
  pos : Pos
  fine : Int
  status : Nat
  accum : Nat
  at_ : Ticks
deriving DecidableEq, Repr

/-- A ring commit that waits for its equalised instant (R555): generation, Slate position, late, time-named, and the instant. -/
structure BwCommit where
  gen : Nat
  pos : Pos
  late : Bool
  timed : Bool
  due : Ticks
  /-- the lateness the root measured; a member learns none -/
  lateness : Option Int := none
deriving DecidableEq, Repr

/-- An echoed timed action that waits (R560): entry, kind, late, target, argument, and the instant. -/
structure BwEcho where
  entry : Nat
  kind : Nat
  late : Bool
  target : Nat
  arg : Nat
  due : Ticks
deriving DecidableEq, Repr

/-- The ring part of the device. -/
structure Boardwalk where
  ports : List BwPort := [{}, {}]
  peers : List BwPeer := []
  /-- copies acted on or forwarded: SRC, TYPE, SEQ, newest first -/
  seen : List (Nat × Nat × Nat) := []
  /-- SEQ of the next frame by TYPE 31h-37h -/
  seqs : List Nat := zeros 7
  updates : Nat := 0
  /-- when SEARCHING or ISOLATED was entered -/
  since : Ticks := 0
  pos : Option BwPos := none
  /-- a join whose position step is still to be made (R557) -/
  joining : Bool := false
  commits : List BwCommit := []
  echoes : List BwEcho := []
deriving DecidableEq, Repr

/-! ## Monitors (22) -/

/-- Consecutive samples of each rail out of and within range (R589), and the two thermal conditions as they stand (R538). -/
structure MonBlock where
  outs : List Nat := zeros 13
  ins : List Nat := zeros 13
  warn : Bool := false
  crit : Bool := false
deriving DecidableEq, Repr
/-! ## The whole -/

/-- A swath channel (R18). -/
structure Chan where
  n : Node
  slate : ChanSlate := {}
  power : ChanPower := {}
  input : InputBlock := {}
  lanes : List Lane := List.replicate 8 {}
  scan : Option Scan := none
  front : FrontEnd := {}
  geo : Geometry := {}
  expo : Exposure := {}
  seg : Seg := {}
  stk : Strike := {}
  /-- the bytes of channel memory -/
  mem : List Host.Cell := []
  mc : MemCtl := {}
  cmp : Compressor := {}
  dma : Dma := {}
  rushes : Rushes := {}
  /-- the head a calibration run measures (R512), and whether it forces its light dark -/
  calHead : Option (Nat × Bool) := none
  /-- events of this step for the recorder and the check-value contexts -/
  notes : List Note := []
deriving DecidableEq, Repr

/-! ## Host port (16) and the common block -/

/-- The host port: what a reset or PORST has latched, and the start of link timing (R449, R451, R461). -/
structure HostPort where
  /-- CHMEM_WIN_SIZE as of the last host-port reset -/
  winSize : List Nat := List.replicate 6 30
  /-- the subsystem identifiers as of the last PORST -/
  subVid : Nat := Config.vendorId
  subId : Nat := 0x6240
  /-- when the link timing started: device time; `none` while PERST# is asserted -/
  started : Option Ticks := none
  /-- configuration requests are accepted -/
  ready : Bool := false
  /-- MAX_RATE and MAX_WIDTH as the link took them at Detect (R449) -/
  maxRate : Nat := 6
  maxWidth : Nat := 16
  /-- the BAR registers of each function: BAR0, BAR2, BAR4 -/
  bars : List (List Nat) := List.replicate 7 (zeros 3)
deriving DecidableEq, Repr

/-- Why the device is held below step 5 of the start-up (R531, R533). -/
inductive Held
  | none | porst | thermal
deriving DecidableEq, Repr

/-- The common block (R18). -/
structure Common where
  n : Node := { chan := false, origin := 0 }
  slate : Sequencer := {}
  server : Server := {}
  enc : EncBlock := {}
  time : TimeBlock := {}
  /-- duplex lanes: NET0, NET1, and the two lanes of both ring ports (R218) -/
  lanes : List Lane := List.replicate 6 {}
  scan : Option Scan := none
  logs : Logbook := {}
  /-- the ring paths of the channel functions (R490) -/
  chanLogs : List LogPath := List.replicate 6 {}
  host : HostPort := {}
  cal : CalBlock := {}
  bw : Boardwalk := {}
  mon : MonBlock := {}
  held : Held := .none
  /-- DEVICE_RESET has been written: the device resets once the request is answered (R531) -/
  resetDue : Bool := false
deriving DecidableEq, Repr

/-- The state of the block. -/
structure State where
  common : Common := {}
  chans : Vector Chan 6
  /-- the commands that wait, first in, first out -/
  pending : List Instr := []
deriving DecidableEq, Repr

/-- A channel after PORST: training of set A runs (R393, R533). -/
def Chan.reset (c : Nat) : Chan := { n := { chan := true, origin := c + 1, objs := [(K.MEM_STATE, [1])] }, mc := { boot := 1 } }

/-- The common block after PORST. The store is found present and empty (DESIGN CHOICE, log entry 4), so that the persisted set has no
valid slot: PERSIST_LOAD_RESULT 2 and an ALARM (R65, R508), and PIX_LOAD_RESULT 2 of every channel PIX_AUTOLOAD names (R518). -/
def Common.reset : Common :=
  { n := { chan := false, origin := 0,
           objs := [(K.PERSIST_LOAD_RESULT, [2]), (K.STORE_STATE, [1]), (K.STORE_CAPACITY, [16777216]), (K.PIX_LOAD_RESULT, List.replicate 6 2)],
           intake := [{ time := 0, gen := 0, kind := 2, origin := 0, code := 0x206 }] } }

/-- The block right after PORST, at step 5 of the start-up (R533): the dictionary server accepts requests, generation 0, no position
source, every writer held, every pin high-impedance. -/
def State.reset : State := { common := Common.reset, chans := Vector.ofFn fun (c : Fin 6) => Chan.reset c }

end Sys2Proof.Machine
end

