-- ==== Sys2Proof/Machine/Flags.lean ====
section
/-!
DEFINITION. Objects of a unit, its flags and interrupt sources, and its log records: how a value is read and written, what setting a
flag and raising a source do (R60-R61, R463-R465, R485-R486).
-/

namespace Sys2Proof.Machine

/-! ## The object store -/

/-- The elements listed for a key. -/
def storeFind : Store → Nat → Option (List Nat)
  | [], _ => none
  | (j, v) :: r, k => if j = k then some v else storeFind r k

/-- The elements of an object: those listed, else its default. -/
def storeGet (d : Store) (k : Nat) : List Nat := (storeFind d k).getD (dfltOf k)

/-- An object given its elements; the default is not listed. -/
def storePut (d : Store) (k : Nat) (v : List Nat) : Store := tabPut (dfltOf k) d k v

namespace Node

/-- The elements of an object. -/
def elems (n : Node) (k : Nat) : List Nat := storeGet n.objs k
/-- Element `i` of an object. -/
def elem (n : Node) (k i : Nat) : Nat := (n.elems k).getD i 0
/-- A scalar object. -/
def num (n : Node) (k : Nat) : Nat := n.elem k 0
/-- A scalar object of `w` bits read in two's complement. -/
def sint (n : Node) (w k : Nat) : Int := toSigned w (n.num k)
/-- A truth value. -/
def flag (n : Node) (k : Nat) : Bool := n.num k == 1
/-- Bit `i` of a scalar object. -/
def bitOf (n : Node) (k i : Nat) : Bool := bit (n.num k) i
/-- Give an object its elements. -/
def put (n : Node) (k : Nat) (v : List Nat) : Node := { n with objs := storePut n.objs k v }
/-- Give a scalar object its value. -/
def putN (n : Node) (k v : Nat) : Node := n.put k [v]
/-- Give a scalar object of `w` bits a signed value. -/
def putI (n : Node) (w k : Nat) (v : Int) : Node := n.put k [toBits w v]
/-- Give element `i` its value. -/
def putE (n : Node) (k i v : Nat) : Node := n.put k (listPut (n.elems k) i v)
/-- Add `d` to a `w`-bit counter, which wraps. -/
def add (n : Node) (w k d : Nat) : Node := n.putN k (wrap w (n.num k + d))
/-- Count one on a 32-bit counter. -/
def inc (n : Node) (k : Nat) : Node := n.add 32 k 1
/-- Add to element `i` of an array of `w`-bit counters. -/
def addE (n : Node) (w k i d : Nat) : Node := n.putE k i (wrap w (n.elem k i + d))
/-- A value the spec leaves open, of `w` bits: nothing is known of it (log entry 3). -/
def takeFree (n : Node) (w : Nat) : Nat × Node := (Config.freeValue n.free % 2 ^ w, { n with free := n.free + 1 })
/-- Send something out. -/
def emit (n : Node) (o : Out) : Node := { n with out := o :: n.out }
/-- The key of an interrupt-controller object: 2440h, or 8780h of a channel (R480). -/
def icKey (n : Node) (sub : Nat) : Nat := if n.chan then 0x878000 + sub else 0x244000 + sub
/-- The number of sources (R481, R482). -/
def sources (n : Node) : Nat := if n.chan then 160 else 192
/-- Device time in whole nanoseconds, as the unit holds it. -/
def ns (n : Node) : Nat := n.now / 65536

end Node

/-! ## Level sources and their flags (R126 and the source tables of the chapters) -/

/-- The level source a flag bit of a common object belongs to; the timed-action flags belong to a source as a whole. -/
def commonFlagSource (k b : Nat) : Option Nat :=
  let i := k / 256
  if k % 256 = 0x0D ∧ 0x2000 ≤ i ∧ i < 0x2080 then some (6 * ((i - 0x2000) / 16) + b + 1)
  else if k = K.WP_FLAGS then (match b with | 0 => some 49 | 1 => some 50 | 2 => some 51 | 3 => some 55 | _ => some (52 + b))
  else if k = K.TB_FLAGS then (if b < 4 then some (68 + b) else some (73 + b))
  else if k = K.TA_NOTIFY_FLAGS then some 85
  else if k = K.TA_LATE_FLAGS then some 86
  else if k = K.TA_SKIP_FLAGS then some 87
  else if k = K.TA_ERROR_FLAGS then some 88
  else if k = K.BW_FLAGS then some (98 + b)
  else if k = K.PWR_FLAGS then some (114 + b)
  else if k = K.HP_FLAGS then (if b < 6 then some (130 + b) else some 137)
  else if k = K.LOG_FLAGS then some (146 + b)
  else if k = K.CAL_FLAGS then
    (match b with | 0 => some 162 | 1 => some 164 | 2 => some 165 | 3 => some 166 | 4 => some 168 | 5 => some 169 | _ => some 170)
  else if k = K.IC_FLAGS then some 180
  else none

/-- The level source a flag bit of a channel object belongs to. -/
def chanFlagSource (k b : Nat) : Option Nat :=
  let i := k / 256
  if k = K.INPUT_FLAGS then (if b < 11 then some (2 + b) else some (4 + b))
  else if k = K.CXP_CTRL_RX_COUNT then some 13
  else if k % 256 = 0x0E ∧ 0x8180 ≤ i ∧ i < 0x8188 then some (17 + 3 * (i - 0x8180) + b)
  else if k = K.FRONT_FLAGS then some (43 + b)
  else if k = K.GEO_FLAGS then some (47 + b)
  else if k = K.STATS_FLAGS then (match b with | 0 => some 58 | 9 => some 69 | _ => some (59 + b))
  else if k = K.SEG_FLAGS then some (74 + b)
  else if k = K.STK_FLAGS then (if b < 7 then some (98 + b) else some (99 + b))
  else if k = K.RUSHES_FLAGS then (match b with | 0 => some 113 | 1 => some 115 | 2 => some 116 | 3 => some 118 | _ => some 119)
  else if k = K.MEM_FLAGS then (match b with | 0 => some 121 | 1 => some 122 | 2 => some 124 | 3 => some 125 | _ => some 128)
  else if k = K.CMP_FLAGS then (if b < 3 then some (130 + b) else some 134)
  else if k = K.DMA_FLAGS then some (138 + 2 * b)
  else if k = K.CLOG_FLAGS then some (156 + b)
  else if k = K.C_IC_FLAGS then some 154
  else none

/-- The flag a common level source equals: the object, and its bit (`none`: the object is not zero). -/
def commonLevel (s : Nat) : Option (Nat × Option Nat) :=
  if 1 ≤ s ∧ s ≤ 48 then
    (if s % 6 = 0 then none else some (0x20000D + 4096 * ((s - 1) / 6), some ((s - 1) % 6)))
  else match s with
    | 49 => some (K.WP_FLAGS, some 0) | 50 => some (K.WP_FLAGS, some 1) | 51 => some (K.WP_FLAGS, some 2)
    | 55 => some (K.WP_FLAGS, some 3) | 56 => some (K.WP_FLAGS, some 4) | 57 => some (K.WP_FLAGS, some 5)
    | 58 => some (K.WP_FLAGS, some 6) | 59 => some (K.WP_FLAGS, some 7)
    | 68 => some (K.TB_FLAGS, some 0) | 69 => some (K.TB_FLAGS, some 1) | 70 => some (K.TB_FLAGS, some 2)
    | 71 => some (K.TB_FLAGS, some 3) | 77 => some (K.TB_FLAGS, some 4) | 78 => some (K.TB_FLAGS, some 5)
    | 79 => some (K.TB_FLAGS, some 6) | 80 => some (K.TB_FLAGS, some 7)
    | 85 => some (K.TA_NOTIFY_FLAGS, none) | 86 => some (K.TA_LATE_FLAGS, none)
    | 87 => some (K.TA_SKIP_FLAGS, none) | 88 => some (K.TA_ERROR_FLAGS, none)
    | 98 => some (K.BW_FLAGS, some 0) | 99 => some (K.BW_FLAGS, some 1) | 100 => some (K.BW_FLAGS, some 2)
    | 101 => some (K.BW_FLAGS, some 3) | 102 => some (K.BW_FLAGS, some 4) | 103 => some (K.BW_FLAGS, some 5)
    | 104 => some (K.BW_FLAGS, some 6)
    | 114 => some (K.PWR_FLAGS, some 0) | 115 => some (K.PWR_FLAGS, some 1) | 116 => some (K.PWR_FLAGS, some 2)
    | 117 => some (K.PWR_FLAGS, some 3) | 118 => some (K.PWR_FLAGS, some 4) | 119 => some (K.PWR_FLAGS, some 5)
    | 130 => some (K.HP_FLAGS, some 0) | 131 => some (K.HP_FLAGS, some 1) | 132 => some (K.HP_FLAGS, some 2)
    | 133 => some (K.HP_FLAGS, some 3) | 134 => some (K.HP_FLAGS, some 4) | 135 => some (K.HP_FLAGS, some 5)
    | 137 => some (K.HP_FLAGS, some 6)
    | 146 => some (K.LOG_FLAGS, some 0) | 147 => some (K.LOG_FLAGS, some 1) | 148 => some (K.LOG_FLAGS, some 2)
    | 149 => some (K.LOG_FLAGS, some 3) | 150 => some (K.LOG_FLAGS, some 4) | 151 => some (K.LOG_FLAGS, some 5)
    | 162 => some (K.CAL_FLAGS, some 0) | 164 => some (K.CAL_FLAGS, some 1) | 165 => some (K.CAL_FLAGS, some 2)
    | 166 => some (K.CAL_FLAGS, some 3) | 168 => some (K.CAL_FLAGS, some 4) | 169 => some (K.CAL_FLAGS, some 5)
    | 170 => some (K.CAL_FLAGS, some 6)
    | 180 => some (K.IC_FLAGS, some 0)
    | _ => none

/-- The flag a channel level source equals. -/
def chanLevel (s : Nat) : Option (Nat × Option Nat) :=
  if 17 ≤ s ∧ s ≤ 40 then some (0x81800E + 256 * ((s - 17) / 3), some ((s - 17) % 3))
  else if 137 ≤ s ∧ s ≤ 152 then (if s % 2 = 0 then some (K.DMA_FLAGS, some ((s - 138) / 2)) else none)
  else if 2 ≤ s ∧ s ≤ 12 then some (K.INPUT_FLAGS, some (s - 2))
  else if 43 ≤ s ∧ s ≤ 45 then some (K.FRONT_FLAGS, some (s - 43))
  else if 47 ≤ s ∧ s ≤ 52 then some (K.GEO_FLAGS, some (s - 47))
  else if 60 ≤ s ∧ s ≤ 67 then some (K.STATS_FLAGS, some (s - 59))
  else if 74 ≤ s ∧ s ≤ 81 then some (K.SEG_FLAGS, some (s - 74))
  else if 98 ≤ s ∧ s ≤ 104 then some (K.STK_FLAGS, some (s - 98))
  else match s with
    | 13 => some (K.CXP_CTRL_RX_COUNT, none)
    | 15 => some (K.INPUT_FLAGS, some 11) | 16 => some (K.INPUT_FLAGS, some 12)
    | 58 => some (K.STATS_FLAGS, some 0) | 69 => some (K.STATS_FLAGS, some 9)
    | 106 => some (K.STK_FLAGS, some 7) | 107 => some (K.STK_FLAGS, some 8)
    | 113 => some (K.RUSHES_FLAGS, some 0) | 115 => some (K.RUSHES_FLAGS, some 1)
    | 116 => some (K.RUSHES_FLAGS, some 2) | 118 => some (K.RUSHES_FLAGS, some 3)
    | 119 => some (K.RUSHES_FLAGS, some 4)
    | 121 => some (K.MEM_FLAGS, some 0) | 122 => some (K.MEM_FLAGS, some 1) | 124 => some (K.MEM_FLAGS, some 2)
    | 125 => some (K.MEM_FLAGS, some 3) | 128 => some (K.MEM_FLAGS, some 4)
    | 130 => some (K.CMP_FLAGS, some 0) | 131 => some (K.CMP_FLAGS, some 1) | 132 => some (K.CMP_FLAGS, some 2)
    | 134 => some (K.CMP_FLAGS, some 3)
    | 154 => some (K.C_IC_FLAGS, some 0)
    | 156 => some (K.CLOG_FLAGS, some 0) | 157 => some (K.CLOG_FLAGS, some 1)
    | _ => none

/-- The edge sources of the common controller. -/
def commonEdge (s : Nat) : Bool :=
  (1 ≤ s && s ≤ 48 && s % 6 == 0) || s == 52 || s == 53 || s == 54 || (65 ≤ s && s ≤ 67) || (73 ≤ s && s ≤ 76) || s == 97 ||
  s == 105 || s == 106 || s == 113 || s == 120 || s == 129 || s == 136 || s == 145 || s == 152 || s == 161 || s == 163 ||
  s == 167 || (177 ≤ s && s ≤ 179) || (181 ≤ s && s ≤ 188)

/-- The edge sources of a channel controller. -/
def chanEdge (s : Nat) : Bool :=
  s == 1 || s == 14 || s == 41 || s == 42 || s == 46 || s == 53 || s == 57 || s == 59 || s == 68 || s == 73 || s == 82 ||
  s == 97 || s == 105 || s == 108 || s == 114 || s == 117 || s == 120 || s == 123 || s == 126 || s == 127 || s == 129 ||
  s == 133 || (137 ≤ s && s ≤ 151 && s % 2 == 1) || s == 153 || s == 155 || s == 159 || s == 160

namespace Node

/-- The flag a level source of this unit equals. -/
def level (n : Node) (s : Nat) : Option (Nat × Option Nat) := if n.chan then chanLevel s else commonLevel s

/-- KIND of a source (R479): 0 reserved, 1 level, 2 edge. -/
def kind (n : Node) (s : Nat) : Nat :=
  if (n.level s).isSome then 1 else if (if n.chan then chanEdge s else commonEdge s) then 2 else 0

/-- The stored state of a source. -/
def src (n : Node) (s : Nat) : SrcState := tabGet {} n.srcs s
/-- Give a source its stored state. -/
def putSrc (n : Node) (s : Nat) (v : SrcState) : Node := { n with srcs := tabPut {} n.srcs s v }
/-- The state of a vector. -/
def vec (n : Node) (v : Nat) : VecState := tabGet {} n.vecs v
/-- Give a vector its state. -/
def putVec (n : Node) (v : Nat) (x : VecState) : Node := { n with vecs := tabPut {} n.vecs v x }

/-- PENDING of a source (R463): a level source equals its flag, an edge source is stored. -/
def pending (n : Node) (s : Nat) : Bool :=
  match n.level s with
  | some (k, some b) => n.bitOf k b
  | some (k, none) => n.num k != 0
  | none => (n.src s).pend

/-- A source that may be claimed (R465). -/
def eligible (n : Node) (s : Nat) : Bool :=
  n.pending s && (n.src s).enable && !(n.src s).active

/-- The value of a level source's flag object, 0 for another source (FLAG_VALUE of R489). -/
def flagValue (n : Node) (s : Nat) : Nat :=
  match n.level s with
  | some (k, _) => n.num k
  | none => 0

/-- A record handed to the origin's intake; one that finds it full is kept to be accounted for as refused (R486). -/
def hand (n : Node) (r : LogRec) : Node :=
  if n.intake.length < 16 then { n with intake := n.intake ++ [r] } else { n with shed := n.shed ++ [r] }

/-- A log record of this unit now: KIND, CODE and ARG (R487-R489). -/
def log (n : Node) (kind code arg : Nat) : Node :=
  n.hand { time := n.ns, gen := n.gen, kind := kind, origin := n.origin, code := code, arg := arg, pos := n.posn.pos,
           flagValue := if code < 0x200 then n.flagValue code else 0 }

/-- An ALARM of a source (R485, R488). -/
def alarm (n : Node) (code : Nat) : Node := n.log 2 code 0
/-- An EVENT. -/
def event (n : Node) (code arg : Nat) : Node := n.log 1 code arg

/-- Whether occurrences of a source are traced (TRACE_SEL, CTRACE_SEL: R485). -/
def traceSel (n : Node) (s : Nat) : Bool :=
  bit (n.elem (if n.chan then K.CTRACE_SEL else K.TRACE_SEL) (s / 32)) (s % 32)

/-- The TRACE of an occurrence: one in 2^TRACE_LOG2 of them, counted per source (R485). -/
def trace (n : Node) (s : Nat) : Node :=
  if n.traceSel s then
    if tabGet 0 n.traced s + 1 < 2 ^ n.traceLog2 then
      { n with traced := tabPut 0 n.traced s (tabGet 0 n.traced s + 1) }
    else Node.log { n with traced := tabPut 0 n.traced s 0 } 0 s 0
  else n

/-- One occurrence of a source (R463): COUNT rises and saturates, PENDING of an edge source is set. -/
def occur (n : Node) (s : Nat) : Node :=
  let o := n.src s
  let was := n.pending s
  let edge := (n.level s).isNone
  let n := n.putSrc s { o with pend := o.pend || edge, count := min 255 (o.count + 1) }
  let n := { n with fresh := if edge && was then n.fresh else n.fresh ++ [s] }
  n.trace s

/-- The level source of a flag bit of this unit. -/
def flagSource (n : Node) (k b : Nat) : Option Nat := if n.chan then chanFlagSource k b else commonFlagSource k b

/-- A scalar object given a value, with the occurrence of the level source it belongs to where PENDING rises (R463). -/
def putFlags (n : Node) (k b v : Nat) : Node :=
  match n.flagSource k b with
  | some s => if !n.pending s && Node.pending (n.putN k v) s then (n.putN k v).occur s else n.putN k v
  | none => n.putN k v

/-- Set bit `b` of a flag object. -/
def setFlag (n : Node) (k b : Nat) : Node := n.putFlags k b (setBit (n.num k) b)

/-- Clear bit `b` of a flag object. -/
def clrFlag (n : Node) (k b : Nat) : Node := n.putN k (clrBit (n.num k) b)

end Node

end Sys2Proof.Machine
end

