-- ==== Sys2Proof/Machine/Ops.lean ====
section
/-!
DEFINITION. The named operations over channel memory, host rings and bytes that the meanings share.
-/

namespace Sys2Proof.Machine

/-! ## Channel memory: addresses rising, no cell equal to what an unlisted address reads as -/

/-- What a byte of channel memory that nothing has written reads as: 0. The spec gives no value (DESIGN CHOICE, log entry 5). -/
def memBlank : Byte := 0

/-- The byte at an address. -/
def memGet : List Host.Cell → Nat → Byte
  | [], _ => memBlank
  | (j, v) :: r, a => if j = a then v else memGet r a

/-- Memory with one byte written. -/
def memPut (m : List Host.Cell) (a : Nat) (v : Byte) : List Host.Cell := tabPut memBlank m a v

/-- The `n` bytes from an address, as numbers. -/
def memRead (m : List Host.Cell) (a n : Nat) : List Nat := (List.range n).map fun i => (memGet m (a + i)).toNat

/-- Memory with bytes written from an address up. -/
def memWrite : List Host.Cell → Nat → List Nat → List Host.Cell
  | m, _, [] => m
  | m, a, b :: bs => memWrite (memPut m a (BitVec.ofNat 8 b)) (a + 1) bs

/-- A little-endian number of `n` bytes at an address. -/
def memNum (m : List Host.Cell) (a n : Nat) : Nat := ofLe (memRead m a n)

/-- The canonical form: addresses rise strictly from above `lo`, and no cell holds the blank value. -/
def memWfFrom : Option Nat → List Host.Cell → Bool
  | _, [] => true
  | lo, (a, v) :: r => (match lo with | none => true | some l => decide (l < a)) && (v != memBlank) && memWfFrom (some a) r

/-- The canonical form of channel memory. -/
def memWf (m : List Host.Cell) : Bool := memWfFrom none m

/-! ## Rings (R318, R420, R349): entries of `esz` bytes, `esz` bytes always unused -/

/-- Bytes free in a ring for the writer. -/
def ringFree (size wr rd esz : Nat) : Nat :=
  if size = 0 then 0 else (rd + 2 * size - wr - esz) % size

/-- The function's writers send nothing: they are held, or it is in D3hot (R459, R460). -/
def Function.silent (f : Function) : Bool := f.held || f.d3hot

/-- The ring has room for an entry, and the function's writers run (R318, R459); `held`: they do not. -/
def ringRoom (held : Bool) (size wr rd esz : Nat) : Bool :=
  !held && size != 0 && esz ≤ ringFree size wr rd esz

/-- The offset after an entry. -/
def ringNext (size wr esz : Nat) : Nat := if size = 0 then 0 else (wr + esz) % size

/-- Write one entry to a host ring: its bytes, then the offset, then the offset's copy at `wb` (R318). `kWr` is the object of the
write offset. -/
def Node.ringPut (n : Node) (addr size wb kWr : Nat) (bytes : List Nat) : Node :=
  let wr := n.num kWr
  let n := n.emit (.busWrite (addr + wr) bytes)
  let wr' := ringNext size wr bytes.length
  let n := n.putN kWr wr'
  if wb = 0 then n else n.emit (.busWrite wb (leBytes 4 wr'))

/-! ## Times and positions -/

/-- A TIME64 element (nanoseconds in the low 64 bits, the fraction above) of a time in ticks. -/
def time64 (t : Ticks) : Nat := t / 65536 % 2 ^ 64 + t % 65536 * 2 ^ 64

/-- A TIME64 element of a time-stamp: modulo 2^64 ns. -/
def stamp64 (t : Stamp) : Nat := time64 (toBits 80 t)

/-- `n` ENCCLK cycles of 2.5 ns, in ticks (R101). -/
def cycleTicks (n : Nat) : Ticks := 163840 * n

/-- The ticks from a time-stamp to a later time; 0 where it is not later. -/
def since (t u : Stamp) : Nat := (t - u).toNat

/-- The unit `n` ENCCLK cycles on: the engines of that clock extend device time by 2.5 ns in each (R102). -/
def Node.later (x : Node) (n : Nat) : Node := { x with now := x.now + cycleTicks n, mono := x.mono + cycleTicks n }

/-- A time in ticks of a TIME64 element. -/
def ofTime64 (x : Nat) : Ticks := x % 2 ^ 64 * 65536 + x / 2 ^ 64 % 65536

/-- The low 64 bits of a position, as POS64 carries it. -/
def pos64 (p : Pos) : Nat := toBits 64 p

/-- `n` nanoseconds in ticks. -/
def nsTicks (n : Nat) : Ticks := n * 65536

/-- The largest grid point k·pitch + phase at or below `p` (R120). -/
def gridBelow (pitch phase : Nat) (p : Pos) : Pos :=
  if pitch = 0 then p else (p - (phase : Int)) / (pitch : Int) * (pitch : Int) + phase

/-- Steps the time of the position copy a unit holds when device time steps (R129). -/
def PosCopy.step (p : PosCopy) (d : Int) : PosCopy := { p with stamp := p.stamp + d }

end Sys2Proof.Machine
end

