-- ==== Sys2Proof/Machine/ChanOps.lean ====
section
/-!
DEFINITION. The named operations over a channel: in-force values of a line's generation or position (R44, R45), published counts (R50),
power-state tests, reports to the common block, pins that leave high-impedance.
-/

namespace Sys2Proof.Machine

/-- A channel in Doze or Park, or on the way there, which an access of BAR2 or BAR4 wakes (R453, R477, R527, R528). -/
def ChanPower.sleepy (p : ChanPower) : Bool :=
  p.st == .doze || p.st == .park || p.phase == .entering .doze || p.phase == .entering .park

/-- Key of object `k` of head, lane, thread or output `i` (one index apart). -/
def ik (k i : Nat) : Nat := k + 256 * i

namespace Store
/-- The elements of an object in a view. -/
def elems (d : Store) (k : Nat) : List Nat := storeGet d k
/-- Element `i` of an object in a view. -/
def elem (d : Store) (k i : Nat) : Nat := (d.elems k).getD i 0
/-- A scalar object in a view. -/
def num (d : Store) (k : Nat) : Nat := d.elem k 0
/-- A scalar of `w` bits read in two's complement. -/
def sint (d : Store) (w k : Nat) : Int := toSigned w (d.num k)
/-- Element `i` of `w` bits read in two's complement. -/
def sintE (d : Store) (w k i : Nat) : Int := toSigned w (d.elem k i)
/-- A truth value. -/
def flag (d : Store) (k : Nat) : Bool := d.num k == 1
/-- The objects of a set put over the view. -/
def overlay (d : Store) (es : Store) : Store := es.foldl (fun b (k, v) => tabIns b k v) d
end Store

namespace Stage
/-- The values in force for a head line of generation `g` (R44, R45). -/
def viewIn (st : Stage) (g : Nat) : Store :=
  (st.sets.filter fun s => genLe s.gen g).foldl (fun d s => Store.overlay d s.entries) st.base
/-- The values in force for an output line at `y` (R44, R45). -/
def viewOut (st : Stage) (y : Pos) : Store :=
  (st.sets.filter fun s => decide (s.pos ≤ y)).foldl (fun d s => Store.overlay d s.entries) st.base
/-- The generation an output line at `y` runs under. -/
def genOut (st : Stage) (y : Pos) : Nat :=
  (st.sets.filter fun s => decide (s.pos ≤ y)).foldl (fun _ s => s.gen) st.gen
/-- The generation a head line of descriptor generation `g` runs under. -/
def genIn (st : Stage) (g : Nat) : Nat :=
  (st.sets.filter fun s => genLe s.gen g).foldl (fun _ s => s.gen) st.gen
end Stage

namespace ChanSlate
/-- Stage `k` of R45. -/
def stage (s : ChanSlate) (k : Nat) : Stage := s.stages.getD k {}
end ChanSlate

namespace Chan

/-- The values stage `k` uses for a head line of generation `g`. -/
def viewIn (c : Chan) (k g : Nat) : Store := (c.slate.stage k).viewIn g
/-- The values stage `k` uses for an output line at `y`. -/
def viewOut (c : Chan) (k : Nat) (y : Pos) : Store := (c.slate.stage k).viewOut y

/-- Apply a function to the unit. -/
def mapN (c : Chan) (f : Node → Node) : Chan := { c with n := f c.n }

/-- The channel is held in reset. -/
def inReset (c : Chan) : Bool := c.power.phase == .reset
/-- The channel is in Doze or Park, or in a wake from one of them (R529). -/
def deep (c : Chan) : Bool := c.power.st == .doze || c.power.st == .park
/-- PXCLK is gated to the front end and every later stage: in Hold, Doze and Park, up to wake completion (R521, R522). -/
def gated (c : Chan) : Bool := c.power.st != .run
/-- The channel runs: steady in Run. -/
def running (c : Chan) : Bool := c.power.st == .run && c.power.phase == .steady
/-- The channel's pins drive: it has entered Run since PORST, and a commit has come since PORST or the channel reset (R535, R536). -/
def live (c : Chan) : Bool := c.slate.started && c.power.started && !c.inReset

/-- A report to the common block. -/
def signal (c : Chan) (x : Signal) : Chan := { c with power := { c.power with sig := c.power.sig ++ [x] } }
/-- An event for the recorder and the check-value contexts. -/
def note (c : Chan) (x : Note) : Chan := { c with notes := c.notes ++ [x] }
/-- The channel is in Retake: detached from its inputs and pins (R344, R366, R368). -/
def detached (c : Chan) : Bool := c.n.num K.RETAKE_STATE != 0
/-- The channel replays a journal (R368). -/
def replaying (c : Chan) : Bool := c.n.num K.RETAKE_STATE == 2
/-- A wake cause (R527). -/
def wakeCause (c : Chan) : Chan := { c with power := { c.power with cause := true } }

/-- The element of a published object counted for generation `g`. -/
def pubElems (c : Chan) (g k : Nat) : List Nat := storeGet (tabGet [] c.slate.pub.building g) k

/-- Give a published object of generation `g` its elements (R50). -/
def pubPut (c : Chan) (g k : Nat) (v : List Nat) : Chan :=
  { c with slate := { c.slate with pub := { c.slate.pub with
      building := tabPut [] c.slate.pub.building g (storePut (tabGet [] c.slate.pub.building g) k v) } } }

/-- Count `d` on element `i` of a published `w`-bit counter of generation `g`. -/
def pubAdd (c : Chan) (g w k i d : Nat) : Chan :=
  if d = 0 then c else c.pubPut g k (listPut (c.pubElems g k) i (wrap w ((c.pubElems g k).getD i 0 + d)))

/-- Count `d` on a published scalar of `w` bits. -/
def pubInc (c : Chan) (g w k d : Nat) : Chan := c.pubAdd g w k 0 d

/-- The input of head `h`. -/
def head (c : Chan) (h : Nat) : HeadIn := c.input.heads.getD h {}
/-- Give head `h` its input. -/
def putHead (c : Chan) (h : Nat) (x : HeadIn) : Chan := { c with input := { c.input with heads := listPut c.input.heads h x } }
/-- Change head `h`. -/
def modHead (c : Chan) (h : Nat) (f : HeadIn → HeadIn) : Chan := c.putHead h (f (c.head h))

/-- HEAD_RATE_MAX of head `h` in force. -/
def rate (c : Chan) (h : Nat) : Nat := c.n.elem K.HEAD_RATE_MAX h
/-- The channel's number (R486). -/
def num (c : Chan) : Nat := c.n.origin - 1
/-- The global number of head `h` (R3). -/
def globalHead (c : Chan) (h : Nat) : Nat := 4 * c.num + h
/-- The head is active. -/
def active (c : Chan) (h : Nat) : Bool := c.rate h != 0

end Chan

/-- The heads with HEAD_RATE_MAX non-zero in a view. -/
def activeIn (v : Store) : List Nat := (List.range 4).filter fun h => v.elem K.HEAD_RATE_MAX h != 0

end Sys2Proof.Machine
end

