-- ==== Sys2Proof/Machine/MemEngine.lean ====
section
/-!
DEFINITION. Chapter 13: the channel memory controller. Requests and their answers, subchannel queues, refresh and its debt, neighbour
refresh, self-refresh, frequency change and training. The bytes a request writes and reads are those at its acceptance (R381).
-/

namespace Sys2Proof.Machine

/-- log2 of the rows of a bank, for a density in Gb (R378). -/
def rowBits (density : Nat) : Nat := match density with | 4 => 14 | 8 => 15 | 16 => 16 | _ => 17

/-- The bank of an address whose bits from 17 up are `row`, numbered BA + 4·BG (R378). -/
def mapBank (order a row : Nat) : Nat := match order with
  | 0 => bits a 14 13 + 4 * bits a 16 15
  | 1 => bits a 11 10 + 4 * bits a 9 8
  | 2 => bits a 9 8 + 4 * bits a 11 10
  | _ =>
    let f := Nat.xor (Nat.xor (bits a 11 8) (bits row 3 0)) (bits row 7 4)
    f / 4 + 4 * (f % 4)

/-- The column of an address (R378). -/
def mapColumn (order a : Nat) : Nat := if order = 0 then bits a 12 8 else bits a 16 12

/-- The rank, bank and row of an address (R378). -/
def mapAddr (order density a : Nat) : Nat × Nat × Nat :=
  let rho := rowBits density
  let row := a / 2 ^ 17 % 2 ^ rho
  (bits a (17 + rho) (17 + rho), mapBank order a row, row)

/-- The bits above the row, rank first: the rank moves to bit 17 of what lies above A[16:0], the rest closes up (`placeHigh`), and back
(`addrHigh`). -/
def placeHigh (density h : Nat) : Nat :=
  let r := rowBits density
  h % 2 ^ r + 2 ^ r * (h / 2 ^ (r + 1)) + 2 ^ 17 * bits h r r
/-- The address bits from 17 up, from the place's. -/
def addrHigh (density p : Nat) : Nat :=
  let r := rowBits density
  p % 2 ^ r + 2 ^ r * (p / 2 ^ 17) + 2 ^ (r + 1) * (p % 2 ^ 17 / 2 ^ r)

/-- The place of an address in the memory array, whatever the order: byte, subchannel, BG, BA, column, row, rank, from bit 0 up (R378). -/
def placeOf (order density a : Nat) : Nat :=
  let b := mapBank order a (a / 2 ^ 17)
  a % 256 + 256 * (b / 4) + 1024 * (b % 4) + 4096 * mapColumn order a + 2 ^ 17 * placeHigh density (a / 2 ^ 17)

/-- The address of a place of the array under an order: `placeOf` undone. -/
def addrOf (order density p : Nat) : Nat :=
  let bg := bits p 9 8
  let ba := bits p 11 10
  let col := bits p 16 12
  let row := addrHigh density (p / 2 ^ 17)
  let low := match order with
    | 0 => 256 * col + 8192 * ba + 32768 * bg
    | 1 => 256 * bg + 1024 * ba + 4096 * col
    | 2 => 256 * ba + 1024 * bg + 4096 * col
    | _ => 256 * Nat.xor (Nat.xor (bg + 4 * ba) (bits row 3 0)) (bits row 7 4) + 4096 * col
  p % 256 + low + 2 ^ 17 * row

/-- The memory as a new configuration addresses it: a training leaves the array's contents unchanged (R393), so each byte stands at the
address the new mapping gives its place. -/
def remap (old new : MemCfg) (m : List Host.Cell) : List Host.Cell :=
  if old.order = new.order ∧ old.density = new.density then m
  else m.foldl (fun m c => memPut m (addrOf new.order new.density (placeOf old.order old.density c.1)) c.2) []

/-- One step of the LFSR of R387 (x^32 + x^22 + x^2 + x + 1, Galois form, shifting right). -/
def lfsrStep (x : Nat) : Nat := if x % 2 = 1 then Nat.xor (x / 2) 0x80200003 else x / 2

/-- `k` steps of the LFSR. -/
def lfsrSteps : Nat → Nat → Nat
  | 0, x => x
  | k + 1, x => lfsrSteps k (lfsrStep x)

/-- The limit L of R384 at multiplier `m`. -/
def debtLimit (m : Nat) : Int := match m with | 1 => 8 | 2 => 4 | _ => 2

/-- The debt converted at a change of M (R386). -/
def convertDebt (d : Int) (old new : Nat) : Int :=
  if old < new then
    if 0 ≤ d then -((-(d * new)) / (max 1 old : Nat)) else -(((-d) * new) / (max 1 old : Nat))
  else d * new / (max 1 old : Nat)

/-- M of a reported temperature range: 0 up to 85 °C, 1 up to 105 °C, 2 above within the operating range, 3 above it (R385). -/
def rangeM (r : Nat) : Nat := match r with | 0 => 1 | 1 => 2 | _ => 4

namespace Chan

/-- MEM_STATE. -/
def memState (c : Chan) : Nat := c.n.num K.MEM_STATE
/-- Give MEM_STATE its value. -/
def memGo (c : Chan) (s : Nat) : Chan := c.mapN (·.putN K.MEM_STATE s)
/-- Channel memory answers: neither OFF nor FAILED (R393, R394). -/
def memUp (c : Chan) : Bool := c.memState != 0 && c.memState != 7
/-- Change the controller. -/
def modMc (c : Chan) (f : MemCtl → MemCtl) : Chan := { c with mc := f c.mc }
/-- Refresh of a subchannel and rank, element 2s + r. -/
def rankRef (c : Chan) (i : Nat) : RankRefresh := c.mc.refs.getD i {}
/-- Change the refresh of a subchannel and rank. -/
def modRef (c : Chan) (i : Nat) (f : RankRefresh → RankRefresh) : Chan := c.modMc fun m => { m with refs := listPut m.refs i (f (c.rankRef i)) }
/-- The debt of a subchannel and rank. -/
def debt (c : Chan) (i : Nat) : Int := toSigned 8 (c.n.elem K.REF_DEBT i)
/-- Give the debt its value. -/
def putDebt (c : Chan) (i : Nat) (d : Int) : Chan := c.mapN (·.putE K.REF_DEBT i (toBits 8 (clampI (-32) 32 d)))
/-- M of a subchannel and rank. -/
def refM (c : Chan) (i : Nat) : Nat := c.n.elem K.REF_RATE i
/-- The memory has rank `i mod 2`. -/
def hasRank (c : Chan) (i : Nat) : Bool := decide (i < 8) && decide (i % 2 < c.mc.cfg.ranks)
/-- Key of an object of timing set `a` (0 A, 1 B). -/
def setKey (a sub : Nat) : Nat := 0x860800 + 256 * a + sub

/-! ### Activates, neighbour refresh and refresh (R384, R387) -/

/-- An activate of a row steps the LFSR, and may activate the two neighbour rows (R387). -/
def memActivate (c : Chan) (row : Nat) : Chan :=
  let k := c.n.num K.NBR_LOG2
  if k = 0 then c else
    let x := lfsrStep c.mc.lfsr
    if x % 2 ^ k ≠ 0 then c.modMc fun m => { m with lfsr := x } else
      let count := b2n (row != 0) + b2n (decide (row + 1 < 2 ^ rowBits c.mc.cfg.density))
      Chan.mapN (c.modMc fun m => { m with lfsr := lfsrSteps count x }) (·.add 64 K.NBR_REFRESHES count)

/-- A REFpb of a subchannel and rank is issued (R384). Which row it refreshes is the memory's own: a free value. -/
def refIssue (c : Chan) (i : Nat) : Chan :=
  let (row, n) := c.n.takeFree (rowBits c.mc.cfg.density)
  let c := { c with n := n }
  let c := c.putDebt i (c.debt i - 1)
  let c := c.modRef i fun r => { r with busy := r.busy ++ [r.bank], bank := (r.bank + 1) % 16 }
  c.memActivate row

/-- The bank has a queued access. -/
def bankQueued (c : Chan) (i bank : Nat) : Bool :=
  (c.mc.queues.getD (i / 2) []).any fun a => a.rank == i % 2 && a.bank == bank

/-- A REFpb is issued where R384 allows or demands one. -/
def refTry (c : Chan) (i : Nat) : Chan :=
  let r := c.rankRef i
  if c.memState ≠ 2 ∨ r.burst = true ∨ c.hasRank i = false then c
  else if debtLimit (c.refM i) < c.debt i then c.refIssue i
  else if -8 < c.debt i ∧ r.busy = [] ∧ c.bankQueued i r.bank = false then c.refIssue i
  else c

/-- A slot falls due (R384). -/
def refSlot (c : Chan) (i : Nat) : Chan :=
  if (c.memState = 2 ∨ c.memState = 3 ∨ c.memState = 6) ∧ c.hasRank i = true then Chan.refTry (c.putDebt i (c.debt i + 1)) i else c

/-- A bank returns to service tRFCpb after its REFpb (R384). -/
def refDone (c : Chan) (i : Nat) : Chan := Chan.refTry (c.modRef i fun r => { r with busy := r.busy.drop 1 }) i

/-- One REFpb of a forced burst; the burst ends once the debt is at most L/2 (R386). -/
def burstStep (c : Chan) (i : Nat) : Chan :=
  if (c.rankRef i).burst = false then c else
    let c := c.refIssue i
    if c.debt i ≤ debtLimit (c.refM i) / 2 then c.modRef i fun r => { r with burst := false } else c

/-- M of a subchannel and rank changes, its debt converted, with a forced burst where the debt then exceeds L (R385, R386). -/
def refChange (c : Chan) (i new : Nat) : Chan :=
  let old := c.refM i
  let c := c.putDebt i (convertDebt (c.debt i) old new)
  let c := c.mapN fun n => Node.occur (Node.event ((n.putE K.REF_RATE i new).inc K.RATE_CHANGES) 123 0) 123
  if old < new ∧ debtLimit new < c.debt i then
    let c := c.mapN fun n => Node.event ((n.inc K.FORCED_BURSTS).setFlag K.MEM_FLAGS 2) 124 0
    Chan.burstStep (c.modRef i fun r => { r with burst := true }) i
  else c

/-- One MR4 reading of a subchannel and rank: its value and the range it reports. `atOnce` waives the two-poll rule (R385, R390). -/
def mr4Read (c : Chan) (atOnce : Bool) (i value range : Nat) : Chan :=
  if c.hasRank i = false then c else
    let c := c.mapN (·.putE K.MR4_LAST i (value % 256))
    let m := c.refM i
    let new := rangeM range
    let r := c.rankRef i
    let c := c.modRef i fun r => { r with lower := if new < m then some new else none }
    let c := if m < new ∨ (new < m ∧ (atOnce = true ∨ r.lower = some new)) then
        Chan.modRef (c.refChange i new) i fun r => { r with lower := none }
      else c
    if range = 3 then
      let was := c.n.bitOf K.MEM_FLAGS 3
      let c := c.mapN (·.setFlag K.MEM_FLAGS 3)
      if was then c else c.mapN (·.alarm 125)
    else c

/-- MR4 of every subchannel and rank (R385). -/
def mr4All (c : Chan) (atOnce : Bool) (vals : List (Nat × Nat)) : Chan :=
  (vals.mapIdx fun i (v : Nat × Nat) => (i, v)).foldl (fun c e => c.mr4Read atOnce e.1 e.2.1 e.2.2) c

/-! ### Requests (R378-R382) -/

/-- MEM_CAPACITY of a configuration (R377). -/
def capacityOf (m : MemCfg) : Nat := 4 * m.ranks * m.density * 2 ^ 30 / 8

/-- MEM_TYPE, MEM_DENSITY, MEM_RANKS and ADDR_ORDER as the objects hold them now. -/
def cfgNow (n : Node) : MemCfg :=
  { kind := n.num K.MEM_TYPE, density := n.num K.MEM_DENSITY, ranks := n.num K.MEM_RANKS, order := n.num K.ADDR_ORDER }

/-- The capacity a request is held to: MEM_CAPACITY, or during a training that of the configuration it trains, since a request waits for
its end (R379, R393). -/
def memSize (c : Chan) : Nat := if c.memState = 1 then capacityOf c.mc.next else c.n.num K.MEM_CAPACITY

/-- The answer of MEM_REQ for an address range (R379, R393): 0 OK, 1 ADDR, 2 UNAVAIL. -/
def memStatus (c : Chan) (addr len : Nat) : Nat :=
  if c.memUp = false then 2 else if len ≠ 0 ∧ c.memSize < addr + len then 1 else 0

/-- A request out of range is recorded (R379). -/
def memBadAddr (c : Chan) (addr : Nat) : Chan :=
  c.mapN fun n =>
    let n := if n.bitOf K.MEM_FLAGS 1 then n else n.putN K.ADDR_ERR_ADDR addr
    (n.inc K.ADDR_ERR_COUNT).setFlag K.MEM_FLAGS 1

/-- The accesses of a range enter the subchannels' queues, one a granule (R378, R380). -/
def memAccesses (c : Chan) (write : Bool) (addr len : Nat) (req : Option Nat) : Chan :=
  let first := addr / 64
  let count := if len = 0 then 0 else (addr + len - 1) / 64 + 1 - first
  (List.range count).foldl (fun c j =>
    let g := first + j
    let (rank, bank, row) := mapAddr c.mc.cfg.order c.mc.cfg.density (64 * g)
    let a : MemAccess := { write := write, gran := g, rank := rank, bank := bank, row := row, req := req }
    c.modMc fun m => { m with queues := listPut m.queues (g % 4) (m.queues.getD (g % 4) [] ++ [a]) }) c

/-- An entry to Doze or Park aborts (R528): the channel is in Run again. -/
def entryAbort (c : Chan) : Chan :=
  match c.power.phase with
  | .entering .hold => c
  | .entering _ =>
    let c := { c with power := { c.power with phase := .steady, aborts := wrap 32 (c.power.aborts + 1) } }
    Chan.signal (c.signal (.pwrFlag 1)) (.source 113)
  | _ => c

/-- An entry to self-refresh is under way that a request may still abort (R389). -/
def srMayAbort (c : Chan) : Bool := c.memState == 3 && !c.mc.causes.contains .reset

/-- A request reaches MEM_REQ: before the commit point it aborts an entry that may abort (R389). -/
def memArrive (c : Chan) : Chan :=
  if c.srMayAbort then Chan.entryAbort (Chan.mapN (Chan.memGo (c.modMc fun m => { m with causes := [] }) 2) (·.inc K.SR_ABORTS))
  else c

/-- A request would wait at MEM_REQ: the controller answers, but in a state that grants none (R389, R392, R393). A unit whose next action
needs a read waits with it. -/
def memWaiting (c : Chan) : Bool := c.memUp && c.memState != 2 && !c.srMayAbort

/-- The tag of a unit's own posted writes, which have no answer; those of DMA thread t have `unitWrites + 1 + t`. -/
def unitWrites : Nat := 131073

/-- A unit of the channel writes bytes as a request of class `cls`: the status, and where it is OK memory written and the accesses queued. In
a state that grants no request the write waits at MEM_REQ in its class (R382). -/
def memStore (c : Chan) (cls addr : Nat) (bytes : List Nat) (tag : Nat := unitWrites) : Chan × Nat :=
  let c := c.memArrive
  match c.memStatus addr bytes.length with
  | 0 =>
    if c.memState = 2 then (Chan.memAccesses { c with mem := memWrite c.mem addr bytes } true addr bytes.length none, 0)
    else if bytes = [] then (c, 0)
    else
      let r : MemReq := { tag := tag, cls := cls, write := true, addr := addr, len := bytes.length, bytes := bytes }
      (c.modMc fun m => { m with waiting := m.waiting ++ [r] }, 0)
  | 1 => (c.memBadAddr addr, 1)
  | s => (c, s)

/-- A unit of the channel reads bytes: the status, and the bytes, zeros where it is not OK. Its caller asks only where `memWaiting` is
false. -/
def memLoad (c : Chan) (addr len : Nat) : Chan × Nat × List Nat :=
  let c := c.memArrive
  match c.memStatus addr len with
  | 0 => (c.memAccesses false addr len none, 0, memRead c.mem addr len)
  | 1 => (c.memBadAddr addr, 1, zeros len)
  | s => (c, s, zeros len)

/-- Bytes written to a ring of channel memory at an offset, going on at offset 0 from its end; the first status that is not OK. -/
def memStoreRing (c : Chan) (cls addr size off : Nat) (bytes : List Nat) : Chan × Nat :=
  if size = 0 then (c, 0) else
    let (c, s) := c.memStore cls (addr + off) (bytes.take (size - off))
    let rest := bytes.drop (size - off)
    if rest = [] then (c, s) else
      let (c, t) := c.memStore cls addr rest
      (c, if s = 0 then t else s)

/-- Bytes read from a ring of channel memory. -/
def memLoadRing (c : Chan) (addr size off len : Nat) : Chan × Nat × List Nat :=
  if size = 0 then (c, 0, zeros len) else
    let one := min len (size - off)
    let (c, s, a) := c.memLoad (addr + off) one
    if one = len then (c, s, a) else
      let (c, t, b) := c.memLoad addr (len - one)
      (c, if s = 0 then t else s, a ++ b)

/-- Tags of the host's window requests (16 R453): a read's data leave as its completion, a write has no answer. -/
def windowTag (r : Nat) : Nat := 65536 + r
/-- The tag of the window's posted writes. -/
def windowWrites : Nat := 131072

/-- The completions of a window read at `addr`: each holds at most Max Payload Size, `m` bytes, and they part at 64-byte boundaries
(16 R456). -/
def completionParts (m : Nat) : Nat → Nat → List Nat → List (List Nat)
  | 0, _, b => [b]
  | k + 1, addr, b =>
    if b.length ≤ m then [b] else
      let n := m - addr % 64
      b.take n :: completionParts m k (addr + n) (b.drop n)

/-- The completions of a window read leave. -/
def windowCompletions (addr : Nat) (bytes : List Nat) (n : Node) : Node :=
  (completionParts (128 * 2 ^ n.fn.mps) bytes.length addr bytes).foldl (fun n b => n.emit (.completion 0 b)) n

/-- A request at `addr` is answered: MEM_REQ's response, or what the host sees of its window (16 R453). -/
def memAnswer (c : Chan) (tag addr status : Nat) (bytes : List Nat) : Chan :=
  if tag < 65536 then c.mapN (·.emit (.memResp c.num tag status bytes))
  else if unitWrites ≤ tag then c
  else
    let c := if tag = windowWrites then c else c.mapN (windowCompletions addr (if status = 0 then bytes else bytes.map fun _ => 255))
    if status = 0 then c else c.signal .window

/-- A request of MEM_REQUEST is granted (R380): answered at once where it is refused, else split into accesses. -/
def memGrant (c : Chan) (r : MemReq) : Chan :=
  match c.memStatus r.addr r.len with
  | 0 =>
    if r.len = 0 then c.memAnswer r.tag r.addr 0 [] else
      let got := if r.write then [] else memRead c.mem r.addr r.len
      let c := if r.write then { c with mem := memWrite c.mem r.addr (padTo r.len r.bytes) } else c
      let count := (r.addr + r.len - 1) / 64 + 1 - r.addr / 64
      Chan.memAccesses (c.modMc fun m => { m with opened := m.opened ++ [{ tag := r.tag, addr := r.addr, left := count, bytes := got }] })
        r.write r.addr r.len (some r.tag)
  | s =>
    let c := if s = 1 then c.memBadAddr r.addr else c
    c.memAnswer r.tag r.addr s (if r.write then [] else zeros r.len)

/-- A grant made while Class C and Class D both wait (R33): of every 8 of them the last `share` go to D, the others to C. Whether D has it,
and the turn and D's grants of these 8 after it. -/
def shareTurn (share : Nat) (t : Turns) : Bool × Turns :=
  let toD : Bool := decide (8 ≤ t.turn + (share - t.given)) && decide (t.given < share)
  let turn := (t.turn + 1) % 8
  (toD, { turn := turn, given := if turn = 0 then 0 else t.given + b2n toD })

/-- The next request MEM_REQ grants, as its place, of those in its FIFO of 128 (R25, R382): the alignment ring's first, then Class C, then
Class D with its minimum share. -/
def memTurn (share : Nat) (w : List MemReq) (t : Turns) : Nat × Turns :=
  let w := w.take 128
  let c := w.findIdx (·.cls == 1)
  let d := w.findIdx (fun r => r.cls != 0 && r.cls != 1)
  if w.any (·.cls == 0) then (w.findIdx (·.cls == 0), t)
  else if c < w.length ∧ d < w.length then
    let (toD, t) := shareTurn share t
    (if toD then d else c, t)
  else (min c d, t)

/-- The order in which the requests that wait are granted. A requester beyond the 128th enters MEM_REQ at a grant (R25). -/
def memTurns (share : Nat) : Nat → List MemReq → Turns → List MemReq × Turns
  | 0, w, t => (w, t)
  | k + 1, w, t =>
    let (j, t) := memTurn share w t
    match w[j]? with
    | none => (w, t)
    | some r =>
      let (l, t) := memTurns share k (w.take j ++ w.drop (j + 1)) t
      (r :: l, t)

/-- Requests that wait are granted or refused once the controller answers, in the order of R382. -/
def memResume (c : Chan) : Chan :=
  if c.memState = 2 ∨ c.memUp = false then
    let w := c.mc.waiting
    let (l, t) := memTurns (c.n.num K.CD_MIN_SHARE) w.length w c.mc.turns
    l.foldl memGrant (c.modMc fun m => { m with waiting := [], turns := t })
  else c

/-- A request reaches MEM_REQ (R381, R382, R389). -/
def memRequest (c : Chan) (r : MemReq) : Chan :=
  Chan.memResume (Chan.modMc c.memArrive fun m => { m with waiting := m.waiting ++ [r] })

/-- Bytes moved are counted by the millisecond (BW_NOW). -/
def memCount (c : Chan) : Chan :=
  let t := c.n.mono / nsTicks 1000000
  c.modMc fun m =>
    if m.ms = t then { m with msBytes := m.msBytes + 64 }
    else { m with ms := t, msBytes := 64, lastBytes := if m.ms + 1 = t then m.msBytes else 0 }

/-- Access `j` of subchannel `s` can complete: it is in the command queue, no earlier access to its granule is outstanding (R381), and
its bank is not under refresh (R384). -/
def memFree (c : Chan) (s j : Nat) : Option MemAccess :=
  let q := c.mc.queues.getD s []
  match q[j]? with
  | some a =>
    if j < 32 ∧ !(q.take j).any (fun b => b.gran == a.gran) ∧ !(c.rankRef (2 * s + a.rank)).busy.contains a.bank then some a else none
  | none => none

/-- The places in the command queue of subchannel `s` whose access, with those before it and those after it, meets `p`. -/
def memPlaces (c : Chan) (s : Nat) (p : List MemAccess → MemAccess → List MemAccess → Bool) : List Nat :=
  let q := (c.mc.queues.getD s []).take 32
  (List.range q.length).filter fun j => match q[j]? with | some a => p (q.take j) a (q.drop (j + 1)) | none => false

/-- No earlier access of the other direction to the same granule is outstanding: the access waits for its batch alone (R381). -/
def memAlone (before : List MemAccess) (a : MemAccess) : Bool := !before.any fun b => b.gran == a.gran && b.write != a.write

/-- The accesses of direction `w` that go first of their direction: those that have waited behind a batch of the other, and those to whose
granule a later one has (R381). -/
def memUrgent (c : Chan) (s : Nat) (w : Bool) : List Nat :=
  c.memPlaces s fun before a after =>
    a.write == w && memAlone before a && (decide (1 ≤ a.behind) || after.any fun b => b.gran == a.gran && decide (1 ≤ b.behind))

/-- An access of direction `w` has waited behind two batches of the other: none begins before it goes (R381). -/
def memDue (c : Chan) (s : Nat) (w : Bool) : Bool :=
  c.memPlaces s (fun before a _ => a.write == w && memAlone before a && decide (2 ≤ a.behind)) != []

/-- Access `j` of subchannel `s` can go as one of its direction. -/
def memCandidate (c : Chan) (s j : Nat) : Option MemAccess :=
  match c.memFree s j with
  | some a => if [] = c.memUrgent s a.write ∨ (c.memUrgent s a.write).head? = some j then some a else none
  | none => none

/-- An access of direction `w` can go. -/
def memWaits (c : Chan) (s : Nat) (w : Bool) : Bool :=
  (List.range 32).any fun j => match c.memCandidate s j with | some a => a.write == w | none => false

/-- The batches of R381 let an access of direction `w` go next in subchannel `s`. A batch has at most 16; it goes on while an access of its
direction can go or must go first, and none begins while an access of the other direction has waited behind two. -/
def memTurnOk (c : Chan) (s : Nat) (w : Bool) : Bool :=
  let (dir, n) := c.mc.batch.getD s (false, 0)
  if n < 16 then w == dir || (!c.memWaits s dir && (c.memUrgent s dir).isEmpty)
  else if w = dir then !c.memDue s (!w) && (c.memDue s w || !c.memWaits s (!w))
  else c.memDue s w || !c.memDue s dir

/-- Access `j` of subchannel `s` may complete now: the state serves accesses (R394), and R381 and R384 let it. -/
def memReady (c : Chan) (s j : Nat) : Option MemAccess :=
  if c.memState = 2 ∨ c.memState = 3 ∨ c.memState = 6 then
    match c.memCandidate s j with
    | some a => if c.memTurnOk s a.write then some a else none
    | none => none
  else none

/-- The batch under way once an access of direction `w` goes (R381): a batch begins where the direction turns, or where 16 have gone; those of
the other direction in the command queue have then waited behind one more. -/
def memBatch (c : Chan) (s : Nat) (w : Bool) : Chan :=
  let (dir, n) := c.mc.batch.getD s (false, 0)
  if w = dir ∧ n < 16 then c.modMc fun m => { m with batch := listPut m.batch s (dir, n + 1) }
  else
    let q := c.mc.queues.getD s []
    let q := (q.take 32).map (fun a => if a.write = w then a else { a with behind := a.behind + 1 }) ++ q.drop 32
    c.modMc fun m => { m with batch := listPut m.batch s (w, 1), queues := listPut m.queues s q }

/-- An access completes, and with its last one the request (R380). -/
def memComplete (c : Chan) (s j : Nat) : Chan :=
  match c.memReady s j with
  | none => c
  | some a =>
    let c := c.memBatch s a.write
    let q := c.mc.queues.getD s []
    let c := c.modMc fun m => { m with queues := listPut m.queues s (q.take j ++ q.drop (j + 1)) }
    let c := Chan.memActivate (Chan.memCount (c.mapN (·.add 64 (if a.write then K.WRITES else K.READS) 1))) a.row
    let c := match a.req with
      | some t =>
        match c.mc.opened.find? (fun (x : MemOpen) => x.tag == t) with
        | some o =>
          let rest := c.mc.opened.erase o
          if o.left ≤ 1 then Chan.memAnswer (c.modMc fun m => { m with opened := rest }) t o.addr 0 o.bytes
          else
            let i := c.mc.opened.findIdx (fun (x : MemOpen) => x.tag == t)
            c.modMc fun m => { m with opened := listPut m.opened i { o with left := o.left - 1 } }
        | none => c
      | none => c
    c.refTry (2 * s + a.rank)

/-! ### Self-refresh (R388-R390) -/

/-- No access is queued. -/
def memDrained (c : Chan) : Bool := c.mc.queues.all (·.isEmpty)

/-- READY is left where a cause of self-refresh stands (R389 step 1). -/
def srStart (c : Chan) : Chan := if c.memState = 2 ∧ c.mc.causes ≠ [] then c.memGo 3 else c

/-- A cause of self-refresh. A channel reset comes without abort, whatever has begun the entry (R388). -/
def srCause (c : Chan) (x : SrCause) : Chan :=
  Chan.srStart (if c.mc.causes.contains x then c else c.modMc fun m => { m with causes := m.causes ++ [x] })

/-- A cause of self-refresh ends; with the last one the memory leaves it, or the entry goes back (R388). -/
def srEnd (c : Chan) (x : SrCause) : Chan :=
  let c := c.modMc fun m => { m with causes := m.causes.filter (· != x) }
  if c.memState = 4 ∧ c.mc.causes = [] then c.memGo 5 else c

/-- REFpb until a debt is paid to zero (R389 step 3). -/
def payDebt : Nat → Nat → Chan → Chan
  | 0, _, c => c
  | k + 1, i, c => if 0 < c.debt i ∧ c.hasRank i = true then payDebt k i (c.refIssue i) else c

/-- The debt of every subchannel and rank is paid, and no bank stays under refresh. -/
def payAll (c : Chan) : Chan :=
  Chan.modMc ((List.range 8).foldl (fun c i => payDebt 64 i c) c) fun m =>
    { m with refs := m.refs.map fun r => { r with busy := [], burst := false } }

/-- The commit point and the entry (R389 steps 3-5): a cause that has meanwhile ended leaves at once. -/
def srCommit (c : Chan) : Chan :=
  if c.memState = 3 ∧ c.memDrained = true then
    let c := Chan.mapN (Chan.memGo c.payAll 4) (·.inc K.SR_ENTRIES)
    if c.mc.causes = [] then c.memGo 5 else c
  else c

/-- MR4 read, M applied and every debt zero at an exit (R390). -/
def srLeave (c : Chan) (mr4 : List (Nat × Nat)) : Chan :=
  let c := c.mr4All true mr4
  Chan.modMc (c.mapN (·.put K.REF_DEBT (zeros 8))) fun m => { m with refs := m.refs.map fun r => { r with busy := [], burst := false } }

/-- The timing set whose training runs. -/
def trainSet (c : Chan) : Nat := if c.mc.switching then 1 - c.n.num K.ACTIVE_SET else c.n.num K.ACTIVE_SET

/-- What is granted or waits is answered UNAVAIL, and nothing stays queued (R393). -/
def memAbandon (c : Chan) : Chan :=
  let o := c.mc.opened
  o.foldl (fun c (x : MemOpen) => c.memAnswer x.tag x.addr 2 (zeros x.bytes.length))
    (Chan.memResume (c.modMc fun m => { m with opened := [], queues := List.replicate 4 [] }))

/-- Training starts (R393): MEM_TYPE, MEM_DENSITY, MEM_RANKS and ADDR_ORDER are taken; with MEM_TYPE 0 the controller goes to OFF (R394). -/
def trainStart (c : Chan) : Chan :=
  let c := c.modMc fun m => { m with next := cfgNow c.n }
  if c.mc.next.kind = 0 then Chan.memAbandon (Chan.memGo (c.mapN (·.putN K.MEM_CAPACITY 0)) 0) else c.memGo 1

/-- READY: waiting requests go on, and a cause of self-refresh that stands is followed. -/
def memReadyNow (c : Chan) : Chan := Chan.srStart (Chan.memResume (c.memGo 2))

/-- The exit ends (R390): READY, or TRAINING where the set is untrained. -/
def srExit (c : Chan) (mr4 : List (Nat × Nat)) : Chan :=
  if c.memState ≠ 5 then c else
    let c := c.srLeave mr4
    if c.n.num (setKey (c.n.num K.ACTIVE_SET) 5) = 0 then c.trainStart else c.memReadyNow

/-! ### Frequency change and training (R391-R394) -/

/-- RATE of a set is supported for the memory type in force (R376, R393). -/
def rateOk (c : Chan) (a : Nat) : Bool :=
  [3200, 4267, 5500, 6400].contains (c.n.num (setKey a 1)) ||
  (c.mc.cfg.kind == 2 && [7500, 8533, 9600, 10667].contains (c.n.num (setKey a 1)))

/-- A frequency change starts (R392), in place or inside a self-refresh. -/
def freqStart (c : Chan) : Chan := Chan.memGo (c.modMc fun m => { m with inSr := c.memState == 4 }) 6

/-- ACTIVE_SET toggles and the change is counted (R392 step 6). -/
def freqToggle (c : Chan) : Chan :=
  Chan.mapN (c.modMc fun m => { m with switching := false }) fun n =>
    Node.occur ((n.putN K.ACTIVE_SET (1 - n.num K.ACTIVE_SET)).inc K.FREQ_CHANGES) 126

/-- The channel enters Run after its start-up training (R533 step 8). -/
def startUp (c : Chan) : Chan :=
  if c.power.started then c else Chan.signal { c with power := { c.power with started := true, since := c.n.mono } } (.source 120)

/-- After a change or a training: the next change of the start-up training of set B, or READY (R393). -/
def bootNext (c : Chan) : Chan :=
  let c := c.memReadyNow
  if c.mc.boot = 0 ∨ c.memState ≠ 2 then c.startUp
  else if c.mc.boot = 1 ∧ c.n.num K.ACTIVE_SET = 0 ∧ c.n.flag K.BOOT_TRAIN_B = true ∧ c.rateOk 1 = true then c.freqStart
  else if c.n.num K.ACTIVE_SET = 1 then Chan.freqStart (c.modMc fun m => { m with boot := 2 })
  else Chan.startUp (c.modMc fun m => { m with boot := 0 })

/-- A frequency change ends (R392): through TRAINING where the target set is untrained. Queued accesses complete before. -/
def freqDone (c : Chan) (mr4 : List (Nat × Nat)) : Chan :=
  if c.memState ≠ 6 ∨ c.memDrained = false then c else
    let target := 1 - c.n.num K.ACTIVE_SET
    if c.mc.inSr then
      let c := Chan.freqToggle (Chan.memGo (c.modMc fun m => { m with inSr := false }) 4)
      if c.mc.causes = [] then c.memGo 5 else c
    else
      let c := Chan.srLeave (Chan.mapN c.payAll (·.inc K.SR_ENTRIES)) mr4
      if c.n.num (setKey target 5) = 0 then Chan.trainStart (c.modMc fun m => { m with switching := true })
      else Chan.bootNext c.freqToggle

/-- FAILED: every request that waits or is under way is answered UNAVAIL (R393). -/
def memFail (c : Chan) : Chan :=
  Chan.memAbandon (Chan.memGo (Chan.mapN c fun n => (n.putN K.MEM_CAPACITY 0).setFlag K.MEM_FLAGS 4) 7)

/-- Training ends (R393): `fail` gives the failing step and TRAIN_DETAIL. -/
def trainDone (c : Chan) (fail : Option (Nat × Nat)) : Chan :=
  if c.memState ≠ 1 then c else
    match fail with
    | some (step, detail) =>
      let c := c.mapN fun n => Node.alarm (((n.putN K.TRAIN_RESULT (step + 1)).putN K.TRAIN_DETAIL detail).setFlag K.MEM_FLAGS 0) 121
      Chan.memFail (c.modMc fun m => { m with switching := false, boot := 0 })
    | none =>
      let cap := capacityOf c.mc.next
      let c := Chan.modMc { c with mem := remap c.mc.cfg c.mc.next c.mem } fun m => { m with cfg := m.next }
      let c := c.mapN fun n => Node.occur ((((n.putN (setKey c.trainSet 5) 1).putN K.TRAIN_RESULT 1).inc K.TRAIN_COUNT).putN K.MEM_CAPACITY cap) 127
      Chan.bootNext (if c.mc.switching then c.freqToggle else c)

end Chan

end Sys2Proof.Machine
end

