-- ==== Sys2Proof/Machine/CompressEngine.lean ====
section
/-!
DEFINITION. Chapter 14: jobs of the compression engine, their checks, their runs, completions and resume contexts. A job's bytes are read
and written when it ends.
-/

namespace Sys2Proof.Machine

/-- A job descriptor (R403). -/
structure CmpDesc where
  op : Nat
  flags : Nat
  level : Nat
  filter : Nat
  sampleBytes : Nat
  planes : Nat
  lineBytes : Nat
  tag : Nat
  inAddr : Nat
  inLen : Nat
  outLen : Nat
  outAddr : Nat
  ctx : Nat
  blockLen : Nat
  chainCount : Nat
  expect : Nat
  res : Nat

namespace CmpDesc

/-- The descriptor that 64 bytes spell. -/
def ofBytes (d : List Nat) : CmpDesc :=
  { op := field d 0 1, flags := field d 1 1, level := field d 2 1, filter := field d 3 1, sampleBytes := field d 4 1,
    planes := field d 5 1, lineBytes := field d 8 4, tag := field d 12 4, inAddr := field d 16 8, inLen := field d 24 4,
    outLen := field d 28 4, outAddr := field d 32 8, ctx := field d 40 8, blockLen := field d 48 4, chainCount := field d 52 4,
    expect := field d 56 4, res := field d 6 2 + field d 60 4 }

def start (d : CmpDesc) : Bool := bit d.flags 0
def final (d : CmpDesc) : Bool := bit d.flags 1
def chained (d : CmpDesc) : Bool := bit d.flags 2
def zlib (d : CmpDesc) : Bool := bit d.flags 3
def noIrq (d : CmpDesc) : Bool := bit d.flags 4

/-- The checks of R404. -/
def ok (d : CmpDesc) : Bool :=
  (d.op == 1 || d.op == 2) && d.flags < 32 && (d.op == 2 || d.level ≤ 2) && d.filter ≤ 4 && d.res == 0 &&
  (d.filter == 0 || ((d.sampleBytes == 1 || d.sampleBytes == 2) && 1 ≤ d.planes && d.planes ≤ 3 && 1 ≤ d.lineBytes &&
    d.lineBytes ≤ (if d.filter = 1 then 16777216 else 7168) && d.lineBytes % (d.sampleBytes * d.planes) == 0)) &&
  d.ctx % 64 == 0 && (d.op == 2 || d.blockLen == 0 || (1024 ≤ d.blockLen && d.blockLen ≤ 65535)) && d.chainCount ≤ 256 &&
  (d.final || d.ctx != 0) && (d.start || d.ctx != 0) && (!d.chained || d.op == 1)

/-- Bytes 4 and 5 of the job's context. -/
def ctxOp (d : CmpDesc) : List Nat := [d.op, 8 * b2n d.zlib + 16 * d.filter]

end CmpDesc

/-- What a job has come to. -/
structure CmpEnd where
  status : Nat
  /-- CPL_FLAGS -/
  stored : Nat := 0
  ended : Bool := false
  opened : Bool := false
  short : Bool := false
  consumed : Nat := 0
  out : List Nat := []
  detail : Nat := 0
  sum : Nat := 1
  /-- input bytes read, and those before the first bit of the symbol that found no room -/
  read : Nat := 0
  before : Nat := 0
  /-- the stream as the job leaves it -/
  ctx : CmpCtx
  /-- symbols done -/
  count : Nat := 0

/-- Output bytes over areas of address and length: the parts of them that are written. -/
def overAreas : List (Nat × Nat) → List Nat → List (Nat × List Nat)
  | [], _ => []
  | (a, n) :: r, bs => if bs = [] then [] else (a, bs.take n) :: overAreas r (bs.drop n)

/-- A compression job run on its input (R405, R411); `room` bytes of output, `budget` symbols at most where given. -/
def compressJob (d : CmpDesc) (x : CmpCtx) (data : List Nat) (whole : Bool) (room : Nat) (budget : Option Nat) : CmpEnd :=
  let feed (st : FiltSt) (bs : List Nat) := filtFeed false d.filter d.sampleBytes d.planes d.lineBytes (bs.length + 1) st bs
  let fd := (feed x.filt data).1
  let bl := if d.blockLen = 0 then 65535 else d.blockLen
  let syms := jobSyms d.level bl d.zlib (d.final && whole) (adler x.sum fd) x.held.length x.hist fd x.cPhase
  let syms := match budget with | some k => syms.take k | none => syms
  let e := syms.foldl (emitSym d.chained) { held := x.held, room := room, phase := x.cPhase }
  let took := fd.take e.taken
  let sum := adler x.sum took
  let ctx : CmpCtx :=
    { x with streamIn := x.streamIn + e.taken, streamOut := x.streamOut + e.out.length, sum := sum, held := e.held,
             hist := window (took.reverse ++ x.hist), filt := (feed x.filt (data.take e.taken)).2, cPhase := e.phase }
  { status := if budget.isSome && !e.full then 0x0D else if e.full then 1 else if !whole then 0x0C else 0, stored := e.stored,
    ended := d.final, opened := !d.final, consumed := e.taken, out := e.out.reverse, sum := sum, read := data.length, before := e.taken,
    detail := 8 * x.streamOut + x.held.length + e.sent, ctx := ctx, count := e.count }

/-- A decompression job run on its input (R408-R411). -/
def decompressJob (d : CmpDesc) (x : CmpCtx) (data : List Nat) (whole : Bool) (room : Nat) (budget : Option Nat) : CmpEnd :=
  let base := 8 * x.streamIn - x.held.length
  let s : Infl := { phase := x.iPhase, bits := x.held ++ bytesBits data, hist := x.hist, room := room, total := x.streamOut, sum := x.sum,
                    pendLen := x.pendLen, pendDist := x.pendDist }
  let (s, stop) := s.run d.zlib base d.expect (match budget with | some k => k | none => 8 * data.length + x.held.length + 8)
  let usedBits := s.used - x.held.length
  let up := cdiv usedBits 8
  let raw := s.out.reverse
  let (bytes, filt) := filtFeed true d.filter d.sampleBytes d.planes d.lineBytes (raw.length + 1) x.filt raw
  let sum := match s.phase with | .head _ => 1 | _ => s.sum
  let ctx (n : Nat) (held : List Bool) : CmpCtx :=
    { x with streamIn := x.streamIn + n, streamOut := s.total, sum := s.sum, held := held, hist := s.hist, filt := filt, iPhase := s.phase,
             pendLen := s.pendLen, pendDist := s.pendDist }
  let kept := s.bits.take (x.held.length + 8 * up - s.used)
  let r : CmpEnd := { status := 0, consumed := up, out := bytes, sum := sum, read := up, ctx := ctx up kept, count := s.count }
  let failed : CmpEnd := { r with consumed := usedBits / 8, read := min data.length (usedBits / 8 + 1) }
  match stop with
  | none => { r with status := 0x0D }
  | some .full =>
    let at_ := if s.pendLen = 0 then s.used else s.pendAt
    { r with status := 1, before := (at_ - x.held.length) / 8, detail := base + at_ }
  | some .ended => { r with ended := d.final, opened := !d.final, short := decide (d.expect ≠ 0 ∧ s.total < d.expect) }
  | some .input =>
    let failed := { failed with read := data.length }
    if !whole then { failed with status := 0x0C }
    else if d.final then { failed with status := 8, detail := base + x.held.length + 8 * data.length }
    else { r with opened := true, consumed := data.length, read := data.length, ctx := ctx data.length s.bits }
  | some (.error 7) => { failed with status := 7, detail := sum }
  | some (.error e) => { failed with status := e, detail := base + s.used }

namespace Chan

/-- Change the engine. -/
def modCmp (c : Chan) (f : Compressor → Compressor) : Chan :=
  let c := { c with cmp := f c.cmp }
  c.mapN (·.putN K.CMP_QUEUED c.cmp.queue.length)

/-- A recorder line has the engine, and the descriptor job waits at a symbol boundary (R417). -/
def lineHolds (c : Chan) : Bool := c.rushes.queue.any (·.pack.isSome)

/-- The completion ring has room (R420). -/
def cmpRoom (c : Chan) : Bool :=
  let size := c.n.num K.CPL_RING_SIZE
  size == 0 || ringRoom c.n.fn.silent size (c.n.num K.CPL_WR) (c.n.num K.CPL_RD) 32

/-- A completion (R410, R420): ring, CMP_LAST, counts, flags and sources. -/
def cmpCompletion (c : Chan) (d : CmpDesc) (e : CmpEnd) (chainUsed : Nat) : Chan :=
  let done := e.status == 0
  let resumable := e.status == 1 || (e.status == 0x0D && d.ctx != 0)
  let flags := b2n (e.stored != 0) + 2 * b2n (done && e.ended) + 4 * b2n (done && e.opened) + 8 * b2n resumable +
    16 * b2n (done && e.short) + 32 * b2n d.chained
  let bytes := leBytes 4 d.tag ++ [e.status, flags] ++ leBytes 2 chainUsed ++ leBytes 4 e.consumed ++ leBytes 4 e.out.length ++
    leBytes 8 (if e.status ≤ 1 then 0 else e.detail) ++ leBytes 4 e.sum ++ zeros 4
  let c := c.mapN fun n =>
    let n := if n.num K.CPL_RING_SIZE = 0 then n else
      n.ringPut (n.num K.CPL_RING_ADDR) (n.num K.CPL_RING_SIZE) (n.num K.CPL_WB_ADDR) K.CPL_WR bytes
    let n := ((n.put K.CMP_LAST bytes).add 64 K.JOBS_DONE 1).add 64 K.BYTES_IN e.consumed
    let n := n.add 64 K.BYTES_OUT e.out.length
    let n := if 2 ≤ e.status then Node.setFlag ((n.inc K.JOBS_ERR).putN K.ERR_LAST e.status) K.CMP_FLAGS 0 else n
    if e.status = 0x0C then n.setFlag K.CMP_FLAGS 1 else n
  let n := c.n.num K.CPL_IRQ_N
  let irq := c.cmp.irq + b2n (!d.noIrq)
  if n ≠ 0 ∧ n ≤ irq ∧ d.noIrq = false then Chan.mapN (c.modCmp fun m => { m with irq := 0 }) (·.occur 129)
  else c.modCmp fun m => { m with irq := irq }

/-- A job that did nothing. -/
def cmpNothing (status detail : Nat) : CmpEnd :=
  { status := status, detail := detail, ctx := { bytes := [], level := 0, sampleBytes := 0, planes := 0, lineBytes := 0 } }

/-- Queue empty and no job running (R422): nothing waits for the ring. -/
def cmpIdle (c : Chan) : Chan :=
  if c.cmp.queue = [] ∧ c.cmp.job = none then Chan.mapN (c.modCmp fun m => { m with stalled := false }) (·.occur 133) else c

/-- A descriptor is queued (R402); `none` where the queue is full. -/
def cmpSubmit (c : Chan) (bytes : List Nat) : Option Chan :=
  if 64 ≤ c.cmp.queue.length then none else some (c.modCmp fun m => { m with queue := m.queue ++ [{ desc := bytes }] })

/-- Queued jobs that CMP_ABORT 2 has ended are completed as the ring has room (R419, R420). -/
def cmpAborted : Nat → Chan → Chan
  | 0, c => c
  | k + 1, c =>
    match c.cmp.queue with
    | j :: rest =>
      if j.aborted = true ∧ c.cmpRoom = true then
        cmpAborted k (Chan.cmpIdle (Chan.cmpCompletion (c.modCmp fun m => { m with queue := rest }) (.ofBytes j.desc) (cmpNothing 0x0D 0) 0))
      else c
    | [] => c

/-- The context a job goes on from, of all the device has ever saved: `none` where R413 refuses it. -/
def cmpLoad (saved : List CmpCtx) (d : CmpDesc) (bytes : List Nat) : Option CmpCtx :=
  if slice bytes 0 6 = [0x58, 0x43, 1, 0x21] ++ d.ctxOp ∧ 1 ≤ field bytes 6 1 ∧ field bytes 6 1 ≤ 3 then
    saved.find? fun (x : CmpCtx) => x.bytes == bytes && x.level == d.level && x.sampleBytes == d.sampleBytes &&
      x.planes == d.planes && x.lineBytes == d.lineBytes
  else none

/-- The next job starts where the ring has room (R402, R404, R413, R420), no recorder line has the engine (R417) and the memory answers a
context's read. `saved`: the contexts that the device's channels have saved, for a context may be moved (R413). -/
def cmpStart (c : Chan) (saved : List CmpCtx) : Chan :=
  if c.cmp.job.isSome ∨ c.lineHolds = true ∨ c.memWaiting = true then c else
    let c := Chan.cmpAborted c.cmp.queue.length c
    match c.cmp.queue with
    | [] => c
    | j :: rest =>
      if c.cmpRoom = false then Chan.mapN (c.modCmp fun m => { m with stalled := true }) (·.setFlag K.CMP_FLAGS 2) else
        let c := c.modCmp fun m => { m with queue := rest, stalled := false }
        let d := CmpDesc.ofBytes j.desc
        if d.ok = false then Chan.cmpIdle (c.cmpCompletion d (cmpNothing 0x0A 0) 0)
        else if d.start then
          let x : CmpCtx := { bytes := [], level := d.level, sampleBytes := d.sampleBytes, planes := d.planes, lineBytes := d.lineBytes,
                              cPhase := if d.zlib then .head 2 else .blocks none, iPhase := if d.zlib then .head 2 else .block }
          c.modCmp fun m => { m with job := some (j.desc, some x) }
        else
          let (c, st, bytes) := c.memLoad d.ctx 40960
          if st ≠ 0 then Chan.cmpIdle (c.cmpCompletion d (cmpNothing 0x0C d.ctx) 0) else
            match cmpLoad saved d bytes with
            | some x => c.modCmp fun m => { m with job := some (j.desc, some x) }
            | none => Chan.cmpIdle (c.cmpCompletion d (cmpNothing 0x0B 0) 0)

/-- A range as far as the memory answers: bytes that can be reached, and the address of the first request refused. An empty range asks for
nothing. -/
def memReach (c : Chan) (addr len : Nat) : Nat × Option Nat :=
  if len = 0 then (0, none) else
  match c.memStatus addr len with
  | 0 => (len, none)
  | 1 => (c.memSize - addr, some (max addr c.memSize))
  | _ => (0, some addr)

/-- What the output of a job has come to: the channel with its bytes stored, the job's end, the list entries written to, and the address of the
first request refused. -/
structure CmpOut where
  chan : Chan
  fin : CmpEnd
  used : Nat := 0
  fail : Option Nat := none

/-- A job's output over the entries of its list, each read as the output needs it (R415). `run` is the job under `room` bytes; `k` entries are
left at `a`. -/
def cmpChain (run : Nat → CmpEnd) : Nat → Nat → Nat → CmpOut → CmpOut
  | 0, _, _, o => o
  | k + 1, a, room, o =>
    if o.fin.status ≠ 1 then o else
      let (c, st, bs) := o.chan.memLoad a 16
      if st ≠ 0 then { o with chan := c, fail := some a } else
        let addr := field bs 0 8
        let (n, f) := c.memReach addr (field bs 8 4)
        let e := run (room + n)
        let part := e.out.drop o.fin.out.length
        let o : CmpOut := { chan := if part = [] then c else (c.memStore 2 addr part).1, fin := e, used := o.used + b2n (part != []) }
        if e.status = 1 ∧ f.isSome = true then { o with fail := f } else cmpChain run k (a + 16) (room + n) o

/-- A job's output: one area, or a list of them. -/
def cmpOutput (c : Chan) (d : CmpDesc) (run : Nat → CmpEnd) : CmpOut :=
  if d.chained then cmpChain run d.chainCount d.outAddr 0 { chan := c, fin := run 0 }
  else
    let (n, f) := c.memReach d.outAddr d.outLen
    let e := run n
    { chan := if e.out = [] then c else (c.memStore 2 d.outAddr e.out).1, fin := e, fail := if e.status = 1 then f else none }

/-- A context's bytes (R413). What the device keeps in STATE, and what its data leave of HISTORY and LINE, is not given: free values. -/
def cmpCtxBytes (c : Chan) (d : CmpDesc) (x : CmpCtx) (savedBy : Nat) : Chan × List Nat :=
  let (f, n) := c.n.takeFree (8 * 40960)
  let few := x.held.length ≤ 7
  let hist := (x.hist.take 32768).reverse
  let line := x.filt.prev.take 7168
  let open_ (k : Nat) : List Nat := leBytes k f
  let sum := match x.iPhase with | .head _ => if d.op = 2 then 1 else x.sum | _ => x.sum
  ({ c with n := n },
   [0x58, 0x43, 1, 0x21] ++ d.ctxOp ++ [savedBy, 0] ++ leBytes 8 x.streamIn ++ leBytes 8 x.streamOut ++ leBytes 4 sum ++
   leBytes 2 x.pendLen ++ leBytes 2 x.pendDist ++ [if few then x.held.length else 0] ++ zeros 7 ++
   leBytes 8 (if few then bitsNat x.held else 0) ++ zeros 16 ++ open_ (32768 - hist.length) ++ hist ++ line ++ open_ (7168 - line.length) ++
   (leBytes (40960 + 960) f).drop 40960)

/-- The running job goes on: the memory answers its requests, no recorder line has the engine (R417), and the ring has room for its
completion, which a hold of the host port's writers takes away (R420, 16 R459). -/
def cmpFree (c : Chan) : Bool := !c.lineHolds && !c.memWaiting && c.cmpRoom

/-- The running job ends (R408-R415): of its own, or stopped by CMP_ABORT at a symbol boundary that the spec does not name. An abort that finds
the engine taken acts once it is free. -/
def cmpDone (c : Chan) (abort : Bool) : Chan :=
  match c.cmp.job with
  | some (bytes, some x) =>
    let abort := abort || c.cmp.aborting
    if c.cmpFree = false then (if abort then c.modCmp fun m => { m with aborting := true } else c) else
    let d := CmpDesc.ofBytes bytes
    let (reach, inFail) := c.memReach d.inAddr d.inLen
    let data := memRead c.mem d.inAddr reach
    let whole := inFail.isNone
    let go (b : Option Nat) (room : Nat) : CmpEnd := if d.op = 1 then compressJob d x data whole room b else decompressJob d x data whole room b
    let (k, n) := c.n.takeFree 32
    let budget : Option Nat := if abort then some (k % ((go none (2 ^ 33)).count + 1)) else none
    let c := if abort then { c with n := n } else c
    let c := (c.memLoad d.inAddr (go budget (2 ^ 33)).read).1
    let o := c.cmpOutput d (go budget)
    let c := o.chan
    let e := o.fin
    let e := match o.fail with
      | some f => { e with status := 0x0C, detail := f }
      | none =>
        if e.status = 1 then
          (if abort then { e with status := 0x0D } else if d.chained ∨ d.ctx = 0 then { e with status := 9, consumed := e.before } else e)
        else if e.status = 0x0C then { e with detail := inFail.getD d.inAddr } else e
    let c := if e.status = 0x0C then (if c.memUp then c.memBadAddr e.detail else c) else c
    let e := if e.status = 0 ∧ abort = true then { e with status := 0x0D } else e
    let c := c.mapN fun n =>
      if d.op = 1 ∧ 0 < d.level ∧ e.stored ≠ 0 then (n.add 32 K.STORED_BLOCKS e.stored).setFlag K.CMP_FLAGS 3 else n
    let keeps := d.ctx != 0 && ((e.status == 0 && e.opened) || e.status == 1 || e.status == 0x0D)
    let (c, e) := if keeps then
        let savedBy := if e.status = 0 then 1 else if e.status = 1 then 2 else 3
        let (c, cb) := c.cmpCtxBytes d e.ctx savedBy
        let (c, st) := c.memStore 2 d.ctx cb
        if st = 0 then (c.modCmp fun m => { m with saved := { e.ctx with bytes := cb } :: m.saved }, e)
        else (c, { e with status := 0x0C, detail := d.ctx })
      else (c, e)
    let c := Chan.cmpIdle (Chan.cmpCompletion (c.modCmp fun m => { m with job := none, aborting := false }) d e o.used)
    Chan.cmpAborted c.cmp.queue.length c
  | _ => c

/-- CMP_ABORT 1 and 2 (R419). -/
def cmpAbort (c : Chan) (all : Bool) : Chan :=
  let c := if all then c.modCmp fun m => { m with queue := m.queue.map fun j => { j with aborted := true } } else c
  let c := c.cmpDone true
  if c.cmp.job.isSome then c else Chan.cmpAborted c.cmp.queue.length c

/-- A channel reset clears the queue and the running job (R419). -/
def cmpReset (c : Chan) : Chan := c.modCmp fun m => { m with queue := [], job := none, stalled := false, aborting := false }

/-- The engine is idle with an empty queue (R524). -/
def cmpQuiet (c : Chan) : Bool := c.cmp.queue.isEmpty && c.cmp.job.isNone

end Chan

end Sys2Proof.Machine
end

