-- ==== Sys2Proof/Machine/FrontEngine.lean ====
section
/-!
DEFINITION. The pixel front end of chapter 07: unpack and linearisation, the two noise filters, correction, replacement and crossfade of one
head line. A sample is a 20-bit pixel word (R220); a raw sample is its code, with bit 16 for an invalid one.
-/

namespace Sys2Proof.Machine

/-! ## Pixel words (R220) -/

/-- VALUE. -/
def pxVal (w : Nat) : Nat := w % 65536
/-- The flags of a pixel word. -/
def pxInv (w : Nat) : Bool := bit w 16
def pxRepl (w : Nat) : Bool := bit w 17
def pxSat (w : Nat) : Bool := bit w 18
def pxSettling (w : Nat) : Bool := bit w 19
/-- A pixel word of a value and its flags. -/
def px (v : Nat) (sat repl inv : Bool) : Nat := v % 65536 + b2n inv * 65536 + b2n repl * 131072 + b2n sat * 262144
/-- An invalid word: VALUE 0. -/
def pxBad : Nat := 65536

/-! ## Unpack (R222-R224) -/

/-- Entry `i` of a table of U16 in bytes. -/
def u16At (bytes : List Nat) (i : Nat) : Nat := field bytes (2 * i) 2

/-- The 16-bit value of a code, and whether it was clamped (R222). -/
def linearise (lutOn : Bool) (lut : List Nat) (b c : Nat) : Nat × Bool :=
  if lutOn = false then
    (if 16 ≤ b then c else c * 2 ^ (16 - b) + c / 2 ^ (2 * b - 16), false)
  else if b ≤ 12 then (u16At lut c, false)
  else
    let s := b - 12
    let i := c / 2 ^ s
    let f : Int := c % 2 ^ s
    let e0 : Int := u16At lut i
    let e1 : Int := if i < 4095 then u16At lut (i + 1) else 2 * u16At lut 4095 - u16At lut 4094
    let t : Int := e0 + ((e1 - e0) * f + (2 ^ (s - 1) : Nat)) / (2 ^ s : Nat)
    if t < 0 then (0, true) else if 65535 < t then (65535, true) else (t.toNat, false)

/-- Unpack one plane: pixel words, and whether a clamp occurred. -/
def unpackPlane (v : Store) (h fmtB : Nat) (raw : List Nat) : List Nat × Bool :=
  let lutOn := v.flag (ik K.LUT_ENABLE h)
  let lut := if lutOn then v.elems (ik K.LUT h) else []
  let sc := v.num (ik K.SAT_CODE h)
  let limit := if sc = 0 then 2 ^ fmtB - 1 else sc
  let rs := raw.map fun c => if pxInv c then (pxBad, false) else
    let (u, cl) := linearise lutOn lut fmtB c
    (px u (decide (limit ≤ c)) false false, cl)
  (rs.map (·.1), rs.any (·.2))

/-! ## Noise reduction (R225-R229) -/

/-- The noise model (R225), in 1/16 LSB. -/
def noiseSigma (m : List Nat) (u : Nat) : Int :=
  let i := u / 4096
  let a : Int := m.getD i 0
  let b : Int := m.getD (i + 1) 0
  a + ((b - a) * (u % 4096 : Nat) + 2048) / 4096

/-- The cross-web filter of column `k` of one plane (R226): `ok` says whose entries have REPL 0, `seg` the tap segment of each column. -/
def crossWeb (m ws : List Nat) (kf reach : Nat) (ok : List Bool) (seg line : List Nat) (k : Nat) : Nat :=
  let w0 := line.getD k pxBad
  if pxInv w0 || pxSat w0 then w0 else
    let x0 : Int := pxVal w0
    let s0 := noiseSigma m (pxVal w0)
    let near := (List.range (2 * reach + 1)).filterMap fun (i : Nat) =>
      let j : Int := (k : Int) + i - reach
      if j < 0 then none else
        let j := j.toNat
        let d := (max i reach) - (min i reach)
        let wt := ws.getD d 0
        match (line)[j]? with
        | none => none
        | some w =>
          if d = 0 then some (wt, pxVal w)
          else if wt != 0 && seg.getD j 9 == seg.getD k 9 && !pxInv w && !pxSat w && ok.getD j true &&
              decide ((256 * ((pxVal w : Int) - x0).natAbs : Nat) ≤ (kf : Int) * s0) then some (wt, pxVal w) else none
    let wsum := near.foldl (fun a p => a + p.1) 0
    let acc := near.foldl (fun a p => a + p.1 * p.2) 0
    (w0 - pxVal w0) + (acc + wsum / 2) / (max 1 wsum)

/-- The down-web filter of a sample (R227): the word and the stored value with its stale bit; the result and the new stored value. -/
def downWeb (m : List Nat) (alphaMax tk : Nat) (w st : Nat) : Nat × Nat :=
  if pxInv w || pxSat w then (w, pxVal st + 65536) else
    let x : Int := pxVal w
    let p : Int := pxVal st
    let t : Int := tk * noiseSigma m (pxVal w)
    let a : Int := 256 * (x - p).natAbs
    let alpha : Int := if pxInv st then 0 else if a ≤ t then alphaMax else if 2 * t ≤ a then 0 else alphaMax * (2 * t - a) / t
    let y := (x + (alpha * (p - x) + 128) / 256).toNat
    ((w - pxVal w) + y, y)

/-! ## Correction (R230-R236) -/

/-- An entry of a bank (R232). -/
def bankEntry (bank : List Nat) (i : Nat) : Nat := field bank (8 * i) 8

/-- The entries of a plane's columns (R230). -/
def planeEntries (bank : List Nat) (v : Store) (h q planes cols : Nat) : List Nat :=
  let base := v.num (ik K.TBL_BASE h)
  let dec := v.num (ik K.TBL_DECIM h)
  (List.range cols).map fun k => bankEntry bank (base + k / 2 ^ dec * planes + q)

/-- REPL and STAT_EXCL of an entry. -/
def entryRepl (e : Nat) : Nat := bits e 11 10
def entryExcl (e : Nat) : Bool := bit e 9

/-- The dark weight of a temperature, and whether it was clamped (R233). -/
def darkWeight (ta tb t : Int) : Nat × Bool :=
  if ta = tb then (0, false) else
    let tc := clampI ta tb t
    (((tc - ta) * 65536 / (tb - ta)).toNat, tc != t)

/-- Offset and gain of one sample (R233). -/
def correctSample (dw e w : Nat) : Nat :=
  if pxInv w then w else
    let d : Int := (bits e 63 48 * (65536 - dw) + bits e 47 32 * dw + 32768) / 65536
    let v := (4 * (pxVal w : Int) - d).toNat
    let z := (v * bits e 31 12 + 131072) / 262144
    if 65535 < z then px 65535 true (pxRepl w) false else px z (pxSat w) (pxRepl w) false

/-- Replacement of column `k` (R234): its word, and whether it failed. `raw` holds the words before correction: a flag set at unpack stays
(R221). -/
def replaceSample (es raw line : List Nat) (k : Nat) : Nat × Bool :=
  let w := line.getD k pxBad
  let s := pxSat (raw.getD k pxBad)
  let r := entryRepl (es.getD k 0)
  if r = 0 || pxInv w then (w, false) else
    let usable (j : Nat) : Option Nat :=
      match (line)[j]? with
      | some x => if pxInv x || entryRepl (es.getD j 0) != 0 then none else some x
      | none => none
    let left := if k = 0 then none else usable (k - 1)
    let right := usable (k + 1)
    let take (x : Nat) : Nat × Bool := (px (pxVal x) (s || pxSat x) true false, false)
    match left, right with
    | some a, some b =>
      if r = 1 then take a else if r = 2 then take b
      else (px ((pxVal a + pxVal b + 1) / 2) (s || pxSat a || pxSat b) true false, false)
    | some a, none => take a
    | none, some b => take b
    | none, none => (px 0 s false true, true)

/-- A plane corrected under one bank: its words and where replacement failed (R233, R234). -/
def correctPlane (dw : Nat) (es line : List Nat) : List Nat × List Bool :=
  let z := (es.zip line).map fun (e, w) => correctSample dw e w
  let rs := (List.range z.length).map (replaceSample es line z)
  (rs.map (·.1), rs.map (·.2))

/-- The crossfade of a sample (R238). -/
def fadeSample (log2 j a b : Nat) : Nat :=
  let z := if log2 = 0 then pxVal b else (pxVal a * (2 ^ log2 - j) + pxVal b * j + 2 ^ (log2 - 1)) / 2 ^ log2
  if pxInv b || (decide (j < 2 ^ log2) && pxInv a) then px 0 (pxSat a || pxSat b) (pxRepl a || pxRepl b) true
  else px z (pxSat a || pxSat b) (pxRepl a || pxRepl b) false

namespace Chan

/-- The front end of head `h`. -/
def hfront (c : Chan) (h : Nat) : HeadFront := c.front.heads.getD h {}
/-- Give head `h` its front end. -/
def putFront (c : Chan) (h : Nat) (x : HeadFront) : Chan := { c with front := { c.front with heads := listPut c.front.heads h x } }

/-- The bytes of bank `b`. -/
def bank (c : Chan) (b : Nat) : List Nat := c.n.elems (if b = 0 then K.CORR_BANK0 else K.CORR_BANK1)

/-- Bank `b` as the line of head `h` at the front end has it: in a replay, by the last write whose NEXT_TRIG the head has come to, where
another head has not (R368). -/
def bankFor (c : Chan) (h b : Nat) : List Nat :=
  let mine (d : ReDict) : Bool := d.key == (if b = 0 then K.CORR_BANK0 else K.CORR_BANK1) && d.heads.contains h
  match (c.rushes.retake.dicts.filter mine).getLast? with
  | some d => d.val
  | none => c.bank b

/-- A bank is in use (R237): selected, used by a head, or part of a head's crossfade. -/
def bankInUse (c : Chan) (b : Nat) : Bool :=
  c.n.num K.CORR_BANK_SEL == b || (List.range 4).any fun h =>
    c.active h && ((c.hfront h).bank == b || (match (c.hfront h).fade with | some f => f.old == b || f.new == b | none => false))

/-- The crossfade of the channel has ended once no active head fades or still awaits it (R238). -/
def fadeDone (c : Chan) : Chan :=
  match c.front.fading with
  | none => c
  | some bank =>
    if (List.range 4).any fun h => c.active h && ((c.hfront h).fade.isSome || (c.hfront h).bank != bank) then c
    else Chan.mapN { c with front := { c.front with fading := none } } fun n => (n.occur 42).inc K.FADE_COUNT

/-- A head without a rate ends its crossfade at once (R238). -/
def fadeIdle (c : Chan) : Chan :=
  let c := (List.range 4).foldl (fun c h =>
    if c.active h then c else c.putFront h { c.hfront h with fade := none, bank := c.n.num K.CORR_BANK_SEL }) c
  c.fadeDone

/-- The crossfade state of a head at its next line descriptor (R238, R239). -/
def fadeStep (c : Chan) (h : Nat) (v : Store) : Chan :=
  let x := c.hfront h
  let sel := v.num K.CORR_BANK_SEL
  match x.fade with
  | none =>
    if sel = x.bank then c else
      let c := c.putFront h { x with fade := some { old := x.bank, new := sel, log2 := v.num K.FADE_LOG2, j := 1 } }
      Chan.mapN { c with front := { c.front with fading := some sel } } (·.occur 41)
  | some f =>
    if sel = f.new then c.putFront h { x with fade := some { f with j := f.j + 1 } }
    else
      let c := c.putFront h { x with fade := some { old := f.new, new := f.old, log2 := f.log2, j := 2 ^ f.log2 - f.j + 1 } }
      { c with front := { c.front with fading := some f.old } }

/-- After line 2^n the outgoing bank leaves use for the head (R238). -/
def fadeEnd (c : Chan) (h : Nat) : Chan :=
  let x := c.hfront h
  match x.fade with
  | some f => if 2 ^ f.log2 ≤ f.j then (c.putFront h { x with fade := none, bank := f.new }).fadeDone else c
  | none => c

/-- The banks a line is corrected under: old and new. -/
def fadeBanks (x : HeadFront) : Nat × Nat :=
  match x.fade with
  | some f => (f.old, f.new)
  | none => (x.bank, x.bank)

/-- The objects R228 compares. -/
def restartKeys (h : Nat) : List Nat :=
  [K.LUT_ENABLE, K.LUT, K.PIX_FORMAT, K.LINE_LENGTH, K.TAP_COUNT, K.TAP_START, K.TAP_LEN, K.TAP_DIR, K.SAT_CODE, K.CORR_ENABLE].map
    (ik · h)

/-- Whether every sample of the head is stale before a line (R228). -/
def restarts (x : HeadFront) (cfg : Store) (pitch : Nat) (pos : Pos) : Bool :=
  x.virgin || x.prevLost || x.cfg != cfg ||
  (match x.prevPos with
   | some p => decide (2 * (pos - p) < pitch) || decide (3 * (pitch : Int) < 2 * (pos - p))
   | none => true)

/-- The tap segment of each column. -/
def segments (v : Store) (h cols : Nat) : List Nat :=
  (List.range (v.num (ik K.TAP_COUNT h))).foldl (fun s t =>
    splice s (v.elem (ik K.TAP_START h) t) (List.replicate (v.elem (ik K.TAP_LEN h) t) t)) (List.replicate cols 8)

/-- What the front end made of a line: its planes, the planes after noise reduction (R512), and the exclusion marks of each plane (R235). -/
structure FrontLine where
  planes : Planes
  noise : Planes
  excl : List (List Bool)
  /-- the words after unpack (R371), and the stale mark of R228 -/
  unpacked : Planes
  stale : Bool

/-- The samples of a head line through the front end (R222-R240). -/
def frontPixels (c : Chan) (h : Nat) (l : HeadLine) : Chan × FrontLine :=
  let v := c.viewIn 0 l.desc.gen
  let x := c.hfront h
  let fmt := v.num (ik K.PIX_FORMAT h)
  let b := match fmt with | 0x01 => 8 | 0x02 => 10 | 0x03 => 12 | 0x04 => 14 | 0x05 => 16 | 0x11 => 8 | 0x12 => 10 | _ => 12
  let q := l.raw.length
  let cols := (l.raw.headD []).length
  let on := v.flag (ik K.CORR_ENABLE h)
  let (bo, bn) := fadeBanks x
  let ents (bk i : Nat) : List Nat := if on then planeEntries (c.bankFor h bk) v h i q cols else []
  let up := l.raw.map (unpackPlane v h b)
  let c := if up.any (·.2) then c.mapN fun n => (n.inc (ik K.LUT_CLAMPS h)).setFlag K.FRONT_FLAGS 2 else c
  let m := v.elems (ik K.NOISE_MODEL h)
  let seg := segments v h cols
  let reach := match v.num (ik K.NR_XW_MODE h) with | 1 => 2 | 2 => 3 | _ => 0
  let ws := v.elems (ik K.NR_XW_WEIGHT h)
  let kf := v.num (ik K.NR_XW_K h)
  let cfg : Store := (restartKeys h).map fun k => (k, v.elems k)
  let stale := restarts x cfg (v.num (ik K.LINE_PITCH h)) l.desc.pos
  let c := if stale then c.mapN (·.inc (ik K.NR_RESTARTS h)) else c
  let nr := up.mapIdx fun i p =>
    let eo := ents bo i
    let en := ents bn i
    let ok := (List.range cols).map fun k => !on || (entryRepl (eo.getD k 0) == 0 && entryRepl (en.getD k 0) == 0)
    let xw := if reach = 0 then p.1 else (List.range cols).map (crossWeb m ws kf reach ok seg p.1)
    let st := x.store.getD i []
    xw.mapIdx fun k w => downWeb m (v.num (ik K.NR_T_ALPHA h)) (v.num (ik K.NR_T_K h)) w (if stale then pxVal (st.getD k 0) + 65536 else st.getD k 65536)
  let x := { x with store := nr.map fun p => p.map (·.2), virgin := false, prevLost := false, prevPos := some l.desc.pos, cfg := cfg }
  let c := c.putFront h x
  let ys : Planes := nr.map fun p => p.map (·.1)
  if on = false then (c, { planes := ys, noise := ys, excl := ys.map fun p => p.map fun _ => false, unpacked := up.map (·.1), stale := stale }) else
    let (dw, clamped) := darkWeight (v.sintE 16 (ik K.TEMP_ANCHOR h) 0) (v.sintE 16 (ik K.TEMP_ANCHOR h) 1) (toSigned 16 l.desc.temp)
    let c := c.mapN (·.putN (ik K.DARK_WEIGHT h) dw)
    let c := if clamped then c.mapN (·.setFlag K.FRONT_FLAGS 1) else c
    let zs := ys.mapIdx fun i y =>
      let new := correctPlane dw (ents bn i) y
      match x.fade with
      | none => new
      | some f =>
        let old := correctPlane dw (ents bo i) y
        ((old.1.zip new.1).map fun (a, b) => fadeSample f.log2 f.j a b, (old.2.zip new.2).map fun (a, b) => a || b)
    let fails := zs.foldl (fun s p => s + (p.2.filter id).length) 0
    let c := if fails = 0 then c else (c.pubInc ((c.slate.stage 0).genIn l.desc.gen) 32 (ik K.REPL_FAIL h) fails).mapN (·.setFlag K.FRONT_FLAGS 0)
    (c, { planes := zs.map (·.1), noise := ys, excl := (List.range q).map fun i => (ents bn i).map entryExcl,
          unpacked := up.map (·.1), stale := stale })

end Chan

end Sys2Proof.Machine
end

