-- ==== Sys2Proof/Machine/GeoEngine.lean ====
section
/-!
DEFINITION. Resampling, alignment and stitching of chapter 08: the history of each head, the down-web and cross-web resamplers, resets and
the coarse path, the stitched output line, and the sizes the naming checks and the status objects use.
-/

namespace Sys2Proof.Machine

/-! ## Coordinates and sizes (R246-R248, R256, R259-R261, R264) -/

/-- D_h for a line pitch (R246). -/
def headDelay (v : Store) (h pitch : Nat) : Nat :=
  v.num (ik K.DW_DELAY_INT h) * pitch + v.num (ik K.DW_DELAY_FRAC h) * pitch / 65536

/-- X_n in nm (R248). -/
def pixelX (v : Store) (n : Nat) : Int := v.sint 32 K.XW_ORIGIN * 1000 + (n * v.num K.XW_PITCH : Nat)

/-- Where head `h` sees swath pixel `n`: column and fraction u, where covered (R257). -/
def coverAt (v : Store) (h n : Nat) : Option Int :=
  let dx := v.num (ik K.MAP_DX h) * 1000
  let knots := v.num (ik K.MAP_KNOTS h)
  let x := pixelX v n
  let t := x - v.sint 32 (ik K.MAP_X0 h) * 1000
  if t < 0 ∨ ((knots - 1) * dx : Nat) < t then none else
    let t := t.toNat
    let i := t / max 1 dx
    let r := t - i * dx
    let at_ (j : Nat) : Int := v.sintE 32 (ik K.MAP_COL h) j
    let u := if i = knots - 1 then at_ i else at_ i + (at_ (i + 1) - at_ i) * r / (max 1 dx : Nat)
    let near := (u + 32768) / 65536
    let xw := x / 1000
    if 0 ≤ near ∧ near ≤ (v.num (ik K.LINE_LENGTH h) : Int) - 1 ∧ v.sintE 32 (ik K.COVER h) 0 ≤ xw ∧ xw ≤ v.sintE 32 (ik K.COVER h) 1
    then some u else none

/-- The coverage of a head over the swath. -/
def coverLine (v : Store) (h : Nat) : List (Option Int) := (List.range (v.num K.SWATH_WIDTH)).map (coverAt v h)

/-- Samples per pixel of the swath (R264). -/
def swathPlanes (v : Store) : Nat := if (activeIn v).any (fun h => decide (0x11 ≤ v.num (ik K.PIX_FORMAT h))) then 3 else 1

/-- What R256 and R260-R265 compute of a configuration. -/
structure GeoSizes where
  cover : List Nat
  hold : List Nat
  need : Nat
  traffic : Nat
  budget : Nat
  latency : Nat
  planes : Nat
deriving DecidableEq, Repr

/-- The sizes of a configuration. -/
def geoSizes (v : Store) : GeoSizes :=
  let act := activeIn v
  let po := max 1 (v.num K.OUT_PITCH)
  let q := swathPlanes v
  let pitch (h : Nat) := v.num (ik K.LINE_PITCH h)
  let lat (h : Nat) := headDelay v h (pitch h) + (4 + v.num K.LOST_BRIDGE) * pitch h
  let top := act.foldl (fun m h => max m (lat h)) 0
  let inAct (h : Nat) : Bool := act.contains h
  let cover := (List.range 4).map fun h => if inAct h then ((coverLine v h).filter (·.isSome)).length else 0
  let hold := (List.range 4).map fun h => if inAct h && decide (lat h < top) then cdiv (top - lat h) po + 1 else 0
  let fout := act.foldl (fun m h => max m (cdiv (v.elem K.HEAD_RATE_MAX h * pitch h) po)) 0
  { cover := cover, hold := hold,
    need := (cover.zip hold).foldl (fun s p => s + p.2 * p.1 * q * 8) 0,
    traffic := (cover.zip hold).foldl (fun s p => if p.2 = 0 then s else s + 16 * p.1 * q * fout) 0,
    budget := (cdiv (v.num K.SWATH_WIDTH * q) 16 + 2) * fout, latency := top, planes := q }

/-! ## Down-web resampler (R252-R255) -/

/-- The index, window phase and nearest line of an output line (R252). -/
def dwIndex (y : Pos) (delay phase pitch : Nat) : Int × Nat × Int :=
  let num := y + delay - phase
  let p : Int := max 1 pitch
  let i := num / p
  let fr := ((num - i * p) * 65536 / p).toNat
  let near := if fr < 32768 then i else i + 1
  let ph := (fr + 512) / 1024
  if ph = 64 then (i + 1, 0, near) else (i, ph, near)

/-- A tap's line: to be waited for, there, bridged at a position, or invalid at a position (R254). -/
inductive TapLine
  | wait
  | line (p : Planes)
  | bridged (pos : Pos) (p : Planes)
  | gone (pos : Pos)

/-- A sample bridged between received lines `na` and `nb` lines away (R254). -/
def bridgeSample (na nb a b : Nat) : Nat :=
  let sat := pxSat a || pxSat b
  if pxInv a && pxInv b then px 0 sat false true
  else if pxInv a then px (pxVal b) sat true false
  else if pxInv b then px (pxVal a) sat true false
  else px ((pxVal a * nb + pxVal b * na + (na + nb) / 2) / max 1 (na + nb)) sat true false

namespace HeadGeo

/-- The newest position passed. -/
def newest (g : HeadGeo) : Pos := (g.lines.headD (g.first, none)).1

/-- A received line at a position. -/
def received (g : HeadGeo) (p : Pos) : Option Planes :=
  match g.lines.find? (fun l => l.1 == p) with
  | some (_, some r) => some r
  | _ => none

/-- Steps of `d` from `p` to the nearest received line, at most `fuel`, within the history. -/
def seek (g : HeadGeo) (d : Int) : Nat → Pos → Option Nat
  | 0, _ => none
  | fuel + 1, p =>
    let q := p + d
    if q < g.first ∨ g.newest < q then none
    else if (g.received q).isSome then some 1
    else (seek g d fuel q).map (· + 1)

/-- The lost lines in a row from `p` in steps of `d`, `p` not counted, at most `fuel`. -/
def runLost (g : HeadGeo) (d : Int) : Nat → Pos → Nat
  | 0, _ => 0
  | fuel + 1, p =>
    let q := p + d
    if q < g.first ∨ g.newest < q ∨ (g.received q).isSome = true then 0 else runLost g d fuel q + 1

/-- The line of the head at grid index `j` (R254, R255, R267). `bridge` is LOST_BRIDGE. -/
def tapLine (g : HeadGeo) (bridge : Nat) (j : Int) : TapLine :=
  let p := max (j * g.pitch + g.phase) g.first
  match g.received p with
  | some r => .line r
  | none =>
    if g.newest < p then .wait else
      let up := g.runLost g.pitch 4096 p
      let down := g.runLost (-(g.pitch : Int)) 4096 p
      let run := up + down + 1
      let b := g.seek g.pitch (bridge + 1) p
      let a := g.seek (-(g.pitch : Int)) (bridge + 1) p
      if bridge < run then .gone p
      else
        match a, b with
        | some na, some nb =>
          match g.received (p - (na * g.pitch : Nat)), g.received (p + (nb * g.pitch : Nat)) with
          | some ra, some rb => .bridged p ((ra.zip rb).map fun (x, z) => (x.zip z).map fun (s, t) => bridgeSample na nb s t)
          | _, _ => .gone p
        | _, none => .wait
        | none, some _ => .gone p

/-- SETTLE_LEFT (R269): four once a reset line is still to come, else what is left of the last four. -/
def settleLeft (g : HeadGeo) : Nat := if !g.virgin && !g.resets.isEmpty then 4 else g.settle

/-- The planned gain of the line at a position (R292). -/
def gainAt (g : HeadGeo) (p : Pos) : List Nat := ((g.gains.find? (fun l => l.1 == p)).map (·.2)).getD (List.replicate 3 (2 ^ 64))

/-- The planned gain of a tap: a bridged line takes it by the interpolation of its samples (R292). -/
def tapGain (g : HeadGeo) (bridge : Nat) (j : Int) : List Nat :=
  let p := max (j * g.pitch + g.phase) g.first
  match g.tapLine bridge j with
  | .bridged _ _ =>
    match g.seek (-(g.pitch : Int)) (bridge + 1) p, g.seek g.pitch (bridge + 1) p with
    | some na, some nb =>
      ((g.gainAt (p - (na * g.pitch : Nat))).zip (g.gainAt (p + (nb * g.pitch : Nat)))).map fun (a, b) =>
        (a * nb + b * na + (na + nb) / 2) / max 1 (na + nb)
    | _, _ => g.gainAt p
  | _ => g.gainAt p

end HeadGeo

/-- The planes of a tap, INVALID where the line is gone; `like` gives the shape. -/
def tapPlanes (like : Planes) : TapLine → Planes
  | .line p => p
  | .bridged _ p => p
  | _ => like.map fun p => p.map fun _ => pxBad

/-- A resampled sample (R252, R253, R258): `taps` are coefficient and word, `near` the nearest. The word, and whether it was clamped. -/
def resample (near : Nat) (taps : List (Int × Nat)) : Nat × Bool :=
  let used := taps.filter fun t => t.1 != 0
  let sat := used.any fun t => pxSat t.2
  if pxInv near then (px 0 sat (pxRepl near) true, false) else
    let repl := pxRepl near || used.any fun t => pxInv t.2
    let acc : Int := used.foldl (fun (s : Int) t => s + t.1 * (pxVal (if pxInv t.2 then near else t.2) : Nat)) 0
    let z := (acc + 8192) / 16384
    if z < 0 then (px 0 sat repl false, true)
    else if 65535 < z then (px 65535 true repl false, true)
    else (px z.toNat sat repl false, false)

/-- The coefficients of one phase (R271). -/
def phaseCoefs (v : Store) (k taps ph : Nat) : List Int := ((v.elems k).drop (taps * ph)).take taps |>.map (toSigned 16)

/-- One plane resampled down-web. -/
def dwPlane (cs : List Int) (near : List Nat) (rows : List (List Nat)) : List (Nat × Bool) :=
  near.mapIdx fun k w => resample w (cs.mapIdx fun t x => (x, (rows.getD t []).getD k pxBad))

/-- One covered pixel resampled cross-web (R258). -/
def xwPixel (v : Store) (h : Nat) (fine : List Nat) (u : Int) : Nat × Bool :=
  let c := u / 65536
  let fr := (u - 65536 * c).toNat
  let last : Int := fine.length - 1
  let at_ (k : Int) : Nat := fine.getD (clampI 0 last k).toNat pxBad
  let near := at_ (if fr < 32768 then c else c + 1)
  let ph := (fr + 512) / 1024
  let (c, ph) := if ph = 64 then (c + 1, 0) else (c, ph)
  resample near ((phaseCoefs v (ik K.XW_COEF h) 6 ph).mapIdx fun t x => (x, at_ (c - 2 + t)))

/-- The coarse value of a pixel: the coarse down-web sample at the nearest column, SETTLING (R258, R267). -/
def coarsePixel (near : List Nat) (u : Int) : Nat := Nat.lor (near.getD ((u + 32768) / 65536).toNat pxBad) 524288

/-! ## Output lines -/

/-- The smallest output position at or above `lo` (R247). -/
def gridAbove (v : Store) (lo : Pos) : Pos :=
  let p : Int := max 1 (v.num K.OUT_PITCH)
  let f : Int := v.num K.OUT_PHASE
  f + (lo - f + p - 1) / p * p

/-- The next output position from `lo` on, and the view it has, over the sets a stage holds (R44, R45). Under a view with no active head no
output line is formed (R249). -/
def nextOut (lo : Pos) (v : Store) : List InFlight → Pos × Store
  | [] => (gridAbove v lo, v)
  | s :: r =>
    let y := gridAbove v lo
    if y < s.pos ∧ (activeIn v).isEmpty = false then (y, v) else nextOut (max lo s.pos) (v.overlay s.entries) r

/-- The words of a line in pixel order with planes adjacent. -/
def interleave (planes : Planes) : List Nat :=
  (List.range (planes.headD []).length).flatMap fun n => planes.map fun p => p.getD n pxBad

/-- What one head gives to an output line at the stitcher. -/
structure Contribution where
  head : Nat
  /-- its words by plane and pixel, `none` where it does not cover -/
  words : List (List (Option Nat))
  held : HeldLine
  /-- it resets at this line -/
  reset : Bool
  /-- G_k by plane, in 2^-78 (R292) -/
  gain : List Int

/-- Whether a reset applies to an output line at `y` whose window ends at `windowEnd` (R266). -/
def ResetAt.applies (r : ResetAt) (y : Pos) (windowEnd : Pos) : Bool :=
  match r with
  | .pos s => decide (s ≤ y)
  | .reach x => decide (x ≤ windowEnd)
  | .first => true

/-- The place of each element that is there among those that are. -/
def ordinals {α : Type} (l : List (Option α)) : List (Option Nat) :=
  (l.foldl (fun (acc : List (Option Nat) × Nat) x => if x.isSome then (some acc.2 :: acc.1, acc.2 + 1) else (none :: acc.1, acc.2)) ([], 0)).1.reverse

/-- Head `h`'s contribution to the output line at `y`: its fine and its coarse path, `none` while its lines are awaited (R250-R258). The fine
path runs on every line, settling or not. -/
def formLine (v2 v3 : Store) (g : HeadGeo) (h : Nat) (y : Pos) : Option HeldLine :=
  if g.virgin then none else
    let bridge := v2.num K.LOST_BRIDGE
    let (i, ph, near) := dwIndex y (headDelay v2 h g.pitch) g.phase g.pitch
    let windowEnd := (i + 4) * g.pitch + g.phase
    if g.newest < max windowEnd g.first then none else
      let taps := (List.range 8).map fun (t : Nat) => g.tapLine bridge (i - 3 + t)
      let nearT := g.tapLine bridge near
      let all := nearT :: taps
      if all.any (fun t => match t with | .wait => true | _ => false) then none else
        let shape : Planes := match g.lines.find? (fun l => l.2.isSome) with | some (_, some p) => p | _ => List.replicate (swathPlanes v3) []
        let nearP := tapPlanes shape nearT
        let rows := taps.map (tapPlanes shape)
        let cov := coverLine v3 h
        let cs := phaseCoefs v2 (ik K.DW_COEF h) 8 ph
        let dw := nearP.mapIdx fun q p => dwPlane cs p (rows.map fun r => r.getD q [])
        let xs := dw.map fun p => let ws := p.map (·.1); (cov.filterMap id).map (xwPixel v3 h ws)
        some { y := y, windowEnd := windowEnd, planes := nearP.length, cov := ordinals cov,
               fine := interleave (xs.map fun p => p.map (·.1)), coarse := interleave (nearP.map fun p => (cov.filterMap id).map (coarsePixel p)),
               dwClamp := dw.any fun p => p.any (·.2), xwClamp := xs.any fun p => p.any (·.2),
               bridged := all.filterMap fun t => match t with | .bridged p _ => some p | _ => none,
               gone := all.filterMap fun t => match t with | .gone p => some p | _ => none,
               gain := (List.range 3).map fun q =>
                 (cs.mapIdx fun (t : Nat) (x : Int) => x * (((g.tapGain bridge (i - 3 + t)).getD q 0 : Nat) : Int)).foldl (· + ·) 0,
               gainNear := (g.tapGain bridge near).map fun (x : Nat) => (x : Int) * 16384 }

/-- The 8 bytes of each held sample: the fine word, then the coarse word (R260). -/
def HeldLine.bytes (k : HeldLine) : List Nat := (k.fine.zip k.coarse).flatMap fun (a, b) => leBytes 4 a ++ leBytes 4 b

/-- What a held contribution gives to the stitcher: coarse on a settling line, INVALID where it has not returned (R262, R267). `ws` are the
fine and the coarse words. -/
def HeldLine.give (k : HeldLine) (h : Nat) (reset settling : Bool) (ws : Option (List Nat × List Nat)) : Contribution :=
  let src (o : Nat) : Nat := match ws with
    | some (f, c) => (if settling then c else f).getD o pxBad
    | none => pxBad
  { head := h, words := (List.range k.planes).map fun q => k.cov.map fun o => o.map fun o => src (o * k.planes + q), held := k, reset := reset,
    gain := if settling then k.gainNear else k.gain }

/-- Where the contribution of head `h` to the output line at `y` lies in the alignment ring: the heads in order, the H_h lines of a head in
turn. `atEnd`: the configuration takes the end of the ring instead of its start, so that two in turn do not meet (log 1260). -/
def ringAddr (v : Store) (z : GeoSizes) (atEnd : Bool) (h : Nat) (y : Pos) : Nat :=
  let size (g : Nat) : Nat := z.cover.getD g 0 * z.planes * 8
  let base := (List.range h).foldl (fun s g => s + z.hold.getD g 0 * size g) (if atEnd then v.num K.ALIGN_SIZE - z.need else 0)
  let slot := ((y - v.num K.OUT_PHASE) / (max 1 (v.num K.OUT_PITCH) : Nat) % (max 1 (z.hold.getD h 0) : Nat)).toNat
  v.num K.ALIGN_ADDR + base + slot * size h

/-- Indices at which both lists have a value: the lowest and the highest. -/
def overlap (a b : List (Option Nat)) : Option (Nat × Nat) :=
  let both := ((a.zip b).mapIdx fun i p => if p.1.isSome && p.2.isSome then some i else none).filterMap id
  match both with
  | [] => none
  | x :: _ => some (x, both.getLastD x)

/-- The blended word of an overlap pixel (R263). -/
def blendSample (lo hi n l r : Nat) : Nat :=
  let fl (a b : Nat) := px 0 (pxSat a || pxSat b) (pxRepl a || pxRepl b) false + b2n (pxSettling a || pxSettling b) * 524288
  if pxInv l && pxInv r then fl l r + 65536
  else if pxInv l then r
  else if pxInv r then l
  else fl l r + (pxVal l * (hi + 1 - n) + pxVal r * (n - lo + 1) + (hi - lo + 2) / 2) / (hi - lo + 2)

/-- The stitched word of pixel `n` of plane `q`, and the head it is taken from, the one of larger weight in a blend (R263, R297). -/
def stitchPixel (v : Store) (cs : List Contribution) (q n : Nat) : Nat × Nat :=
  let at_ (c : Contribution) : Option Nat := ((c.words.getD q []).getD n none)
  match cs.filter fun c => (at_ c).isSome with
  | [] => (pxBad, 8)
  | [a] => ((at_ a).getD pxBad, a.head)
  | a :: b :: _ =>
    let aLow : Bool := decide (v.sintE 32 (ik K.COVER a.head) 0 ≤ v.sintE 32 (ik K.COVER b.head) 0)
    let l := if aLow then a else b
    let r := if aLow then b else a
    let wl := (at_ l).getD pxBad
    let wr := (at_ r).getD pxBad
    match overlap (a.words.getD q []) (b.words.getD q []) with
    | none => (wl, l.head)
    | some (lo, hi) =>
      if v.num (ik K.SEAM_MODE l.head) = 0 then (if n ≤ (lo + hi) / 2 then (wl, l.head) else (wr, r.head))
      else (blendSample lo hi n wl wr, if n - lo + 1 ≤ hi + 1 - n then l.head else r.head)

/-- The gain notice of pixel `n` of plane `q`: its head's, or blended with the weights of R263 (R292). `ns`: by contribution, by plane. -/
def noticePixel (v : Store) (cs : List Contribution) (ns : List (List Nat)) (q n : Nat) : Nat :=
  let of_ (p : Contribution × List Nat) : Nat := p.2.getD q (2 ^ 24)
  match (cs.zip ns).filter fun p => ((p.1.words.getD q []).getD n none).isSome with
  | [] => 2 ^ 24
  | [a] => of_ a
  | a :: b :: _ =>
    let aLow : Bool := decide (v.sintE 32 (ik K.COVER a.1.head) 0 ≤ v.sintE 32 (ik K.COVER b.1.head) 0)
    let l := if aLow then a else b
    let r := if aLow then b else a
    match overlap (a.1.words.getD q []) (b.1.words.getD q []) with
    | none => of_ l
    | some (lo, hi) =>
      if v.num (ik K.SEAM_MODE l.1.head) = 0 then (if n ≤ (lo + hi) / 2 then of_ l else of_ r)
      else (of_ l * (hi + 1 - n) + of_ r * (n - lo + 1) + (hi - lo + 2) / 2) / (hi - lo + 2)

namespace Chan

/-- The resampler of head `h`. -/
def hgeo (c : Chan) (h : Nat) : HeadGeo := c.geo.heads.getD h {}
/-- Give head `h` its resampler. -/
def putGeo (c : Chan) (h : Nat) (g : HeadGeo) : Chan := { c with geo := { c.geo with heads := listPut c.geo.heads h g } }

/-- Where the first output line may lie: every active head has material (DESIGN CHOICE, log entry 24). -/
def firstOut (c : Chan) (v : Store) : Option Pos :=
  let act := activeIn v
  if act.isEmpty || act.any (fun h => (c.hgeo h).virgin) then none
  else
    let m (h : Nat) : Pos := (c.hgeo h).first - headDelay v h (c.hgeo h).pitch
    some (act.foldl (fun y h => max y (m h)) (m (act.headD 0)))

/-- Whether the contributions to the output line at `y` lie at the end of the alignment ring: a commit that changes an H_h or a C_h takes the
other end. -/
def ringEnd (c : Chan) (y : Pos) : Bool :=
  let st := c.slate.stage 3
  ((st.sets.filter fun s => decide (s.pos ≤ y)).foldl (fun (a : Store × Bool) s =>
    let v := Store.overlay a.1 s.entries
    let z := geoSizes a.1
    let z' := geoSizes v
    (v, if z.hold != z'.hold || z.cover != z'.cover then !a.2 else a.2)) (st.base, c.geo.flip)).2

/-- The cross-web stage has applied a set: `old` is its configuration before. -/
def ringSwitch (c : Chan) (old : Store) : Chan :=
  let z := geoSizes old
  let z' := geoSizes (c.slate.stage 3).base
  if z.hold != z'.hold || z.cover != z'.cover then { c with geo := { c.geo with flip := !c.geo.flip } } else c

/-- Head `h` forms its contributions in turn as long as its lines allow, at most `fuel`; one that another head must wait for goes to the
alignment ring, whose H_h slots hold each until the last head has delivered (R249, R250, R260). -/
def formHead (h : Nat) : Nat → Chan → Chan
  | 0, c => c
  | fuel + 1, c =>
    let g := c.hgeo h
    let s2 := c.slate.stage 2
    let lo : Option Pos := match g.held.getLast?, c.geo.lastY with
      | some k, _ => some (k.y + 1)
      | none, some y => some (y + 1)
      | none, none => c.firstOut c.n.objs
    match lo with
    | none => c
    | some lo =>
      let (y, v2) := nextOut lo s2.base s2.sets
      let v3 := c.viewOut 3 y
      if (activeIn v2).contains h = false then c else
        match formLine v2 v3 g h y with
        | none => c
        | some k =>
          let z := geoSizes v3
          if z.hold.getD h 0 = 0 then formHead h fuel (c.putGeo h { g with held := g.held ++ [k] })
          else
            let at_ := ringAddr v3 z (c.ringEnd y) h y
            if g.held.any (fun x => x.addr.any (·.1 == at_)) then c else
            let (c, st) := c.memStore 0 at_ k.bytes
            formHead h fuel (c.putGeo h { c.hgeo h with held := (c.hgeo h).held ++
              [{ k with addr := some (at_, k.bytes.length), lost := st != 0, fine := [], coarse := [] }] })

/-- Every head forms what its lines allow. -/
def formAll (c : Chan) : Chan :=
  (List.range 4).foldl (fun (c : Chan) h =>
    let g := c.hgeo h
    formHead h (g.lines.length * (g.pitch / (max 1 ((c.slate.stage 2).base.num K.OUT_PITCH)) + 2) + 8) c) c

/-- A held contribution returns from the alignment ring: its fine and coarse words, none where it does not (R262). -/
def fetchHeld (c : Chan) (k : HeldLine) : Chan × Option (List Nat × List Nat) :=
  match k.addr with
  | none => (c, some (k.fine, k.coarse))
  | some (a, n) =>
    if k.lost ∨ c.memWaiting = true then (c, none) else
      let (c, st, bs) := c.memLoad a n
      let word (o : Nat) : List Nat := (List.range (n / 8)).map fun i => field bs (8 * i + o) 4 % 2 ^ 20
      (c, if st = 0 then some (word 0, word 4) else none)

/-- A lost line at `p` lies in a gap that no output line has used: a line received since the last lost one used, or none was used (R254). -/
def newGap (g : HeadGeo) (used : Option Pos) (p : Pos) : Bool :=
  match used with
  | none => true
  | some u => g.lines.any fun l => l.2.isSome && decide (u < l.1) && decide (l.1 < p)

/-- The gaps among lost lines that no output line has used before (R254). -/
def newGaps (g : HeadGeo) (ps : List Pos) : Nat :=
  ((ps.eraseDups.mergeSort fun a b => decide (a ≤ b)).foldl (fun (k : Nat × Option Pos) p =>
    (k.1 + b2n (newGap g k.2 p), some (match k.2 with | some u => max u p | none => p))) (0, g.gone)).1

/-- The newest unbridged lost line that an output line has used. -/
def goneThrough (g : HeadGeo) (ps : List Pos) : Option Pos :=
  ps.foldl (fun u p => some (match u with | some u => max u p | none => p)) g.gone

/-- The bridged lines and the gaps that a contribution is the first to use (R254). -/
def lostUse (g : HeadGeo) (k : HeldLine) : Nat × Nat :=
  k.counts.getD ((k.bridged.eraseDups.filter fun p => !g.counted.contains p).length, newGaps g k.gone)

/-- The head's record of lost lines used, once a contribution has used its own. -/
def lostUsed (g : HeadGeo) (k : HeldLine) : HeadGeo :=
  if k.counts.isSome then g else { g with counted := (g.counted ++ k.bridged).eraseDups, gone := goneThrough g k.gone }

/-- The contributions a head holds, each with what it counts of the history that is being cleared. -/
def lostSettled (g : HeadGeo) : List HeldLine :=
  (g.held.foldl (fun (a : List HeldLine × HeadGeo) k => (a.1 ++ [{ k with counts := some (lostUse a.2 k) }], lostUsed a.2 k)) ([], g)).1

/-- The history with a line at its place, newest first; one below the earliest retained line is none of it. -/
def lineInsert (g : HeadGeo) (p : Pos) (planes : Option Planes) (gain : List Nat) : HeadGeo :=
  if p < g.first then g else
    let at_ {α : Type} (x : α) (l : List (Pos × α)) : List (Pos × α) := l.filter (fun y => decide (p < y.1)) ++ (p, x) :: l.filter (fun y => decide (y.1 < p))
    { g with lines := at_ planes g.lines, gains := at_ gain g.gains }

/-- A line or lost descriptor enters the down-web resampler (R251, R254, R266). -/
def geoEnter (c : Chan) (l : HeadLine) (planes : Option Planes) : Chan :=
  let h := l.desc.head
  let v := c.viewIn 2 l.desc.gen
  let pitch := v.num (ik K.LINE_PITCH h)
  let phase := v.num (ik K.LINE_PHASE h)
  let g := c.hgeo h
  let grid : Bool := (l.desc.pos - phase) % (max 1 pitch : Nat) == 0
  if l.desc.timeTrig && (!grid || g.passed.contains l.desc.pos) then
    c.mapN fun n => (n.inc (ik K.TIME_LINES h)).setFlag K.GEO_FLAGS 4
  else
    let g := { g with passed := l.desc.pos :: g.passed }
    if g.virgin || g.pitch != pitch || g.phase != phase then
      c.putGeo h { g with pitch := pitch, phase := phase, first := l.desc.pos, lines := [(l.desc.pos, planes)],
                          gains := [(l.desc.pos, l.gain)], counted := [], gone := none, virgin := false, held := lostSettled g,
                          resets := if g.virgin then g.resets else g.resets ++ [.reach l.desc.pos] }
    else
      let g := lineInsert g l.desc.pos planes l.gain
      c.putGeo h { g with resets := if l.disturbed then g.resets ++ [.reach l.desc.pos] else g.resets }

/-- A line or lost descriptor enters the down-web resampler, and the heads form what their lines allow (R249-R260). What a head has formed
from the lines before a cleared history stays. -/
def geoLine (c : Chan) (l : HeadLine) (planes : Option Planes) : Chan := (c.geoEnter l planes).formAll

/-- A head's resampler after it has given to the output line at `y`: it retains sixteen lines behind the window (DESIGN
CHOICE, safe: log entry 1254). -/
def geoAfter (v : Store) (y : Pos) (k : Contribution) (g : HeadGeo) : HeadGeo :=
  let (i, _, _) := dwIndex y (headDelay v k.head g.pitch) g.phase g.pitch
  let keep := (i - 16) * g.pitch + g.phase
  let g := lostUsed g k.held
  { g with settle := if k.reset then 3 else g.settle - 1, lastG := k.gain, gains := g.gains.filter (fun l => decide (keep ≤ l.1)),
           resets := g.resets.filter (fun r => !r.applies y k.held.windowEnd),
           counted := g.counted.filter (fun p => decide (keep ≤ p)),
           first := max g.first keep, lines := g.lines.filter (fun l => decide (keep ≤ l.1)),
           held := g.held.filter fun x => decide (y < x.y) }

/-- The counts of one head's contribution under generation `gen` (R252, R254, R258, R269). -/
def geoCount (c : Chan) (gen : Nat) (y : Pos) (k : Contribution) : Chan :=
  let h := k.head
  let (newB, newG) := lostUse (c.hgeo h) k.held
  let c := c.pubInc gen 32 (ik K.LOST_BRIDGED h) newB
  let c := c.pubInc gen 32 (ik K.LOST_UNBRIDGED h) newG
  let c := if newG = 0 then c else c.mapN (·.setFlag K.GEO_FLAGS 0)
  let c := if k.held.dwClamp then (c.pubInc gen 32 (ik K.DW_CLAMPS h) 1).mapN (·.setFlag K.GEO_FLAGS 2) else c
  let c := if k.held.xwClamp then (c.pubInc gen 32 (ik K.XW_CLAMPS h) 1).mapN (·.setFlag K.GEO_FLAGS 3) else c
  if k.reset then c.mapN fun n => Node.occur ((n.inc K.RESYNC_COUNT).putN K.LAST_RESYNC_POS (pos64 y)) 46 else c

/-- n_k of one head by plane: G_k over the G of the previous output line, Q8.24 (R292). A G of 0 before leaves it open. -/
def headNotice (c : Chan) (k : Contribution) : Chan × List Nat :=
  let old := (c.hgeo k.head).lastG
  if old.isEmpty then (c, List.replicate 3 (2 ^ 24)) else
    (k.gain.zip old).foldl (fun (c, ns) (a, b) =>
      if b ≤ 0 then
        let (x, n) := c.n.takeFree 32
        ({ c with n := n }, ns ++ [x])
      else (c, ns ++ [min (2 ^ 32 - 1) (rdivI (a * 16777216) b.toNat).toNat])) (c, [])

/-- The next output line, where every head its window needs has passed (R250); `late`: heads whose held contribution is not back (R262). In
Retake the journal says which are late, and lines below C are discarded (R368). -/
def outputLine (c : Chan) (late : List Nat) : Chan :=
  let c := c.formAll
  if c.replaying = true ∧ c.memWaiting = true then c else
  let s2 := c.slate.stage 2
  let lo : Option Pos := match c.geo.lastY with | some y => some (y + 1) | none => c.firstOut c.n.objs
  match lo with
  | none => c
  | some lo =>
    let (y, v2) := nextOut lo s2.base s2.sets
    let v3 := c.viewOut 3 y
    let act := activeIn v2
    let hold := (geoSizes v3).hold
    let isLate (h : Nat) : Bool := if c.replaying then c.rushes.retake.late.contains (y, h) else late.contains h && hold.getD h 0 != 0
    let parts := act.map fun h => (c.hgeo h).held.find? (·.y == y)
    if act.isEmpty || parts.any (·.isNone) then c else
      let (c, cs, lates) := (act.zip (parts.filterMap id)).foldl (fun (a : Chan × List Contribution × List Nat) (h, k) =>
        let (c, ws) := a.1.fetchHeld k
        let ws := if isLate h then none else ws
        let g := c.hgeo h
        let reset := g.resets.any fun r => r.applies y k.windowEnd
        (c, a.2.1 ++ [k.give h reset (reset || g.settle != 0) ws], if ws.isNone then a.2.2 ++ [h] else a.2.2)) (c, [], [])
      let gen := (c.slate.stage 3).genOut y
      let w := v3.num K.SWATH_WIDTH
      let q := swathPlanes v3
      let px := (List.range q).map fun p => (List.range w).map fun n => stitchPixel v3 cs p n
      let planes : Planes := px.map fun p => p.map (·.1)
      let heads := (px.headD []).map (·.2)
      let unc := (heads.filter (· == 8)).length
      let settling : Bool := planes.any fun p => p.any pxSettling
      let (c, ns) := cs.foldl (fun (c, ns) k => let (c, x) := c.headNotice k; (c, ns ++ [x])) (c, [])
      let notice : Planes := (List.range q).map fun p => (List.range w).map fun n => noticePixel v3 cs ns p n
      let c := cs.foldl (fun c k => (c.geoCount gen y k).putGeo k.head (geoAfter v2 y k (c.hgeo k.head))) c
      let c := c.pubInc gen 64 K.OUT_LINES 1
      let c := c.pubInc gen 64 K.SETTLING_LINES (b2n settling)
      let c := c.pubInc gen 64 K.UNCOVERED_PIXELS unc
      let c := if unc = 0 then c else c.mapN (·.setFlag K.GEO_FLAGS 1)
      let c := if lates.isEmpty then c else c.mapN fun n => (n.inc K.ALIGN_LATE_LINES).setFlag K.GEO_FLAGS 5
      let c := lates.foldl (fun c h => c.note (.entry 0x0D 0 (c.globalHead h) c.n.ns (leBytes 8 (pos64 y) ++ [1] ++ zeros 19))) c
      let keep : Bool := !c.replaying || decide (c.rushes.retake.pos ≤ y)
      let c := if c.replaying then c.mapN (·.putN K.RETAKE_POS (pos64 y)) else c
      let due := (c.geo.changed.filter fun s => decide (s ≤ y)).length
      let c := c.mapN fun n => (List.range due).foldl (fun n _ => n.occur 53) (n.putN K.LAST_OUT_POS (pos64 y))
      { c with geo := { c.geo with lastY := some y, changed := c.geo.changed.filter (fun s => decide (y < s)),
                                   out := if keep then c.geo.out ++ [{ y := y, planes := planes, heads := heads, gen := gen, notice := notice, time := c.n.now }]
                                          else c.geo.out } }

/-- The objects of chapter 08 that reset every head, and those that reset one (R266). -/
def resetAll : List Nat := [K.OUT_PITCH, K.OUT_PHASE, K.XW_PITCH, K.XW_ORIGIN, K.SWATH_WIDTH]
def resetHead (h : Nat) : List Nat := [K.DW_DELAY_INT, K.DW_DELAY_FRAC, K.MAP_X0, K.MAP_DX, K.MAP_KNOTS, K.MAP_COL].map (ik · h)

/-- Contributions formed for output lines at or above `s` are formed anew, under the values that a commit brings there (R44). -/
def formAnew (c : Chan) (s : Pos) : Chan :=
  { c with geo := { c.geo with heads := c.geo.heads.map fun (g : HeadGeo) => { g with held := g.held.filter fun k => decide (k.y < s) } } }

/-- A fold moved a set's boundary from `was` to `s`: its resets and its change of geometry move with it (R45, R46). -/
def geoFold (c : Chan) (was s : Pos) : Chan :=
  let c := c.formAnew (min was s)
  { c with geo := { c.geo with
      heads := c.geo.heads.map fun (g : HeadGeo) => { g with resets := (g.resets.map fun r => if r = .pos was then .pos s else r).eraseDups },
      changed := (c.geo.changed.map fun x => if x = was then s else x).eraseDups } }

/-- A commit with Slate position `s` that changes geometry objects: its resets and its source 53 (R266, R269). -/
def geoCommit (old : Node) (s : Pos) (c : Chan) : Chan :=
  let changed (k : Nat) : Bool := old.elems k != c.n.elems k
  let all := resetAll.any changed
  let c := c.formAnew s
  let c := (List.range 4).foldl (fun c h =>
    if all || (resetHead h).any changed then
      let g := c.hgeo h
      c.putGeo h { g with resets := g.resets ++ [.pos s] }
    else c) c
  let mine (k : Nat) : Bool := decide (0x830000 ≤ k) && decide (k < 0x838000)
  if (c.n.objs.any fun (k, e) => mine k && old.elems k != e) || (old.objs.any fun (k, e) => mine k && c.n.elems k != e) then
    { c with geo := { c.geo with changed := c.geo.changed ++ [s] } }
  else c

end Chan

end Sys2Proof.Machine
end

