-- ==== Sys2Proof/Machine/InputEngine.lean ====
section
/-!
DEFINITION. The input block of chapter 05 and the trigger generators of R120 over a channel: triggers, pins, BuarnLink and CoaXPress
reception, line closing, the loss queue, links, the aux port.
-/

namespace Sys2Proof.Machine

/-- Samples per pixel and bits per sample of a format (R158). -/
def fmtPlanes (f : Nat) : Nat := if 0x11 ≤ f then 3 else 1
def fmtBits (f : Nat) : Nat :=
  match f with
  | 0x01 => 8 | 0x02 => 10 | 0x03 => 12 | 0x04 => 14 | 0x05 => 16 | 0x11 => 8 | 0x12 => 10 | 0x13 => 12
  | _ => 8

/-- The INVALID bit of a pixel word (R220), used on raw codes too. -/
def pxInvalidBit : Nat := 65536

namespace HeadIn

/-- Outstanding triggers: those whose line has not closed (R183). -/
def outstanding (x : HeadIn) : Nat := (x.lines.filter fun l => l.trig && !l.closed).length

/-- Change the first line for which `p` holds. -/
def modFirst (p : HeadLine → Bool) (f : HeadLine → HeadLine) : List HeadLine → List HeadLine
  | [] => []
  | l :: r => if p l then f l :: r else l :: modFirst p f r

/-- The line with trigger number `n` that still takes data. -/
def byTag (x : HeadIn) (n : Nat) : Option HeadLine := x.lines.find? fun l => l.trig && !l.closed && l.desc.num == n

/-- Lines in the merge FIFO: begun, not lost, not yet passed (R192). -/
def inFifo (x : HeadIn) : Nat := (x.lines.filter fun l => l.started && !l.desc.lost).length

end HeadIn

namespace Chan

/-- The input view of a line: the values of its own generation at stage 0. -/
def lineView (c : Chan) (d : Desc) : Store := c.viewIn 0 d.gen

/-! ## Counting lines (R191) -/

/-- A line of generation `gen` is entered in the last 1,024 of its head: 1 short or long, 2 lost, 0 neither; the alarms follow, by that
generation's counts (R44, R191). `bits`: the flags of a short or long line. -/
def mark (c : Chan) (h gen m bits : Nat) : Chan :=
  let x := c.head h
  let marks := (m :: x.marks).take 1024
  let lens := (marks.filter (· == 1)).length
  let losts := (marks.filter (· == 2)).length
  let v := c.viewIn 0 gen
  let ln := v.num (ik K.LEN_ALARM_N h)
  let on := v.num (ik K.LOST_ALARM_N h)
  let lenNow : Bool := ln != 0 && decide (ln < lens)
  let lostNow : Bool := on != 0 && decide (on < losts)
  let raise (go : Bool) (b : Nat) (n : Node) : Node :=
    if go && !n.bitOf K.INPUT_FLAGS b then (n.setFlag K.INPUT_FLAGS b).alarm (2 + b) else n
  let n := raise (lenNow && !x.lenOver && bits % 2 == 1) 4 c.n
  let n := raise (lenNow && !x.lenOver && bits / 2 == 1) 5 n
  let n := raise (lostNow && !x.lostOver) 6 n
  Chan.putHead { c with n := n } h { x with marks := marks, lenOver := lenNow, lostOver := lostNow }

/-- A lost line is counted (R191, LINES_LOST). -/
def countLost (c : Chan) (h : Nat) (d : Desc) : Chan :=
  let c := (c.pubAdd d.gen 32 (ik K.LINES_LOST h) 0 1).pubAdd d.gen 32 (ik K.LINES_LOST h) d.reason 1
  c.mark h d.gen 2 0

/-! ## Descriptors and temperatures -/

/-- The temperature a line takes now (R187). -/
def takeTemp (c : Chan) (h : Nat) (d : Desc) : Desc :=
  match (c.head h).temp with
  | some (t, at_) => { d with temp := t, tempStale := decide (nsTicks 1000000000 < c.n.mono - at_) }
  | none => { d with temp := 0, tempStale := true }

/-- A line that has not taken its temperature takes it; a stale one sets TEMP_STALE. -/
def lineTemp (c : Chan) (h : Nat) (l : HeadLine) : Chan × HeadLine :=
  let d := c.takeTemp h l.desc
  if l.warm then (c, l) else
    (if d.tempStale then c.mapN (·.setFlag K.INPUT_FLAGS 11) else c, { l with desc := d, warm := true })

/-- Tap `t` of a line. -/
def tapOf (l : HeadLine) (t : Nat) : TapRx := l.taps.getD t {}
/-- The line with tap `t` given. -/
def putTap (l : HeadLine) (t : Nat) (x : TapRx) : HeadLine := { l with taps := listPut l.taps t x }

/-- Tap `t` closes as short (R169, R174, R187). -/
def cutTap (l : HeadLine) (t : Nat) : HeadLine := putTap l t { tapOf l t with isOpen := false, ended := true, cut := true }

/-- The used taps of a line of head `h` under the values `v`. -/
def usedTaps (v : Store) (h : Nat) (l : HeadLine) : List (Nat × TapRx) :=
  (List.range (v.num (ik K.TAP_COUNT h))).map fun t => (t, tapOf l t)

/-- Tap `p` was short: cut, or ended below its length. -/
def tapShort (v : Store) (h : Nat) (p : Nat × TapRx) : Bool := p.2.cut || decide (p.2.pixels.length < v.elem (ik K.TAP_LEN h) p.1)

/-- Tap `p` was long; a cut one, whose last block may hold fill, is short alone. -/
def tapLong (v : Store) (h : Nat) (p : Nat × TapRx) : Bool := !p.2.cut && decide (v.elem (ik K.TAP_LEN h) p.1 < p.2.pixels.length)

/-- What the descriptor takes from the taps `ts` of a line (R186): LENGTH_RX, CRC_ERR and OVERRUN, and TAP_ERR of the taps in error and of
those for which `wrong` holds. -/
def tapDesc (ts : List (Nat × TapRx)) (wrong : Nat × TapRx → Bool) (d : Desc) : Desc :=
  { d with
    lenRx := min (ts.foldl (fun s p => s + p.2.pixels.length) 0) 65535, crcErr := ts.any (·.2.crcErr), overrun := ts.any (·.2.overrun),
    tapErr := ts.foldl (fun m p => if wrong p || p.2.crcErr || p.2.overrun then setBit m p.1 else m) 0 }

/-- A triggered line becomes lost, for reason `r`; it is counted now, and its descriptor holds what it has received (R186): TAP_ERR of a
tap counts its length once the tap has ended. -/
def loseLine (c : Chan) (h r : Nat) (l : HeadLine) : Chan × HeadLine :=
  let (c, l) := c.lineTemp h l
  let v := c.lineView l.desc
  let d := tapDesc (usedTaps v h l) (fun p => p.2.ended && (tapShort v h p || tapLong v h p)) l.desc
  let l := { l with desc := { d with lost := true, reason := r }, closed := true }
  (c.countLost h l.desc, l)

/-- Change the first line of head `h` with trigger number `num` among those still open. -/
def onLine (c : Chan) (h num : Nat) (f : Chan → HeadLine → Chan × HeadLine) : Chan :=
  match (c.head h).lines.find? (fun l => l.trig && !l.closed && l.desc.num == num) with
  | some l =>
    let (c, l') := f c l
    c.modHead h fun x => { x with lines := HeadIn.modFirst (fun m => m.trig && !m.closed && m.desc.num == num) (fun _ => l') x.lines }
  | none => c

/-! ## Trigger pins (R185, R593) -/

/-- Trigger output `t`. -/
def pin (c : Chan) (t : Nat) : TrgPin := c.input.pins.getD t {}
/-- Give trigger output `t` its state. -/
def putPin (c : Chan) (t : Nat) (p : TrgPin) : Chan := { c with input := { c.input with pins := listPut c.input.pins t p } }

/-- A trigger reaches pin `t`. -/
def pinTrigger (c : Chan) (t : Nat) : Chan :=
  let p := c.pin t
  if p.driven = false ∨ c.deep = true then c
  else if p.gap then c.mapN fun n => (n.inc (ik K.TRG_OVERLAP t)).setFlag K.INPUT_FLAGS 10
  else if p.active then
    (c.putPin t { p with active := false, gap := true, since := c.n.mono, width := c.n.num (ik K.TRG_WIDTH t) }).mapN fun n =>
      (n.inc (ik K.TRG_OVERLAP t)).setFlag K.INPUT_FLAGS 10
  else (c.putPin t { p with active := true, since := c.n.mono, width := c.n.num (ik K.TRG_WIDTH t) }).mapN (·.inc (ik K.TRG_COUNT t))

/-- TRG_WIDTH, as at its trigger, after the pulse began it ends (R44, R185); the pin then drives the polarity in force (R593). -/
def pulseEnd (c : Chan) (t : Nat) : Chan :=
  let p := c.pin t
  if p.active = true ∧ nsTicks p.width ≤ c.n.mono - p.since then
    c.putPin t { p with active := false, pol := c.n.num (ik K.TRG_POLARITY t) }
  else c

/-- The 10 ns gap ends and a new pulse starts (R185). -/
def gapEnd (c : Chan) (t : Nat) : Chan :=
  let p := c.pin t
  if p.gap = true ∧ nsTicks 10 ≤ c.n.mono - p.since then
    (c.putPin t { p with gap := false, active := true, since := c.n.mono }).mapN (·.inc (ik K.TRG_COUNT t))
  else c

/-- What a commit does to the trigger pins (R536, R593); one with TRG_HEAD FFh becomes inactive (R185). -/
def pinsCommit (c : Chan) : Chan :=
  { c with input := { c.input with pins := c.input.pins.mapIdx fun t p =>
      let busy : Bool := (p.active || p.gap) && c.n.num (ik K.TRG_HEAD t) != 0xFF
      { p with driven := true, active := p.active && busy, gap := p.gap && busy,
               pol := if busy then p.pol else c.n.num (ik K.TRG_POLARITY t) } } }

/-- In Doze and Park the trigger pins hold their inactive levels (R185). -/
def pinsRest (c : Chan) : Chan :=
  { c with input := { c.input with pins := c.input.pins.mapIdx fun t p =>
      { p with active := false, gap := false, pol := c.n.num (ik K.TRG_POLARITY t) } } }

/-! ## Triggers (R183, R171, R178) -/

/-- LINK_STATE of the link of head `h`. -/
def headLink (c : Chan) (h : Nat) : Nat := c.n.elem K.LK_LINK_STATE (c.n.num (ik K.HEAD_LINK h))

/-- A trigger word or packet on the head's link (R171, R178). DELAY is free within the 28 ns of R184 and its ±1 ns; the delay field of a
CoaXPress packet is free (log 1171). -/
def linkTrigger (c : Chan) (h num : Nat) : Chan :=
  if c.n.flag (ik K.LINK_TRIGGER h) = true ∧ c.headLink h ≠ 0 then
    let link := c.n.num (ik K.HEAD_LINK h)
    let (x, n) := c.n.takeFree 8
    match c.n.num (ik K.HEAD_INPUT h) with
    | 1 => { c with n := n.emit (.cxpTrigger link h x) }
    | 2 => { c with n := n.emit (.blChars link ([0x13C, 64 * (c.n.num (ik K.SOURCE_ID h) % 4)] ++ leBytes 2 num ++ [x % 30])) }
    | _ => c
  else c

/-- The oldest outstanding trigger of a full queue is lost with QUEUE_FULL (R183). -/
def queueRoom (c : Chan) (h : Nat) : Chan :=
  if (c.head h).outstanding < 64 then c else
    match (c.head h).lines.find? (fun l => l.trig && !l.closed) with
    | some l => c.onLine h l.desc.num fun c l => c.loseLine h 7 l
    | none => c

/-- The channel's position copy becomes `p`: a standstill or a change of direction is noted for the next grid line of each head that has
had one (R266). -/
def takePosition (c : Chan) (p : PosCopy) : Chan :=
  let turned : Bool := p.standstill || p.upstream != c.n.posn.upstream
  let c := if turned then { c with input := { c.input with heads := c.input.heads.map fun (x : HeadIn) => { x with moved := x.grid } } } else c
  c.mapN fun n => { n with posn := p }

/-- One trigger of head `h` at position `pos` (R183): its number, its queue entry, its pins, its link. -/
def issue (c : Chan) (h : Nat) (pos : Pos) (time : Bool) : Chan :=
  let c := c.queueRoom h
  let x := c.head h
  let num := wrap 16 (x.num + 1)
  let d : Desc := { pos := pos, time := c.n.ns, num := num, gen := c.n.gen, head := h, timeTrig := time }
  let l : HeadLine := { desc := d, issued := c.n.mono, disturbed := x.moved && !time }
  let c := c.putHead h { x with num := num, last := some c.n.mono, lines := x.lines ++ [l], grid := x.grid || !time, moved := time && x.moved }
  let c := c.mapN (·.putN (ik K.LAST_TRIG_POS h) (pos64 pos))
  let c := if c.n.num (ik K.HEAD_INPUT h) = 0 then c.onLine h num fun c l => c.loseLine h 4 l
           else if c.headLink h = 3 then c else c.onLine h num fun c l => c.loseLine h 6 l
  let c := (List.range 4).foldl (fun c t => if c.n.num (ik K.TRG_HEAD t) = h then c.pinTrigger t else c) c
  (c.linkTrigger h num).wakeCause

/-- A lost line that had no trigger joins the head's descriptors and is counted (R186). -/
def lostPoint (c : Chan) (h reason : Nat) (pos : Pos) (time : Nat) (timeTrig : Bool) : Chan :=
  let d : Desc := { pos := pos, time := time, gen := c.n.gen, head := h, lost := true, reason := reason, timeTrig := timeTrig }
  let d := c.takeTemp h d
  (c.modHead h fun x =>
    { x with lines := x.lines ++ [{ desc := d, trig := false, closed := true, disturbed := x.moved && !timeTrig }],
             grid := x.grid || !timeTrig,
             moved := timeTrig && x.moved }).countLost h d

/-- A trigger now would fall sooner than 1/f_h after the previous one (R54). -/
def tooSoon (c : Chan) (h : Nat) : Bool :=
  match (c.head h).last with
  | some t => decide ((c.n.mono - t) * c.rate h < nsTicks 1000000000)
  | none => false

/-- A trigger was issued in this very cycle (R145). -/
def sameCycle (c : Chan) (h : Nat) : Bool := (c.head h).last == some c.n.mono

/-- Change the newest triggered line of the head. -/
def modNewest (c : Chan) (h : Nat) (f : HeadLine → HeadLine) : Chan :=
  c.modHead h fun x => { x with lines := (HeadIn.modFirst (·.trig) f x.lines.reverse).reverse }

/-- A run of grid points passed in Doze or Park enters the loss queue (R529). -/
def powerLost (c : Chan) (h : Nat) (first : Pos) (pitch count : Nat) : Chan :=
  let x := c.head h
  let full : Bool := decide (8192 ≤ x.losses.length)
  let losses :=
    if full then
      match x.losses.reverse with
      | r :: rest => ({ r with count := r.count + count, time := c.n.ns, disturbed := r.disturbed || x.moved } :: rest).reverse
      | [] => []
    else x.losses ++ [{ first := first, pitch := pitch, count := count, time := c.n.ns, gen := c.n.gen, disturbed := x.moved }]
  let c := c.putHead h { x with losses := losses, grid := true, moved := false }
  let c := { c with power := { c.power with lost := wrap 32 (c.power.lost + count) } }
  let c := (c.signal (.pwrFlag 0)).wakeCause
  if full then c.signal (.pwrFlag 5) else c

/-- The trigger generator of head `h` in an ENCCLK cycle with the web position at `p` (R120, R121, R54, R123, R529, R592). -/
def gridPoint (c : Chan) (h : Nat) (p : Pos) : Chan :=
  let x := c.head h
  let pitch := c.n.num (ik K.LINE_PITCH h)
  let phase := c.n.num (ik K.LINE_PHASE h)
  let top := gridBelow pitch phase p
  if !c.live || !c.active h then c.modHead h fun x => { x with w := top }
  else if top ≤ x.w then c
  else
    let count := ((top - x.w) / (pitch : Int)).toNat
    let c := c.modHead h fun x => { x with w := top }
    if c.deep then c.powerLost h (x.w + pitch) pitch count
    else
      let c := (List.range (count - 1)).foldl (fun c i => c.lostPoint h 2 (x.w + pitch * ((i : Int) + 1)) c.n.ns false) c
      if c.sameCycle h then
        let c := c.modNewest h fun l => { l with desc := { l.desc with pos := top }, disturbed := x.moved }
        let c := c.modHead h fun x => { x with grid := true, moved := false }
        c.mapN (·.putN (ik K.LAST_TRIG_POS h) (pos64 top))
      else if c.tooSoon h then c.lostPoint h 1 top c.n.ns false
      else c.issue h top false

/-- An ACQUIRE trigger of head `h` (R145, R54). -/
def acquire (c : Chan) (h : Nat) : Chan :=
  if !c.live || !c.active h then c
  else if c.sameCycle h then c.modNewest h fun l => { l with desc := { l.desc with timeTrig := true } }
  else if c.tooSoon h then c.lostPoint h 1 c.n.posn.pos c.n.ns true
  else c.issue h c.n.posn.pos true

/-- Lost lines of head `h` are counted. -/
def mapLost (c : Chan) (h : Nat) (ls : List HeadLine) : Chan := ls.foldl (fun c l => c.countLost h l.desc) c

/-- At wake completion each lost point of the loss queue becomes a descriptor, ahead of the lines after the wake (R529). -/
def releaseLosses (c : Chan) : Chan :=
  (List.range 4).foldl (fun c h =>
    let x := c.head h
    let ds : List HeadLine := x.losses.flatMap fun r => (List.range r.count).map fun (i : Nat) =>
      { desc := c.takeTemp h { pos := r.first + (r.pitch * i : Nat), time := r.time, gen := r.gen, head := h, lost := true, reason := 3 },
        trig := false, closed := true, disturbed := r.disturbed && i == 0 }
    (c.putHead h { x with losses := [], lines := x.lines ++ ds }).mapLost h ds) c

/-- What a commit does to the generator of head `h`, with the web position at `p`: `old` is the unit before it (R120). -/
def genCommit (old : Node) (p : Pos) (h : Nat) (c : Chan) : Chan :=
  let changed (k : Nat) : Bool := old.num (ik k h) != c.n.num (ik k h)
  if changed K.LINE_PITCH || changed K.LINE_PHASE || old.elem K.HEAD_RATE_MAX h == 0 then
    c.modHead h fun x => { x with w := gridBelow (c.n.num (ik K.LINE_PITCH h)) (c.n.num (ik K.LINE_PHASE h)) p }
  else c

/-- The aux port counts its lines anew from the commit that enables it (R181). -/
def auxCommit (old : Node) (c : Chan) : Chan :=
  if !old.flag K.AUX_ENABLE && c.n.flag K.AUX_ENABLE then { c with input := { c.input with auxSeq := 0 } } else c

/-! ## Assembly and closing (R156, R187-R189) -/

/-- Write a tap's samples of plane `q` at their columns. -/
def tapColumns (v : Store) (h : Nat) (bad : Bool) (q t : Nat) (x : TapRx) (line : List Nat) : List Nat :=
  let start := v.elem (ik K.TAP_START h) t
  let len := v.elem (ik K.TAP_LEN h) t
  let seg := (List.range len).map fun i =>
    match x.pixels[i]? with
    | some p => p.getD q 0 + (if bad then pxInvalidBit else 0)
    | none => pxInvalidBit
  splice line start (if v.elem (ik K.TAP_DIR h) t = 1 then seg.reverse else seg)

/-- A line takes its temperature once its first column is readable (R156, R187): the tap that covers column 0 has delivered it. -/
def warmLine (c : Chan) (h : Nat) (l : HeadLine) : Chan × HeadLine :=
  let v := c.lineView l.desc
  let readable : Bool := (List.range (v.num (ik K.TAP_COUNT h))).any fun t =>
    let x := tapOf l t
    v.elem (ik K.TAP_START h) t == 0 &&
      (x.ended || decide ((if v.elem (ik K.TAP_DIR h) t = 1 then v.elem (ik K.TAP_LEN h) t else 1) ≤ x.pixels.length))
  if readable then c.lineTemp h l else (c, l)

/-- Close a line whose used taps have all ended: its flags, its raw columns, its counts (R186-R191). -/
def closeLine (c : Chan) (h : Nat) (l : HeadLine) : Chan × HeadLine :=
  let (c, l) := c.lineTemp h l
  if l.desc.lost then (c, { l with closed := true }) else
    let v := c.lineView l.desc
    let taps := usedTaps v h l
    if taps.all (fun p => p.2.pixels.isEmpty) then c.loseLine h 4 l else
      let short := taps.any (tapShort v h)
      let long := taps.any (tapLong v h)
      let crc := taps.any fun p => p.2.crcErr
      let planes := fmtPlanes (v.num (ik K.PIX_FORMAT h))
      let blank := List.replicate (v.num (ik K.LINE_LENGTH h)) pxInvalidBit
      let strict : Bool := v.num (ik K.CRC_POLICY h) == 0
      let raw := (List.range planes).map fun q =>
        taps.foldl (fun line p => tapColumns v h (l.desc.formatErr || (strict && (p.2.crcErr || p.2.overrun))) q p.1 p.2 line) blank
      let d := { tapDesc taps (fun p => tapShort v h p || tapLong v h p) l.desc with short := short, long := long }
      let ok : Bool := !short && !long && !crc
      let c := c.pubInc d.gen 64 (ik K.LINES_OK h) (b2n ok)
      let c := c.pubInc d.gen 32 (ik K.LINES_SHORT h) (b2n short)
      let c := c.pubInc d.gen 32 (ik K.LINES_LONG h) (b2n long)
      let c := c.pubInc d.gen 32 (ik K.LINES_CRC h) (b2n crc)
      let c := c.mark h d.gen (if short || long then 1 else 0) (b2n short + 2 * b2n long)
      (c, { l with desc := d, closed := true, raw := raw, taps := List.replicate 8 {} })

/-- A line closes once every used tap has ended (R187). -/
def closeIfDone (c : Chan) (h : Nat) (l : HeadLine) : Chan × HeadLine :=
  let (c, l) := c.warmLine h l
  let v := c.lineView l.desc
  if (List.range (v.num (ik K.TAP_COUNT h))).all fun t => (tapOf l t).ended then c.closeLine h l else (c, l)

/-- The open tap lines of head `h` for which `p` holds close as short (R169, R174). -/
def endOpenTaps (c : Chan) (h : Nat) (p : HeadLine → Nat → Bool) : Chan :=
  (c.head h).lines.foldl (fun c l =>
    let ends (t : Nat) : Bool := p l t && (tapOf l t).isOpen
    if l.trig && !l.closed && (List.range 8).any ends then
      c.onLine h l.desc.num fun c l =>
        c.closeIfDone h ((List.range 8).foldl (fun l t => if ends t then cutTap l t else l) l)
    else c) c

/-- A dropped line whose used taps have all ended is forgotten (R193). -/
def ghostsDone (c : Chan) (h : Nat) : Chan :=
  c.modHead h fun x => { x with ghosts := x.ghosts.filter fun l =>
    !(List.range ((c.lineView l.desc).num (ik K.TAP_COUNT h))).all fun t => (tapOf l t).ended }

/-- Every open line of the head closes once LINE_TIMEOUT of its generation has passed since its trigger, its open taps as short (R187). -/
def lineTimeout (c : Chan) (h : Nat) : Chan :=
  let due (l : HeadLine) : Bool := decide (nsTicks ((c.lineView l.desc).num (ik K.LINE_TIMEOUT h)) ≤ c.n.mono - l.issued)
  let c := c.modHead h fun x => { x with ghosts := x.ghosts.filter fun l => !due l }
  ((c.head h).lines.filter fun l => l.trig && !l.closed && due l).foldl (fun c l =>
    c.onLine h l.desc.num fun c l =>
      let l := (List.range 8).foldl (fun l t => if (tapOf l t).isOpen then cutTap l t else l) l
      if l.started then c.closeLine h l else c.loseLine h 4 l) c

/-! ## The line a tap line belongs to (R157, R169, R177) -/

/-- The tap of head `h` that a link and a BuarnLink HEAD and TAP field name under the input values `num`. -/
def blNames (link hd tap : Nat) (num : Nat → Nat) (h : Nat) : Option Nat :=
  if num (ik K.HEAD_INPUT h) = 2 ∧ num (ik K.HEAD_LINK h) = link ∧ num (ik K.SOURCE_ID h) = hd ∧ tap < num (ik K.TAP_COUNT h) then some tap
  else none

/-- The tap of head `h` that a link and a CoaXPress Stream ID name under the input values `num`. -/
def cxpNames (link id : Nat) (num : Nat → Nat) (h : Nat) : Option Nat :=
  if num (ik K.HEAD_INPUT h) = 1 ∧ num (ik K.HEAD_LINK h) = link ∧ num (ik K.SOURCE_ID h) ≤ id ∧
      id < num (ik K.SOURCE_ID h) + num (ik K.TAP_COUNT h) then some (id - num (ik K.SOURCE_ID h))
  else none

/-- A line that still takes data: its head, its tap, itself, and whether it was dropped (R193). -/
structure TapLine where
  head : Nat
  tap : Nat
  line : HeadLine
  ghost : Bool
deriving DecidableEq, Repr

/-- The oldest line of the lowest head, among those that still take data, whose own input values (R44) name a tap and for which `p`
holds of that tap. -/
def tapLine (c : Chan) (names : (Nat → Nat) → Nat → Option Nat) (p : Store → Nat → HeadLine → Nat → Bool) : Option TapLine :=
  (List.range 4).findSome? fun h =>
    let fits (l : HeadLine) : Bool :=
      let v := c.lineView l.desc
      l.trig && !l.closed && match names v.num h with
        | some t => p v h l t
        | none => false
    let found (ghost : Bool) (l : HeadLine) : Option TapLine := (names (c.lineView l.desc).num h).map fun t => ⟨h, t, l, ghost⟩
    match (c.head h).lines.find? fits, (c.head h).ghosts.find? fits with
    | some l, some g => if g.issued < l.issued then found true g else found false l
    | some l, none => found false l
    | none, some g => found true g
    | none, none => none

/-- A dropped line takes note of its tap: open or ended (R193). -/
def ghostTap (c : Chan) (x : TapLine) (y : TapRx) : Chan :=
  Chan.ghostsDone (c.modHead x.head fun q => { q with ghosts := q.ghosts.map fun l => if l == x.line then putTap l x.tap y else l }) x.head

/-! ## BuarnLink reception (R164-R169) -/

/-- The head a HEAD field and TAP name on a link, where configured (R169). -/
def blHead (c : Chan) (link hd tap : Nat) : Option Nat := (List.range 4).find? fun h => (blNames link hd tap c.n.num h).isSome

/-- The head that counts an unsolicited tap line (R169): the configured one, else the link's head of that HEAD field, else its lowest
head (log 1169). -/
def strayHead (c : Chan) (link hd tap : Nat) : Option Nat :=
  let on (h : Nat) : Bool := c.n.num (ik K.HEAD_INPUT h) == 2 && c.n.num (ik K.HEAD_LINK h) == link
  match c.blHead link hd tap with
  | some h => some h
  | none =>
    match (List.range 4).find? fun h => on h && c.n.num (ik K.SOURCE_ID h) == hd with
    | some h => some h
    | none => (List.range 4).find? on

/-- An unsolicited tap line (R169, R177), counted at head `h` where there is one. -/
def unsolicited (c : Chan) (h : Option Nat) : Chan :=
  let c := match h with | some h => c.mapN (·.inc (ik K.UNSOLICITED h)) | none => c
  c.mapN (·.setFlag K.INPUT_FLAGS 9)

/-- The tap line under way at a source is discarded to its end; it was counted once (R169, R177). -/
def skipTap (c : Chan) (k : Nat × Nat × Nat) : Chan := { c with input := { c.input with strays := k :: c.input.strays } }
/-- A tap line begins at a source, or a discarded one ends. -/
def keepTap (c : Chan) (k : Nat × Nat × Nat) : Chan := { c with input := { c.input with strays := c.input.strays.filter (· != k) } }

/-- Decode errors of a link (R162, R169). -/
def decodeErrors (c : Chan) (link count : Nat) : Chan :=
  if count = 0 then c else c.mapN fun n => (n.addE 32 K.DECODE_ERR link count).setFlag K.INPUT_FLAGS 1

/-- The first pixel of a line arrives, already in its open tap (R193): a full merge FIFO drops it whole. Its descriptor may then pass; its
data are discarded. -/
def firstPixel (c : Chan) (h : Nat) (l : HeadLine) : Chan × HeadLine :=
  if l.started then (c, l)
  else if (c.head h).inFifo < 2 then (c, { l with started := true })
  else
    let c := (c.mapN (·.setFlag K.INPUT_FLAGS 8)).modHead h fun x => { x with ghosts := x.ghosts ++ [{ l with started := true }] }
    c.loseLine h 5 { l with started := true }

/-- A CRC error of a tap line (R169, R177). -/
def crcFlag (c : Chan) : Chan := c.mapN (·.setFlag K.INPUT_FLAGS 7)

/-- Bit `i` up of packed bytes: the code of `b` bits at bit offset `o`. -/
def codeAt (bytes : List Nat) (o b : Nat) : Nat := field bytes (o / 8) 5 / 2 ^ (o % 8) % 2 ^ b

/-- The pixels of packed data blocks (R168). -/
def unpackPixels (fmt : Nat) (bytes : List Nat) : List (List Nat) :=
  let b := fmtBits fmt
  let q := fmtPlanes fmt
  (List.range (8 * bytes.length / (b * q))).map fun i => (List.range q).map fun p => codeAt bytes ((i * q + p) * b) b

/-- Lane FIFO overruns (R25, R194). -/
def laneOverruns (c : Chan) (lanes : List Nat) : Chan :=
  lanes.foldl (fun c l => c.mapN fun n => (n.addE 32 K.LANE_OVERRUN l 1).setFlag K.INPUT_FLAGS 3) c

/-- A tap line opens (R169): the same tap line still open closes as short; where it is the same line of the head, the new one takes its
place there. -/
def openTap (c : Chan) (names : (Nat → Nat) → Nat → Option Nat) (tag : Option Nat) : Chan :=
  let ends (h : Nat) (l : HeadLine) (t : Nat) : Bool :=
    let v := c.lineView l.desc
    (names v.num h == some t) && !(v.flag (ik K.LINK_TRIGGER h) && tag == some l.desc.num)
  (List.range 4).foldl (fun (c : Chan) h =>
    let closed (l : HeadLine) : HeadLine := (List.range 8).foldl (fun l t =>
      if ends h l t && (tapOf l t).isOpen then cutTap l t else l) l
    Chan.ghostsDone ((c.endOpenTaps h (ends h)).modHead h fun x => { x with ghosts := x.ghosts.map closed }) h) c

/-- A burst: LINE_START and the data blocks that followed it (R167-R169). `hd` and `tap` are the fields of byte 1. -/
def blBurst (c : Chan) (link hd tap : Nat) (first : Bool) (tag offset blocks : Nat) (data overrun : List Nat) : Chan :=
  let c := c.laneOverruns overrun
  let early : Bool := decide (data.length < 8 * (blocks + 1))
  let c := c.decodeErrors link (if early then 1 else cdiv data.length 8 - (blocks + 1))
  let data := data.take (8 * (blocks + 1))
  let names := blNames link hd tap
  let key := (link, hd, tap)
  let c := if first then (c.openTap names (some tag)).keepTap key else c
  if c.input.strays.contains key then c else
  match c.tapLine names fun v h l t => !(tapOf l t).ended && (!v.flag (ik K.LINK_TRIGGER h) || l.desc.num == tag) with
  | none => (c.unsolicited (c.strayHead link hd tap)).skipTap key
  | some ⟨_, t, l, true⟩ => c.ghostTap ⟨l.desc.head, t, l, true⟩ { tapOf l t with isOpen := true }
  | some ⟨h, t, l, false⟩ =>
    c.onLine h l.desc.num fun c l =>
      let x := tapOf l t
      let x : TapRx := if first && x.isOpen then { cut := true } else x
      let x := { x with isOpen := true, overrun := x.overrun || !overrun.isEmpty }
      if offset ≠ x.pixels.length then (c.crcFlag, putTap l t { x with crcErr := true })
      else
        let px := unpackPixels ((c.lineView l.desc).num (ik K.PIX_FORMAT h)) data
        let x := { x with pixels := x.pixels ++ px, crc := data.foldl (crcByte 0x82F63B78) x.crc, crcErr := x.crcErr || early }
        let c := if early then c.crcFlag else c
        let l := putTap l t x
        let (c, l) := if px.isEmpty then (c, l) else c.firstPixel h l
        if l.closed then (c, l) else c.warmLine h l

/-- LINE_END (R164, R169, R187): the pixel count may lie below what the fill of the last block unpacked to. -/
def blLineEnd (c : Chan) (link hd tap count crc : Nat) : Chan :=
  let key := (link, hd, tap)
  if c.input.strays.contains key then c.keepTap key else
  match c.tapLine (blNames link hd tap) fun _ _ l t => (tapOf l t).isOpen with
  | none => c.unsolicited (c.strayHead link hd tap)
  | some ⟨_, t, l, true⟩ => c.ghostTap ⟨l.desc.head, t, l, true⟩ { tapOf l t with isOpen := false, ended := true }
  | some ⟨h, t, l, false⟩ =>
    c.onLine h l.desc.num fun c l =>
      let x := tapOf l t
      let fmt := (c.lineView l.desc).num (ik K.PIX_FORMAT h)
      let fill : Bool := decide (count ≤ x.pixels.length) && decide ((x.pixels.length - count) * fmtBits fmt * fmtPlanes fmt < 64)
      let bad : Bool := !fill || Nat.xor x.crc 0xFFFFFFFF != crc
      let x := { x with isOpen := false, ended := true, pixels := if fill then x.pixels.take count else x.pixels, crcErr := x.crcErr || bad }
      let c := if bad then c.crcFlag else c
      c.closeIfDone h (putTap l t x)

/-- TRIGGER_ACK (R165). -/
def blTriggerAck (c : Chan) (link head : Nat) (overrun : Bool) (num delay : Nat) : Chan :=
  match c.tapLine (blNames link head 0) fun _ _ l _ => l.desc.num == num with
  | some ⟨h, _, _, false⟩ =>
    c.onLine h num fun c l =>
      let l := { l with desc := { l.desc with expoDelay := min 0xFE (delay / 8) } }
      if overrun then c.loseLine h 4 l else (c, l)
  | _ => c

/-- A new sensor temperature of head `h` (R187). -/
def newTemp (c : Chan) (h t : Nat) : Chan := c.modHead h fun x => { x with temp := some (t, c.n.mono) }

/-- TEMPERATURE status (R166). -/
def blTemperature (c : Chan) (link head t : Nat) : Chan :=
  match c.blHead link head 0 with
  | none => c
  | some h => c.newTemp h t

/-- SENSOR_TEMP_SET of a CoaXPress head (R187). -/
def sensorTempSet (c : Chan) (h v : Nat) : Chan :=
  let c := c.mapN (·.putN (ik K.SENSOR_TEMP_SET h) v)
  if c.n.num (ik K.HEAD_INPUT h) = 1 then c.newTemp h v else c

/-! ## Register access and control packets (R172, R179) -/

/-- The idle pair K28.5 D16.2 of the back-channel (R170). -/
def blIdle : List Nat := [0x1BC, 0x50]

/-- CRC-16/CCITT over `bytes` from FFFFh (R170). -/
def crc16 (bytes : List Nat) : Nat :=
  bytes.foldl (fun r x => (List.range 8).foldl (fun r i =>
    let top := r / 32768 % 2
    let r := 2 * r % 65536
    if (top + x / 2 ^ (7 - i)) % 2 = 1 then Nat.xor r 0x1021 else r) r) 0xFFFF

/-- A command frame: K27.7, CMD, LEN, payload, CRC-16 low byte first, K29.7 (R170). -/
def blFrame (cmd : Nat) (payload : List Nat) : List Nat :=
  let body := [cmd, payload.length] ++ payload
  [0x1FB] ++ body ++ leBytes 2 (crc16 body) ++ [0x1FD]

/-- A command frame goes out on the back-channel of a link. -/
def blSend (c : Chan) (link cmd : Nat) (payload : List Nat) : Chan := c.mapN (·.emit (.blChars link (blFrame cmd payload)))

/-- BL_REG_CMD written: BUSY while an access runs (R172, R194). -/
def regCommand (c : Chan) (v : Nat) : Except Nat Chan :=
  if c.n.num K.BL_REG_STATUS = 1 then .error 0
  else
    let link := c.n.num K.BL_REG_LINK
    let write : Bool := v == 2
    let tag := c.input.regTag % 256
    let c := { c with input := { c.input with reg := some { link := link, write := write, tag := tag, start := c.n.mono },
                                              regTag := wrap 8 (tag + 1) } }
    let c := c.mapN (·.putN K.BL_REG_STATUS 1)
    .ok (if write then c.blSend link 2 (tag :: leBytes 4 (c.n.num K.BL_REG_ADDR) ++ leBytes 4 (c.n.num K.BL_REG_DATA))
         else c.blSend link 3 (tag :: leBytes 4 (c.n.num K.BL_REG_ADDR)))

/-- An access ends with a status (R172, source 14). -/
def regEnd (c : Chan) (status : Nat) : Chan :=
  Chan.mapN { c with input := { c.input with reg := none } } fun n => (n.putN K.BL_REG_STATUS status).occur 14

/-- REG_DATA (R166). -/
def regData (c : Chan) (link tag value : Nat) : Chan :=
  match c.input.reg with
  | some r => if r.link = link ∧ r.tag = tag ∧ r.write = false then (c.mapN (·.putN K.BL_REG_DATA value)).regEnd 2 else c
  | none => c

/-- REG_ACK (R166). -/
def regAck (c : Chan) (link tag result : Nat) : Chan :=
  match c.input.reg with
  | some r => if r.link = link ∧ r.tag = tag ∧ r.write = true then c.regEnd (if result = 0 then 2 else 4) else c
  | none => c

/-- No answer within 10 ms (R172). -/
def regTimeout (c : Chan) : Chan :=
  match c.input.reg with
  | some r => if nsTicks 10000000 ≤ c.n.mono - r.start then c.regEnd 3 else c
  | none => c

/-- The occurrence of source 13 and the count that follow a change of the control queue (R179, R196). -/
def cxpCount (c : Chan) : Chan := c.mapN fun n => n.putFlags K.CXP_CTRL_RX_COUNT 0 c.input.cxp.length

/-- A received control, event or heartbeat packet (R179). -/
def cxpReceive (c : Chan) (link : Nat) (packet : List Nat) : Chan :=
  if c.input.cxp.length < 16 then
    Chan.cxpCount { c with input := { c.input with cxp := c.input.cxp ++ [(link, packet.take 1024)] } }
  else c.mapN (·.inc K.CXP_CTRL_RX_DROPS)

/-- CXP_CTRL_POP removes the oldest packet (R179). -/
def cxpPop (c : Chan) : Chan := Chan.cxpCount { c with input := { c.input with cxp := c.input.cxp.drop 1 } }

/-- CXP_CTRL_TX sends one control packet; length 0 sends nothing (R179). -/
def cxpSend (c : Chan) (packet : List Nat) : Chan :=
  if packet.isEmpty then c else c.mapN (·.emit (.cxp (c.n.num K.CXP_CTRL_LINK) packet))

/-! ## CoaXPress streams (R176, R177) -/

/-- The head a Stream ID names on a link, where configured. -/
def cxpHead (c : Chan) (link id : Nat) : Option Nat := (List.range 4).find? fun h => (cxpNames link id c.n.num h).isSome

/-- A stream packet of tap pixels, an image header or a line marker (R177). -/
def cxpStream (c : Chan) (link id : Nat) (u : StreamUnit) (crcOk : Bool) (overrun : List Nat) : Chan :=
  let c := c.laneOverruns overrun
  let heads : Bool := match u with | .header _ => true | _ => false
  let ends : Bool := match u with | .lineEnd => true | _ => false
  let key := (link, id, 0)
  let c := if heads then c.keepTap key else c
  if c.input.strays.contains key then (if ends then c.keepTap key else c) else
  match c.tapLine (cxpNames link id) fun _ _ l t => !(tapOf l t).ended with
  | none =>
    let c := c.unsolicited (c.cxpHead link id)
    if ends then c else c.skipTap key
  | some ⟨_, t, l, true⟩ => c.ghostTap ⟨l.desc.head, t, l, true⟩ { tapOf l t with isOpen := !ends, ended := ends }
  | some ⟨h, t, l, false⟩ =>
    c.onLine h l.desc.num fun c l =>
      let x := tapOf l t
      let x := { x with crcErr := x.crcErr || !crcOk, overrun := x.overrun || !overrun.isEmpty }
      let c := if crcOk then c else c.crcFlag
      match u with
      | .header fmt =>
        let l := putTap l t { x with isOpen := true }
        (c, if fmt = (c.lineView l.desc).num (ik K.PIX_FORMAT h) then l else { l with desc := { l.desc with formatErr := true } })
      | .pixels ps =>
        let l := putTap l t { x with isOpen := true, pixels := x.pixels ++ ps }
        let (c, l) := if ps.isEmpty then (c, l) else c.firstPixel h l
        if l.closed then (c, l) else c.warmLine h l
      | .lineEnd => c.closeIfDone h (putTap l t { x with isOpen := false, ended := true })

/-! ## Links (R173, R174, R195) -/

/-- The first lane of the link lane `l` belongs to. -/
def linkOf (c : Chan) (l : Nat) : Option Nat :=
  (List.range (l + 1)).find? fun f => decide (l < f + c.n.elem K.LK_LINK_WIDTH f)

/-- The lanes of a link. -/
def linkLanes (c : Chan) (f : Nat) : List Nat := (List.range (c.n.elem K.LK_LINK_WIDTH f)).map (f + ·)

/-- Lane `l`. -/
def lane (c : Chan) (l : Nat) : Lane := c.lanes.getD l {}
/-- Give lane `l` its state. -/
def putLane (c : Chan) (l : Nat) (x : Lane) : Chan := { c with lanes := listPut c.lanes l x }

/-- The heads a link carries. -/
def linkHeads (c : Chan) (f : Nat) : List Nat :=
  (List.range 4).filter fun h => c.n.num (ik K.HEAD_INPUT h) != 0 && c.n.num (ik K.HEAD_LINK h) == f

/-- A link goes to a state below UP: one that was UP sets LINK_DOWN and its open tap lines close as short (R174). -/
def linkFall (c : Chan) (f state : Nat) (alignLoss : Bool) : Chan :=
  let was := c.n.elem K.LK_LINK_STATE f
  let c := c.mapN (·.putE K.LK_LINK_STATE f state)
  let c := if alignLoss then c.mapN (·.addE 32 K.ALIGN_LOSS f 1) else c
  if was = 3 then
    let c := c.mapN (·.setFlag K.INPUT_FLAGS 0)
    let c := if alignLoss then c.mapN (·.setFlag K.INPUT_FLAGS 2) else c
    (List.range 4).foldl (fun c h => c.endOpenTaps h fun l _ =>
      let v := c.lineView l.desc
      v.num (ik K.HEAD_INPUT h) != 0 && v.num (ik K.HEAD_LINK h) == f) c
  else c

/-- A link reaches UP (R173 step 5, R195, source 1). -/
def linkRise (c : Chan) (f : Nat) : Chan := c.mapN fun n => (n.putE K.LK_LINK_STATE f 3).occur 1

/-- GEN of an ALIGN block a LANE_ROLE expects (R163, R194). -/
def alignGen (role : Nat) : Nat := role - 1

/-- The ALIGN blocks of one period on the lanes of a link: lane, width, gen, sequence and arrival in blocks (R161, R163, R173, R174). -/
def blAlign (c : Chan) (f : Nat) (bs : List AlignBlock) : Chan :=
  let w := c.n.elem K.LK_LINK_WIDTH f
  let lo := bs.foldl (fun m b => min m b.delay) ((bs.headD {}).delay)
  let hi := bs.foldl (fun m b => max m b.delay) 0
  let seqs : Bool := bs.all fun b => b.seq == (bs.headD {}).seq
  let shape : Bool := bs.length == w && w != 0 && (bs.mapIdx fun i b => b.lane == i && b.width == w &&
    b.gen == alignGen (c.n.elem K.LANE_ROLE f)).all id
  match c.n.elem K.LK_LINK_STATE f with
  | 2 =>
    if shape && seqs && decide (hi - lo ≤ 64) then
      let c := c.mapN fun n => bs.foldl (fun n b => n.putE K.LANE_SKEW (f + b.lane) (hi - b.delay)) n
      let c := c.linkRise f
      let c := { c with input := { c.input with skewed := listPut c.input.skewed f 0 } }
      (c.linkHeads f).foldl (fun c h => c.blSend f 4 [c.n.num (ik K.SOURCE_ID h)]) c
    else c.mapN (·.addE 32 K.ALIGN_LOSS f 1)
  | 3 =>
    let k := if seqs then 0 else c.input.skewed.getD f 0 + 1
    let c := { c with input := { c.input with skewed := listPut c.input.skewed f (if 2 ≤ k then 0 else k) } }
    if 2 ≤ k then c.linkFall f 2 true else c
  | _ => c

/-- A period slot without an ALIGN block on a lane of an UP link (R174). -/
def alignMissing (c : Chan) (f : Nat) : Chan := if c.n.elem K.LK_LINK_STATE f = 3 then c.linkFall f 2 true else c

/-- A BuarnLink link moves on from ACQUIRING once every lane is in block lock (R173 step 4). -/
def linkAcquire (c : Chan) (f : Nat) : Chan :=
  if c.n.elem K.LK_LINK_STATE f = 1 ∧ 2 ≤ c.n.elem K.LANE_ROLE f ∧ (c.linkLanes f).all (fun l => (c.lane l).blockLock) = true then
    c.mapN (·.putE K.LK_LINK_STATE f 2)
  else c

/-- Block lock of a locked lane (R173 step 3). -/
def blockLock (c : Chan) (l : Nat) : Chan :=
  if (c.lane l).cdr = true ∧ 2 ≤ c.n.elem K.LANE_ROLE l then
    let c := c.putLane l { c.lane l with blockLock := true }
    match c.linkOf l with
    | some f => c.linkAcquire f
    | none => c
  else c

/-- 16 invalid headers within 64 blocks (R174). -/
def blockLockLoss (c : Chan) (l : Nat) : Chan :=
  if (c.lane l).blockLock then
    let c := c.putLane l { c.lane l with blockLock := false }
    match c.linkOf l with
    | some f => if 2 ≤ c.n.elem K.LK_LINK_STATE f then c.linkFall f 1 false else c
    | none => c
  else c

/-- Lanes `f` to `f` + width - 1 form a link (R154): they have one role, a BuarnLink one its width and place, and no lane is under test
(R210). LANE_ROLE itself takes any roles; lanes that form no link stay DOWN (log 1154). -/
def linkLegal (c : Chan) (f : Nat) : Bool :=
  let w := c.n.elem K.LK_LINK_WIDTH f
  let r := c.n.elem K.LANE_ROLE f
  w != 0 && r != 0 && (c.linkLanes f).all (fun l => c.n.elem K.LANE_ROLE l == r && c.n.num (K.LANE_TEST + 256 * l) == 0) &&
    (r == 1 || ([1, 2, 4, 8].contains w && f % w == 0))

/-- A link starts its bring-up (R173 step 1): ACQUIRING, with idle on a BuarnLink back-channel, where its lanes form a link, else DOWN. -/
def linkStart (c : Chan) (f : Nat) : Chan :=
  if c.linkLegal f then
    let c := c.mapN (·.putE K.LK_LINK_STATE f 1)
    Chan.linkAcquire (if 2 ≤ c.n.elem K.LANE_ROLE f then c.mapN (·.emit (.blChars f blIdle)) else c) f
  else c.mapN (·.putE K.LK_LINK_STATE f 0)

/-- A lane of the channel loses its lock: its link returns to step 2 (R174). -/
def laneLost (c : Chan) (l : Nat) : Chan :=
  let c := c.putLane l { c.lane l with cdr := false, blockLock := false }
  match c.linkOf l with
  | some f => if c.n.elem K.LK_LINK_STATE f = 0 then c else c.linkFall f 1 false
  | none => c

/-- A CoaXPress link completes its link start (R195). -/
def cxpLinkUp (c : Chan) (f : Nat) : Chan :=
  if c.n.elem K.LK_LINK_STATE f = 1 ∧ c.n.elem K.LANE_ROLE f = 1 then c.linkRise f else c

/-- Whether widths name disjoint links in places R154 allows; a first lane without a role may yet become CoaXPress. -/
def widthsOk (ws roles : List Nat) : Bool :=
  (List.range 8).all fun f =>
    let w := ws.getD f 0
    w == 0 ||
      (decide (f + w ≤ 8) && ((List.range (w - 1)).all fun i => ws.getD (f + i + 1) 0 == 0) &&
        (roles.getD f 0 < 2 || ([1, 2, 4, 8].contains w && f % w == 0)))

/-! ## Aux port (R180-R182) -/

/-- Bit `b` of an AUX_SYNC value. -/
def syncBit (sync b : Nat) : Bool := sync / 2 ^ b % 2 == 1

/-- LVAL becomes active (R180): the pin goes to `level`, the active one by AUX_SYNC. -/
def auxStart (c : Chan) (level : Bool) : Chan :=
  let sync := c.n.num K.AUX_SYNC
  if c.n.flag K.AUX_ENABLE = true ∧ c.live = true ∧ c.deep = false ∧ c.input.aux.isNone = true ∧ level ≠ syncBit sync 1 then
    { c with input := { c.input with aux := some { pos := c.n.posn.pos, time := c.n.now, gen := c.n.gen, sync := sync,
                                                   bits := c.n.num K.AUX_BITS, len := c.n.num K.AUX_LENGTH, cls := c.n.num K.AUX_CLASS } } }
  else c

/-- The edges at which a sample is taken: those of the selected edge at which the selected DVAL and FVAL are active (R180). -/
def auxTaken (sync : Nat) (es : List AuxEdge) : List AuxEdge :=
  es.filter fun e => e.falling == syncBit sync 0 && (!syncBit sync 2 || e.dval != syncBit sync 4) &&
    (!syncBit sync 3 || e.fval != syncBit sync 5)

/-- The 32-byte header and the samples of an aux record (R181); a line that lost samples to a full AUX_FIFO is flagged SHORT (R25). -/
def auxRecord (a : AuxLine) (seq : Nat) (overran : Bool) (samples : List Nat) : List Nat :=
  let flags := b2n (overran || decide (samples.length < a.len)) + 2 * b2n (decide (a.len < samples.length))
  padMult 32 (leBytes 8 (pos64 a.pos) ++ leBytes 10 (time64 a.time) ++ leBytes 2 (min samples.length 65535) ++ leBytes 2 flags ++
    [a.cls, 0] ++ leBytes 4 a.gen ++ leBytes 4 seq ++ (padTo a.len (samples.map fun x => x % 2 ^ a.bits)).flatMap (leBytes 2))

/-- LVAL becomes inactive (the pin goes to `level`) after the PCLK edges `es`: the line is counted and answers its record where the ring
has room (R181, R182). An overrun of AUX_FIFO sets LANE_OVERRUN, as one of LANE_FIFO does, and AUX_ERR with AUX_LEN_ERR for the line it is in
(R25; DESIGN CHOICE, unsafe: log entry 1025). -/
def auxEnd (c : Chan) (level : Bool) (es : List AuxEdge) : Chan × Option (Nat × List Nat) :=
  match c.input.aux with
  | none => (c, none)
  | some a =>
    if level ≠ syncBit a.sync 1 then (c, none) else
    let taken := auxTaken a.sync es
    let overran := taken.any (·.full)
    let samples := (taken.filter (!·.full)).map (·.code)
    let rec_ := auxRecord a c.input.auxSeq overran samples
    let size := c.n.num K.AUX_RING_SIZE
    let wr := c.n.num K.AUX_RING_WR
    let bad : Bool := overran || decide (samples.length ≠ a.len)
    let c := { c with input := { c.input with aux := none, auxSeq := wrap 32 (c.input.auxSeq + 1) } }
    let c := c.mapN fun n =>
      let n := n.add 64 K.AUX_LINES 1
      let n := if overran then n.setFlag K.INPUT_FLAGS 3 else n
      if bad then (n.setFlag K.INPUT_FLAGS 12).inc K.AUX_LEN_ERR else n
    if size ≠ 0 ∧ rec_.length ≤ ringFree size wr (c.n.num K.AUX_RING_RD) 32 then
      (c.mapN (·.putN K.AUX_RING_WR ((wr + rec_.length) % size)), some (wr, rec_))
    else (c.mapN fun n => (n.setFlag K.INPUT_FLAGS 12).inc K.AUX_DROPS, none)

end Chan

end Sys2Proof.Machine
end

