-- ==== Sys2Proof/Machine/ExposureEngine.lean ====
section
/-!
DEFINITION. Chapter 09: white balance and the statistics tap, the exposure loop and its releases, the gain notice, illumination outputs and
monitors of a channel.
-/

namespace Sys2Proof.Machine

/-! ## Logarithms and powers of the control law (R283, R285) -/

/-- `n` fraction bits of the base-2 logarithm of `y / 2^62` in [1, 2), most significant first, added to `acc`. -/
def log2Frac : Nat → Nat → Nat → Nat
  | 0, _, acc => acc
  | k + 1, y, acc =>
    let z := y * y / 2 ^ 62
    if 2 ^ 63 ≤ z then log2Frac k (z / 2) (2 * acc + 1) else log2Frac k z (2 * acc)

/-- The base-2 logarithm in Q16.16 as the device computes it (R283); that of 0 is open. -/
def log2Q (x : Nat) : Int :=
  if x = 0 then Config.log2Zero else
    let k := Nat.log2 x
    let y := if k ≤ 62 then x * 2 ^ (62 - k) else x / 2 ^ (k - 62)
    let e : Int := ((k * 65536 + log2Frac 16 y 0 : Nat) : Int)
    let d := (Config.log2Delta x).val
    e + ((if x = 2 ^ k then min d 6 else d : Nat) : Int) - 3

/-- The constants 2^(2^-k), k = 1 to 16, in 2^-62. -/
def exp2Consts : List Nat := (List.range 16).foldl (fun l _ => l ++ [isqrt ((l.getLastD (2 ^ 63)) * 2 ^ 62)]) []

/-- 2^(f/65,536) for f < 65,536, in 2^-62. -/
def exp2Frac (f : Nat) : Nat :=
  (exp2Consts.mapIdx fun i k => (i, k)).foldl (fun a (i, k) => if bit f (15 - i) then a * k / 2 ^ 62 else a) (2 ^ 62)

/-- `a · 2^(d/65,536)` as numerator and denominator. -/
def scaled (a : Nat) (d : Int) : Nat × Nat :=
  let ip := clampI (-64) 64 (d / 65536)
  let f := exp2Frac (d % 65536).toNat
  if 0 ≤ ip then (a * f * 2 ^ ip.toNat, 2 ^ 62) else (a * f, 2 ^ 62 * 2 ^ (-ip).toNat)

/-- The multiple of `u` nearest to `n / d`, halves rounded up. -/
def roundTo (u : Nat) (q : Nat × Nat) : Nat := (2 * q.1 + q.2 * u) / (2 * q.2 * u) * u

/-- A quotient by 2^16 of the control law, its rounding left open. -/
def lawDiv (x : Int) : Int := if x % 65536 = 0 then x / 65536 else x / 65536 + (b2n (Config.roundUp x 65536) : Nat)

/-- One actuator of R285. -/
structure Actuator where
  cur : Nat
  lo : Nat
  hi : Nat
  unit : Nat := 1

/-- An actuator moves as far as its limit allows: its new value and what remains of the change (R285). -/
def Actuator.move (a : Actuator) (d : Int) : Nat × Int :=
  if d = 0 then (a.cur, 0) else
    let q := scaled a.cur d
    if 0 < d ∧ a.hi * q.2 < q.1 then (roundTo a.unit (a.hi, 1), d - (log2Q a.hi - log2Q a.cur))
    else if d < 0 ∧ q.1 < a.lo * q.2 then (roundTo a.unit (a.lo, 1), d - (log2Q a.lo - log2Q a.cur))
    else (roundTo a.unit q, 0)

/-- The actuators in the order given take the change, each what the ones before leave. -/
def moveAll : List Actuator → Int → List Nat
  | [], _ => []
  | a :: r, d => (a.move d).1 :: moveAll r (a.move d).2

/-! ## White balance and the statistics tap (R273-R276) -/

/-- One sample through the white-balance stage (R273). -/
def balance (wb w : Nat) : Nat :=
  if pxInv w || wb == 4096 then w else
    let z := (pxVal w * wb + 2048) / 4096
    if 65535 < z then px 65535 true (pxRepl w) false else px z (pxSat w) (pxRepl w) false

/-- One more in bin `b`; whether the bin is saturated. -/
def binAdd (hist : List Nat) (b : Nat) : List Nat × Bool :=
  let x := hist.getD b 0
  if 2 ^ 32 - 1 ≤ x then (hist, true) else (listPut hist b (x + 1), false)

/-- The zone of column `k` of a line of length `l` (R276). -/
def zoneOf (l k : Nat) : Nat := cdiv ((k + 1) * 64) (max 1 l) - 1

/-- A mean rounded as R276 says. -/
def meanOf (sum count : Nat) : Nat := if count = 0 then 0 else (sum + count / 2) / count

/-- The output period in PXCLK cycles (R278). -/
def pwmCycles (freq : Nat) : Nat := (2 * 1250000000 + freq) / (2 * max 1 freq)

namespace Chan

/-- The loop of head `h`. -/
def loop (c : Chan) (h : Nat) : HeadLoop := c.expo.loops.getD h {}
/-- Give head `h` its loop. -/
def putLoop (c : Chan) (h : Nat) (x : HeadLoop) : Chan := { c with expo := { c.expo with loops := listPut c.expo.loops h x } }
/-- Illumination output `i`. -/
def ill (c : Chan) (i : Nat) : IllOut := c.expo.ill.getD i {}
/-- Give output `i` its state. -/
def putIll (c : Chan) (i : Nat) (x : IllOut) : Chan := { c with expo := { c.expo with ill := listPut c.expo.ill i x } }
/-- Monitor `i`. -/
def mon (c : Chan) (i : Nat) : Lmon := c.expo.mons.getD i {}
/-- Give monitor `i` its state. -/
def putMon (c : Chan) (i : Nat) (x : Lmon) : Chan := { c with expo := { c.expo with mons := listPut c.expo.mons i x } }

/-- The head is trilinear. -/
def trilinear (v : Store) (h : Nat) : Bool := decide (0x11 ≤ v.num (ik K.PIX_FORMAT h))

/-- LOOP_STATE of a head. -/
def loopState (c : Chan) (h : Nat) (st : LoopState) : Chan :=
  let code := match st with | .off => 0 | .track => 1 | .wait => 2 | .dark => 3 | .fault => 4
  Chan.mapN (c.putLoop h { c.loop h with st := st, ePrev := if st = .track then 0 else (c.loop h).ePrev })
    (·.putN (ik K.LOOP_STATE h) code)

/-- The statistics of a line (R274-R277): `planes` after white balance, `excl` the exclusion marks. -/
def statTap (c : Chan) (h : Nat) (d : Desc) (planes : Planes) (excl : List (List Bool)) : Chan :=
  let v := c.viewIn 4 d.gen
  if d.num % 2 ^ v.num K.STAT_LINE_DECIM ≠ 0 then c else
    let g := (c.slate.stage 4).genIn d.gen
    let x := c.loop h
    let sg := tabGet {} x.stats g
    let first : Bool := sg.lines == 0
    let len := v.num (ik K.LINE_LENGTH h)
    let tagged := planes.mapIdx fun q p => p.mapIdx fun k w => (q, k, w, pxInv w || (excl.getD q []).getD k false)
    let all := tagged.flatten
    let kept := all.filter fun (_, _, _, e) => !e
    let (hist, clipped) := kept.foldl (fun (a, s) (q, _, w, _) => let (a, t) := binAdd a (1024 * q + pxVal w / 64); (a, s || t))
      (c.pubElems g (ik K.HIST h), false)
    let zone (e : Nat × Nat × Nat × Bool) : Nat := 64 * e.1 + zoneOf len e.2.1
    let counts := kept.foldl (fun a e => listPut a (zone e) (wrap 32 (a.getD (zone e) 0 + 1))) (c.pubElems g (ik K.ZONE_COUNT h))
    let sums := kept.foldl (fun a e => listPut a (zone e) (a.getD (zone e) 0 + pxVal e.2.2.1)) sg.sums
    let per (f : Nat × Nat × Nat × Bool → Bool) (q : Nat) : Nat := (all.filter fun e => e.1 == q && f e).length
    let c := (c.pubPut g (ik K.HIST h) hist).pubPut g (ik K.ZONE_COUNT h) counts
    let c := c.pubPut g (ik K.ZONE_MEAN h) ((sums.zip counts).map fun (s, n) => meanOf s n)
    let c := (List.range 3).foldl (fun c q =>
      ((c.pubAdd g 64 (ik K.STAT_SAMPLES h) q (per (fun e => !e.2.2.2) q)).pubAdd g 64 (ik K.STAT_SATURATED h) q
        (per (fun e => !e.2.2.2 && pxSat e.2.2.1) q)).pubAdd g 64 (ik K.STAT_EXCLUDED h) q (per (fun e => e.2.2.2) q)) c
    let c := c.pubInc g 32 (ik K.STAT_LINES h) 1
    let c := if first then c.pubPut g (ik K.STAT_POS_FIRST h) [pos64 d.pos] else c
    let c := c.pubPut g (ik K.STAT_POS_LAST h) [pos64 d.pos]
    let c := if clipped then c.mapN (·.setFlag K.STATS_FLAGS 0) else c
    c.putLoop h { x with stats := tabIns x.stats g { sums := sums, lines := sg.lines + 1, seen := if first then x.reached else sg.seen } }

/-- The snapshot of generation `g` of head `h` is published: the loop's copy, and the end of the wait (R277, R288). -/
def statPublish (c : Chan) (h g : Nat) : Chan :=
  let x := c.loop h
  let sg := tabGet {} x.stats g
  let c := c.putLoop h { x with stats := tabDel x.stats g, snap := some (g, sg) }
  if x.settling && decide (0 < sg.lines) && decide (x.released ≤ sg.seen) then
    let c := c.putLoop h { c.loop h with settling := false }
    if x.st = .wait then c.loopState h .track else c
  else c

/-! ## Releases (R287-R292) -/

/-- The outputs head `h` owns. -/
def owned (c : Chan) (h : Nat) : List Nat := (List.range 2).filter fun i => c.n.num (ik K.ILL_OWNER i) == h

/-- EXPO_MAX_EFF (R284), 0 for a head that is not active. -/
def expoMaxEff (v : Store) (h : Nat) : Nat :=
  let r := v.elem K.HEAD_RATE_MAX h
  if r = 0 then 0 else
    let u := max 1 (v.num (ik K.EXPO_UNIT h))
    min (v.num (ik K.EXPO_MAX h)) (1000000000 / r - v.num (ik K.EXPO_GUARD h)) / u * u

/-- The ratio of two products in Q8.24, rounded to nearest; open where it has no such value. -/
def ratioQ (c : Chan) (num den : Nat) : Chan × Nat :=
  let r := (2 * num * 16777216 + den) / (2 * max 1 den)
  if den = 0 ∨ 2 ^ 32 ≤ r then
    let (x, n) := c.n.takeFree 32
    ({ c with n := n }, x)
  else (c, r)

/-- A duty in force changes: the heads it lights beside its owner take a notice from their next trigger (R279, R292). -/
def setDuty (c : Chan) (i owner duty : Nat) : Chan :=
  let old := c.n.num (ik K.DUTY_NOW i)
  let c := c.mapN (·.putN (ik K.DUTY_NOW i) duty)
  if old = duty then c else
    (List.range 4).foldl (fun c h =>
      if h = owner ∨ bit (c.n.num (ik K.ILL_LIT i)) h = false then c else
        let (c, r) := c.ratioQ duty old
        let x := c.loop h
        c.putLoop h { x with rels := x.rels ++ [{ ordinal := x.released, nEff := wrap 16 ((c.head h).num + 1), ratio := [r, r, r],
                                                   lit := true, noticeOnly := true }] }) c

/-- A release joins those waiting for their effect line; one with the N_eff of an earlier one combines with it (R287). -/
def joinRelease (rs : List Release) (r : Release) : List Release :=
  if rs.any fun e => e.nEff == r.nEff && !e.awaited && !r.awaited && !e.noticeOnly then
    rs.map fun e => if e.nEff == r.nEff && !e.awaited && !e.noticeOnly then
      { r with ratio := (e.ratio.zip r.ratio).map fun (a, b) => (a * b + 2 ^ 23) / 2 ^ 24, duty := e.duty ++ r.duty } else e
  else rs ++ [r]

/-- The step to `vals` of head `h` is released (R287). -/
def release (c : Chan) (h : Nat) (vals : StepVals) : Chan :=
  let x := c.loop h
  let own := c.owned h
  let tri := trilinear c.n.objs h
  let dutyOf (l : List Nat) : Nat := own.foldl (fun p i => p * l.getD i 0) 1
  let oldDuty := (List.range 2).map fun i => (c.ill i).plan
  let wbOf (s : StepVals) (q : Nat) : Nat := if tri then s.wb.getD q 4096 else 1
  let (c, ratio) := (List.range 3).foldl (fun (c, l) q =>
    let (c, r) := Chan.ratioQ c (vals.expo * vals.gain * dutyOf vals.duty * wbOf vals q)
      (x.plan.expo * x.plan.gain * dutyOf oldDuty * wbOf x.plan q)
    (c, l ++ [r])) (c, [])
  let nEff := wrap 16 ((c.head h).num + 1 + c.n.num (ik K.EXPO_LEAD h))
  let link := c.n.num (ik K.HEAD_LINK h)
  let cxp : Bool := c.n.num (ik K.HEAD_INPUT h) == 1 && c.n.num (ik K.CXP_EXPO_ADDR h) != 0
  let bl : Bool := c.n.num (ik K.HEAD_INPUT h) == 2
  let ord := x.released + 1
  let rel : Release := { ordinal := ord, nEff := nEff, awaited := cxp, ratio := ratio, vals := vals,
                         duty := if c.active h then own.map fun i => (i, vals.duty.getD i 0) else [] }
  let send : ExpoSend := { cxp := cxp, trig := nEff, expo := vals.expo, gain := vals.gain, ordinal := ord, sends := 1, sent := c.n.mono }
  let c := c.putLoop h { x with plan := vals, pending := none, released := ord, settling := true, rels := joinRelease x.rels rel,
                                sends := if cxp || bl then x.sends ++ [send] else x.sends }
  let c := own.foldl (fun c i => c.putIll i { c.ill i with plan := vals.duty.getD i 0 }) c
  let c := if bl then c.blSend link 1 ([c.n.num (ik K.SOURCE_ID h), 0] ++ leBytes 2 nEff ++ leBytes 4 vals.expo ++ leBytes 2 vals.gain) else c
  let c := if cxp then
      let u := max 1 (c.n.num (ik K.EXPO_UNIT h))
      c.mapN (·.emit (.cxpWrite link (c.n.num (ik K.CXP_EXPO_ADDR h)) (roundTo 1 (vals.expo, u))))
    else c
  let c := c.mapN fun n => Node.occur (((n.put (ik K.STEP_RATIO h) ratio).putN (ik K.STEP_EFFECT_TRIG h) nEff).putN (ik K.STEP_GEN h) n.gen
    |>.inc (ik K.STEP_COUNT h)) 59
  let c := if x.st = .off ∨ x.st = .fault then c else c.loopState h .wait
  c.note (.entry 6 0 (c.globalHead h) c.n.ns (leBytes 4 c.n.gen ++ leBytes 2 nEff ++ zeros 2 ++ ratio.flatMap (leBytes 4) ++
    leBytes 4 vals.expo ++ leBytes 2 vals.gain ++ vals.wb.flatMap (leBytes 2) ++ vals.duty.flatMap (leBytes 4)))

/-- The values of the objects of R289. -/
def setVals (c : Chan) (h : Nat) : StepVals :=
  { expo := c.n.num (ik K.EXPO_SET h),
    gain := if c.n.num (ik K.HEAD_INPUT h) = 1 then 256 else c.n.num (ik K.GAIN_SET h),
    duty := (List.range 2).map fun i => if c.n.num (ik K.ILL_OWNER i) = h then c.n.num (ik K.DUTY_SET i) else (c.ill i).plan,
    wb := c.n.elems (ik K.WB_SET h) }

/-- What a commit does to the loop of head `h` (R287, R289, R291); `old` is the unit before it. -/
def loopCommit (old : Node) (h : Nat) (c : Chan) : Chan :=
  let x := c.loop h
  let on : Bool := c.active h && c.n.num (ik K.LOOP_MODE h) == 1
  let c := if on && x.st == .off then c.loopState h .track
           else if !on && x.st != .off then Chan.loopState (c.putLoop h { x with pending := none }) h .off else c
  let x := c.loop h
  let differ (k i : Nat) : Bool := old.elems (ik k i) != c.n.elems (ik k i)
  let changed : Bool := differ K.EXPO_SET h || differ K.GAIN_SET h || differ K.WB_SET h || (c.owned h).any (differ K.DUTY_SET)
  let sv := c.setVals h
  let now : StepVals := { x.plan with duty := (List.range 2).map fun i => (c.ill i).plan }
  if !c.active h then (if { sv with duty := now.duty } = now then c else c.release h { sv with duty := now.duty })
  else if !on then (if sv = now then c else c.release h sv)
  else if changed then
    let c := c.putLoop h { x with pending := none }
    if sv = now then (if x.st = .wait ∧ x.settling = false then c.loopState h .track else c) else c.release h sv
  else
    match x.pending with
    | some p => c.release h p
    | none => c

/-- An output that changes its owner, or whose owner issues no triggers, takes no duty of an earlier release any more: it stands at the duty
in force (R279). `old` is the unit before the commit. -/
def ownerCommit (old : Node) (c : Chan) : Chan :=
  (List.range 2).foldl (fun c i =>
    let o := c.n.num (ik K.ILL_OWNER i)
    if old.num (ik K.ILL_OWNER i) = o ∧ c.active o = true then c
    else
      let freed (x : HeadLoop) : HeadLoop := { x with rels := x.rels.map fun r => { r with duty := r.duty.filter (·.1 != i) } }
      let c : Chan := { c with expo := { c.expo with loops := c.expo.loops.map freed } }
      c.putIll i { c.ill i with plan := c.n.num (ik K.DUTY_NOW i) }) c

/-- What a commit does to the illumination outputs (R278, R279, R536). -/
def illCommit (c : Chan) : Chan :=
  (List.range 2).foldl (fun c i =>
    let o := c.n.num (ik K.ILL_OWNER i)
    let c := if o < 4 ∧ c.active o = true then c else
      let d := c.n.num (ik K.DUTY_SET i)
      Chan.setDuty (c.putIll i { c.ill i with plan := d }) i o d
    let x := c.ill i
    let c := if x.driven then c else c.putIll i { x with driven := true, lit := c.n.num (ik K.DUTY_NOW i) != 0 && !c.deep && !c.detached, start := c.n.mono,
                                                         duty := c.n.num (ik K.DUTY_NOW i) }
    let m := c.mon i
    if c.n.num (ik K.LMON_MODE i) = 2 then c.putMon i { m with gens := tabIns m.gens c.n.gen (tabGet {} m.gens c.n.gen) } else c) c

/-- The active heads of the generation in force, for the end of its statistics (R277). -/
def noteActive (c : Chan) : Chan :=
  let mask := (List.range 4).foldl (fun m h => if c.active h then m + 2 ^ h else m) 0
  { c with expo := { c.expo with acts := tabIns c.expo.acts c.n.gen mask } }

/-- The snapshot of generation `g` of head `h` is the last one of the heads active under `g` (R277): STAT_GEN and source 57. Where no head
was active, that of head 0 stands for all. -/
def statsAll (c : Chan) (h g : Nat) (done : Nat → Bool) : Chan :=
  match c.expo.acts.find? (·.1 == g) with
  | none => c
  | some (_, mask) =>
    let act := (List.range 4).filter (bit mask)
    if (act.contains h || (act.isEmpty && h == 0)) && act.all done then
      Chan.mapN { c with expo := { c.expo with acts := tabDel c.expo.acts g } } fun n => (n.putN K.STAT_GEN g).occur 57
    else c

/-- What a commit does to statistics and exposure (R287, R289). During Retake nothing is released (R287). -/
def exposureCommit (old : Node) (c : Chan) : Chan :=
  if c.replaying then c else ((List.range 4).foldl (fun c h => c.loopCommit old h) (c.noteActive.ownerCommit old)).illCommit

/-- Trigger number `n` is at or after `e` by the 16-bit signed difference (R287). -/
def numReached (n e : Nat) : Bool := decide (0 ≤ toSigned 16 (n + 65536 - e % 65536))

/-- A new period of an output starts (R278), dark in Retake (R368); a calibration run may force it dark (R512). -/
def illPeriod (c : Chan) (i : Nat) : Chan :=
  let d := c.n.num (ik K.DUTY_NOW i)
  let forced : Bool := match c.calHead with | some (h, dark) => dark && c.n.num (ik K.ILL_OWNER i) == h | none => false
  c.putIll i { c.ill i with lit := d != 0 && !forced && !c.detached, start := c.n.mono, duty := d }

/-- What follows the issue of a trigger of head `h`: duties (R287), synchronised periods (R278), monitor samples (R280). -/
def afterTrigger (c : Chan) (h : Nat) : Chan :=
  let num := (c.head h).num
  let due := (c.loop h).rels.filter fun r => !r.lit && !r.awaited && numReached num r.nEff
  let c := due.foldl (fun c r => r.duty.foldl (fun c (i, d) => c.setDuty i h d) c) c
  let x := c.loop h
  let c := c.putLoop h { x with rels := x.rels.map fun r => if !r.awaited && numReached num r.nEff then { r with lit := true } else r }
  (c.owned h).foldl (fun c i =>
    let c := if c.n.flag (ik K.ILL_SYNC i) = true ∧ (c.ill i).driven = true ∧ c.deep = false then c.illPeriod i else c
    let m := c.mon i
    let soon := match m.last with | some t => decide (c.n.mono - t < nsTicks 1000) | none => false
    if c.n.num (ik K.LMON_MODE i) = 2 ∧ soon = false then
      c.putMon i { m with due := m.due ++ [(c.n.mono + nsTicks (c.n.num (ik K.LMON_DELAY i)), c.n.gen)] }
    else c) c

/-- A line descriptor of trigger number `num` reaches the front end: releases whose effect line it is take effect. The notice ratio of the
line by plane, Q8.24 (R287, R292). -/
def effectLine (c : Chan) (h num : Nat) : Chan × List Nat :=
  let due := (c.loop h).rels.filter fun r => !r.awaited && numReached num r.nEff
  due.foldl (fun (c, acc) r =>
    let (c, gain) := ((c.loop h).gain.zip r.ratio).foldl (fun (c, l) (g, k) =>
      if g = 0 then
        let (x, n) := c.n.takeFree 64
        ({ c with n := n }, l ++ [x])
      else (c, l ++ [(g * k + 2 ^ 23) / 2 ^ 24])) (c, [])
    let x := c.loop h
    let c := c.putLoop h { x with gain := gain, rels := x.rels.filter (· != r), reached := if r.noticeOnly then x.reached else max x.reached r.ordinal }
    let c := if r.noticeOnly then c else
      c.mapN fun n => ((n.putN (ik K.EXPO_NOW h) r.vals.expo).putN (ik K.GAIN_NOW h) r.vals.gain).put (ik K.WB_NOW h) r.vals.wb
    (c, (acc.zip r.ratio).map fun (a, b) => (a * b + 2 ^ 23) / 2 ^ 24)) (c, List.replicate 3 (2 ^ 24))

/-- The white-balance stage over a line (R273). -/
def whiteBalance (c : Chan) (h : Nat) (v : Store) (planes : Planes) : Planes :=
  if trilinear v h then planes.mapIdx fun q p => p.map (balance (c.n.elem (ik K.WB_NOW h) q)) else planes

/-- The loop of head `h` enters FAULT (R290). A head whose loop is OFF stays OFF. -/
def loopFault (c : Chan) (h : Nat) : Chan :=
  let c := if (c.loop h).st = .off then c else Chan.loopState (c.putLoop h { c.loop h with pending := none }) h .fault
  c.mapN (·.setFlag K.STATS_FLAGS 5)

/-- LOOP_FAULT cleared: loops in FAULT return to TRACK (R290), and still wait for the settled snapshot of their last release (R288). -/
def loopFaultCleared (c : Chan) : Chan :=
  (List.range 4).foldl (fun c h =>
    if (c.loop h).st = .fault then c.loopState h .track else c) c

/-- An acknowledgement of EXPOSURE_SET (R166, R172): a result other than 0 is a failure. -/
def expoAck (c : Chan) (link head trig result : Nat) : Chan :=
  match c.blHead link head 0 with
  | none => c
  | some h =>
    let x := c.loop h
    match x.sends.find? fun s => !s.cxp && s.trig == trig with
    | none => c
    | some s =>
      let c := c.putLoop h { x with sends := x.sends.filter (· != s) }
      if result = 0 then c else Chan.loopFault (c.mapN (·.inc (ik K.EXPO_FAIL h))) h

/-- No EXPO_ACK within 1 ms: up to three resends, then failure (R172, R290). -/
def expoTimeout (c : Chan) (h : Nat) : Chan :=
  let x := c.loop h
  match x.sends.find? fun s => !s.cxp && decide (nsTicks 1000000 ≤ c.n.mono - s.sent) with
  | none => c
  | some s =>
    if s.sends < 4 then
      let c := c.putLoop h { x with sends := x.sends.map fun t => if t = s then { s with sends := s.sends + 1, sent := c.n.mono } else t }
      c.blSend (c.n.num (ik K.HEAD_LINK h)) 1
        ([c.n.num (ik K.SOURCE_ID h), 0] ++ leBytes 2 s.trig ++ leBytes 4 s.expo ++ leBytes 2 s.gain)
    else Chan.loopFault ((c.putLoop h { x with sends := x.sends.filter (· != s) }).mapN (·.inc (ik K.EXPO_FAIL h))) h

/-- The acknowledgement of a CoaXPress exposure write of head `h`: N_eff becomes the next trigger number + EXPO_LEAD (R287). -/
def cxpExpoAck (c : Chan) (h : Nat) : Chan :=
  let x := c.loop h
  match x.sends.find? (·.cxp) with
  | none => c
  | some s =>
    let nEff := wrap 16 ((c.head h).num + 1 + c.n.num (ik K.EXPO_LEAD h))
    Chan.mapN (c.putLoop h { x with
        sends := x.sends.filter (· != s),
        rels := x.rels.map fun r => if r.ordinal == s.ordinal && !r.noticeOnly then { r with awaited := false, nEff := nEff } else r })
      (·.putN (ik K.STEP_EFFECT_TRIG h) nEff)

/-- No acknowledgement of a CoaXPress exposure write within 10 ms: the notice stands, the loop enters FAULT (R290). -/
def cxpExpoTimeout (c : Chan) (h : Nat) : Chan :=
  let x := c.loop h
  match x.sends.find? fun s => s.cxp && decide (nsTicks 10000000 ≤ c.n.mono - s.sent) with
  | none => c
  | some s =>
    Chan.loopFault (c.putLoop h { x with
        sends := x.sends.filter (· != s),
        rels := x.rels.map fun r => if r.ordinal == s.ordinal && !r.noticeOnly then { r with awaited := false } else r }) h

/-- The trigger generator of head `h` in an ENCCLK cycle with the web position at `p`, with what follows a trigger (R120, R287). -/
def grid (c : Chan) (h : Nat) (p : Pos) : Chan :=
  let c' := c.gridPoint h p
  if (c'.head h).num = (c.head h).num then c' else c'.afterTrigger h

/-- The generator of head `h`, `cycle` ENCCLK cycles after the last time update (R120). -/
def gridIn (c : Chan) (h cycle : Nat) (p : Pos) : Chan :=
  let d := grid (c.mapN (·.later cycle)) h p
  d.mapN fun n => { n with now := c.n.now, mono := c.n.mono }

/-- An ACQUIRE trigger of head `h`, with what follows it (R145, R287). -/
def acquireLine (c : Chan) (h : Nat) : Chan :=
  let c' := c.acquire h
  if (c'.head h).num = (c.head h).num then c' else c'.afterTrigger h

/-! ## The control cycle (R281-R286) -/

/-- Sum and count of plane `q` over the zones of a set. -/
def zoneSum (c : Chan) (h q zones : Nat) (sg : StatGen) : Nat × Nat :=
  ((List.range 64).filter (bit zones)).foldl (fun (s, n) z =>
    (s + sg.sums.getD (64 * q + z) 0, n + c.n.elem (ik K.ZONE_COUNT h) (64 * q + z))) (0, 0)

/-- The percentile level (R282). -/
def percentile (hist : List Nat) (pct samples : Nat) : Nat :=
  let rec go : Nat → Nat → List Nat → Nat
    | b, _, [] => 64 * b + 32
    | b, acc, x :: r => if pct * samples ≤ (acc + x) * 256 then 64 * b + 32 else go (b + 1) (acc + x) r
  go 0 0 hist

/-- The change the law wants of level `m` in Q16.16 (R283): the state after it, and delta. -/
def lawDelta (c : Chan) (h m saturated samples : Nat) : Chan × Int :=
  let n := c.n
  let x := c.loop h
  let cap := n.sint 32 (ik K.LOOP_RATE_CAP h)
  let limit := n.num (ik K.SAT_LIMIT h)
  if limit ≠ 0 ∧ limit * samples < saturated * 65536 then
    (Chan.mapN (c.putLoop h { x with ePrev := 0 }) (·.setFlag K.STATS_FLAGS 3), clampI (-cap) cap (-(n.sint 32 (ik K.SAT_STEP h))))
  else
    let e := log2Q (n.num (ik K.LOOP_TARGET h)) - log2Q m
    let e := if (e.natAbs : Int) ≤ n.sint 32 (ik K.LOOP_DEADBAND h) then 0 else e
    let d := lawDiv (n.sint 32 (ik K.LOOP_KP h) * (e - x.ePrev) + n.sint 32 (ik K.LOOP_KI h) * e)
    (Chan.mapN (c.putLoop h { x with ePrev := e }) (·.putI 32 (ik K.LOOP_ERROR h) e), clampI (-cap) cap d)

/-- The white balance a cycle plans (R286). -/
def planWb (c : Chan) (h : Nat) (sg : StatGen) (wb : List Nat) : Chan × List Nat :=
  let n := c.n
  let zones := n.num (ik K.WB_ZONES h)
  if trilinear n.objs h = false ∨ n.num (ik K.WB_MODE h) ≠ 1 ∨ zones = 0 then (c, wb) else
    let mean (q : Nat) : Nat := let (s, k) := c.zoneSum h q zones sg; meanOf s k
    let cap := n.sint 32 (ik K.LOOP_RATE_CAP h)
    let lo := n.num (ik K.WB_MIN h)
    let hi := n.num (ik K.WB_MAX h)
    [0, 2].foldl (fun (c, wb) q =>
      if mean q = 0 ∨ mean 1 = 0 then (c, wb) else
        let step := clampI (-cap) cap (lawDiv (n.sint 32 (ik K.WB_KI h) * (log2Q (mean 1) - log2Q (mean q))))
        let w := roundTo 1 (scaled (n.elem (ik K.WB_NOW h) q) step)
        let c := if w < lo ∨ hi < w then c.mapN (·.setFlag K.STATS_FLAGS 6) else c
        (c, listPut wb q (max lo (min hi w)))) (c, wb)

/-- The step a cycle plans from the change wanted (R283, R285, R286). -/
def planStep (c : Chan) (h : Nat) (delta : Int) (sg : StatGen) : Chan :=
  let n := c.n
  let x := c.loop h
  let own := c.owned h
  let cxp : Bool := n.num (ik K.HEAD_INPUT h) == 1
  let expo : Actuator := { cur := x.plan.expo, lo := n.num (ik K.EXPO_MIN h), hi := expoMaxEff n.objs h, unit := max 1 (n.num (ik K.EXPO_UNIT h)) }
  let gain : Actuator := if cxp then { cur := 256, lo := 256, hi := 256 }
    else { cur := x.plan.gain, lo := n.num (ik K.GAIN_MIN h), hi := n.num (ik K.GAIN_MAX h) }
  let duties : List Actuator := own.map fun i => { cur := (c.ill i).plan, lo := n.num (ik K.DUTY_MIN i), hi := n.num (ik K.DUTY_MAX i) }
  let all := expo :: duties ++ (if cxp then [] else [gain])
  let gamma (f : Actuator → Nat) : Int := log2Q (all.foldl (fun p a => p * f a) (if cxp then 256 else 1))
  let now := gamma (·.cur)
  let hi := gamma (·.hi)
  let lo := gamma (·.lo)
  let want := now + delta
  let c := if hi < want then c.mapN (·.setFlag K.STATS_FLAGS 1) else c
  let want := if hi < want then hi else want
  let c := if want < lo then c.mapN (·.setFlag K.STATS_FLAGS 2) else c
  let want := if want < lo then lo else want
  let d := want - now
  let vs := if 0 ≤ d then moveAll all d else (moveAll all.reverse d).reverse
  let (c, wb) := c.planWb h sg x.plan.wb
  let duty := (List.range 2).map fun i => match own.findIdx? (· == i) with | some j => vs.getD (j + 1) 0 | none => (c.ill i).plan
  let vals : StepVals := { expo := vs.getD 0 0, gain := if cxp then 256 else vs.getD (own.length + 1) 256, duty := duty, wb := wb }
  let same : Bool := vals == { x.plan with duty := (List.range 2).map fun i => (c.ill i).plan, gain := if cxp then 256 else x.plan.gain }
  if same then
    (if x.pending.isSome then Chan.loopState (c.putLoop h { c.loop h with pending := none }) h .track else c)
  else Chan.loopState (c.putLoop h { c.loop h with pending := some vals }) h .wait

/-- One head's part of a control cycle (R281). -/
def loopCycle (c : Chan) (h : Nat) : Chan :=
  let n := c.n
  let x := c.loop h
  let q := b2n (trilinear n.objs h)
  let samples := n.elem (ik K.STAT_SAMPLES h) q
  let stale := c.mapN (·.inc K.CYCLES_STALE)
  match x.snap with
  | none => stale
  | some (g, sg) =>
    let mean : Bool := n.num (ik K.LOOP_MEASURE h) == 0
    if x.st = .fault ∨ x.settling = true ∨ samples = 0 ∨ x.used = some g ∨ (mean = true ∧ n.num (ik K.LOOP_ZONES h) = 0) then stale
    else
      let m := if mean then let (s, k) := c.zoneSum h q (n.num (ik K.LOOP_ZONES h)) sg; meanOf s k
               else percentile (((n.elems (ik K.HIST h)).drop (1024 * q)).take 1024) (n.num (ik K.LOOP_PCT h)) samples
      let c := Chan.mapN (c.putLoop h { x with used := some g }) (·.putN (ik K.LOOP_MEASURED h) m)
      if m < n.num (ik K.DARK_LEVEL h) then (c.loopState h .dark).mapN (·.setFlag K.STATS_FLAGS 4)
      else
        let c := if x.st = .dark then c.loopState h .track else c
        let (c, delta) := c.lawDelta h m (n.elem (ik K.STAT_SATURATED h) q) samples
        c.planStep h delta sg

/-- An EXPOSURE occurrence at the channel (R281): whether it was missed. -/
def exposureCycle (c : Chan) : Chan × Bool :=
  if c.expo.cycleStart = some c.n.mono ∨ c.n.mono < c.expo.cycleEnd then
    (c.mapN fun n => (n.inc K.CYCLES_MISSED).setFlag K.STATS_FLAGS 9, true)
  else
    let d := (Config.cycleTicks c.n.free).val
    let c := { c with expo := { c.expo with cycleStart := some c.n.mono, cycleEnd := c.n.mono + d } }
    let c := c.mapN fun n => Node.inc { n with free := n.free + 1 } K.CYCLES_RUN
    ((List.range 4).foldl (fun c h => if c.active h && c.n.num (ik K.LOOP_MODE h) == 1 then c.loopCycle h else c) c, false)

/-! ## Illumination and its monitor (R278-R280) -/

/-- A period boundary or the end of the duty of output `i` (R278). -/
def illStep (c : Chan) (i : Nat) : Chan :=
  let x := c.ill i
  if x.driven = false ∨ c.deep = true then c else
    let cyc := pwmCycles (c.n.num (ik K.ILL_FREQ i))
    let el := (c.n.mono - x.start) * 5
    if cyc * 262144 ≤ el ∧ c.n.flag (ik K.ILL_SYNC i) = false then c.illPeriod i
    else if x.lit = true ∧ x.duty < 65536 ∧ cyc * 262144 * x.duty ≤ el * 65536 then c.putIll i { x with lit := false }
    else c

/-- A monitor result is made (R280). -/
def lmonResult (c : Chan) (i : Nat) (a : LmonAcc) : Chan :=
  let total := 16 * a.sum
  let mean := total / max 1 a.count + (if total % max 1 a.count = 0 then 0 else b2n (Config.roundUp (total : Nat) a.count))
  let out : Bool := a.count != 0 && (decide (mean < 16 * c.n.num (ik K.LMON_LOW i)) || decide (16 * c.n.num (ik K.LMON_HIGH i) < mean))
  let c := c.mapN fun n =>
    let n := ((n.putN (ik K.LMON_MEAN i) mean).putN (ik K.LMON_MIN i) a.lo).putN (ik K.LMON_MAX i) a.hi
    Node.occur (((n.putN (ik K.LMON_COUNT i) a.count).putN (ik K.LMON_TIME i) (time64 a.first)).inc (ik K.LMON_RESULTS i)) 68
  if out then c.mapN fun n => (n.setFlag K.STATS_FLAGS (7 + i)).alarm (66 + i) else c

/-- One more sample of a result. -/
def lmonAdd (a : LmonAcc) (t : Ticks) (code : Nat) : LmonAcc :=
  if a.count = 0 then { count := 1, sum := code, lo := code, hi := code, first := t }
  else { a with count := a.count + 1, sum := a.sum + code, lo := min a.lo code, hi := max a.hi code }

/-- An LMON_BURST occurrence at input `i` (R145, R280): whether it was missed. -/
def lmonBurst (c : Chan) (i samples : Nat) : Chan × Bool :=
  if c.n.num (ik K.LMON_MODE i) ≠ 1 ∨ (c.mon i).burst.isSome = true then (c, true)
  else if samples = 0 then (c.lmonResult i {}, false)
  else (c.putMon i { c.mon i with burst := some (samples, c.n.mono), acc := {} }, false)

/-- A sample of the burst under way at input `i`, at 1 MS/s (R280). -/
def lmonBurstSample (c : Chan) (i code : Nat) : Chan :=
  let m := c.mon i
  match m.burst with
  | some (want, t0) =>
    if c.n.mono < t0 + nsTicks (1000 * m.acc.count) then c else
      let a := lmonAdd m.acc c.n.now code
      if want ≤ a.count then Chan.lmonResult (c.putMon i { m with burst := none, acc := {}, last := some c.n.mono }) i a
      else c.putMon i { m with acc := a, last := some c.n.mono }
  | none => c

/-- The converter takes a sample of input `i` (R280): one that a trigger of mode 2 called for, or one of a burst. -/
def lmonSample (c : Chan) (i code : Nat) : Chan :=
  let m := c.mon i
  let code := code % 4096
  match m.due with
  | (t, g) :: r =>
    if c.n.mono < t then c.lmonBurstSample i code else
      c.putMon i { m with due := r, last := some c.n.mono, gens := tabIns m.gens g (lmonAdd (tabGet {} m.gens g) c.n.now code) }
  | [] => c.lmonBurstSample i code

/-- The result of generation `g` of input `i` is published where LMON_MODE was 2 under it (R280). -/
def lmonPublish (c : Chan) (i g : Nat) : Chan :=
  let m := c.mon i
  match m.gens.find? (·.1 == g) with
  | some (_, a) => Chan.lmonResult (c.putMon i { m with gens := tabDel m.gens g }) i a
  | none => c

/-- The outputs go dark in Doze and Park, and start a new period at wake (R278). -/
def illSleep (c : Chan) : Chan := (List.range 2).foldl (fun c i => c.putIll i { c.ill i with lit := false }) c
def illWake (c : Chan) : Chan :=
  (List.range 2).foldl (fun c i => if (c.ill i).driven then c.illPeriod i else c) c

end Chan

end Sys2Proof.Machine
end

