-- ==== Sys2Proof/Machine/SegEngine.lean ====
section
/-!
DEFINITION. Chapter 10: background, candidates, labelling, closing, features, classification, records, history and crops of a channel.
-/

namespace Sys2Proof.Machine

/-! ## Pixels (R296-R299) -/

/-- The deviation of R297 and R325, in 1/16 σ. -/
def deviation (model : List Nat) (smin gain b v : Nat) : Int :=
  let eff : Int := max (smin : Int) ((noiseSigma model (b / 256) * gain + 128) / 256)
  clampI (-32767) 32767 (Int.tdiv (256 * (v : Int) - b) (max 1 eff))

/-- A background value scaled by a notice (step 1 of R296 and R324). -/
def scaleBg (nk : Nat) (x : Bg) : Bg := if x.on then { x with b := min ((x.b * nk + 2 ^ 23) / 2 ^ 24) (65535 * 256) } else x

/-- One step of the background towards a value (R296, R324). -/
def towards (b v shift : Nat) : Nat := ((b : Int) + (256 * (v : Int) - b) / (2 ^ shift : Nat)).toNat

/-- Steps 1 to 6 for one sample of one plane: the background, and what reached step 6: the deviation, or that the pixel did not (R296). -/
def bgSample (learn log2 : Nat) (dev : Nat → Nat → Int) (nk w : Nat) (x : Bg) : Bg × Option Int :=
  let x := scaleBg nk x
  let v := pxVal w
  if pxInv w then (x, none)
  else if pxSettling w || (!x.on && !pxSat w) then ({ b := 256 * v, on := true, learn := learn }, none)
  else if !x.on then (x, none)
  else if 0 < x.learn then ({ x with learn := x.learn - 1, b := if pxSat w then x.b else towards x.b v (min log2 2) }, none)
  else (x, some (dev x.b v))

/-- The selected one of the deviations of the planes: the plane, or of all the largest magnitude, the lower plane on a tie (R297, R325). -/
def selectDev (plane : Nat) (ds : List (Option Int)) : Option Int :=
  if plane = 3 then ds.foldl (fun m d => match m, d with
    | some a, some b => if (a.natAbs : Nat) < b.natAbs then some b else some a
    | none, x => x
    | x, none => x) none
  else ds.getD plane none

/-- One column of a line in segmentation. -/
structure SegPx where
  /-- 0 no candidate, 1 bright, 2 dark -/
  pol : Nat := 0
  seed : Bool := false
  dev : Int := 0
  sat : Bool := false
  repl : Bool := false
  notice : Bool := false
  /-- SETTLING, INVALID or learning (R307) -/
  bad : Bool := false

/-- The candidate class of a pixel (R298). -/
def candidate (v : Store) (sat : Bool) (d : Int) : Nat × Bool :=
  let sb : Int := v.num K.SEED_BRIGHT
  let sd : Int := v.num K.SEED_DARK
  let gb : Int := if v.num K.GROW_BRIGHT = 0 then sb else v.num K.GROW_BRIGHT
  let gd : Int := if v.num K.GROW_DARK = 0 then sd else v.num K.GROW_DARK
  if (v.flag K.SAT_AS_SEED && sat) || (sb != 0 && decide (sb ≤ d)) then (1, true)
  else if sd != 0 && decide (d ≤ -sd) then (2, true)
  else if sb != 0 && decide (gb ≤ d) then (1, false)
  else if sd != 0 && decide (d ≤ -gd) then (2, false)
  else (0, false)

/-- Frozen columns: a candidate of this or the previous line within the guard (R299). -/
def frozenAt (cand prev : List Bool) (guard n : Nat) : Bool :=
  (List.range (2 * guard + 1)).any fun i =>
    decide (guard ≤ n + i) && (cand.getD (n + i - guard) false || prev.getD (n + i - guard) false)

/-- A frozen column's count, whether it thaws, and whether it stays frozen (R299, R324). -/
def freezeStep (fmax fc : Nat) (fz : Bool) : Nat × Bool × Bool :=
  if fz then (if fmax != 0 && decide (fmax ≤ fc) then (0, true, false) else (fc + 1, false, true)) else (0, false, false)

/-! ## Labelling (R300-R306) -/

/-- A run of candidates of one polarity. -/
structure Run where
  dark : Bool
  lo : Nat
  hi : Nat

/-- The runs of a line, in ascending columns. -/
def runsOf (pols : List Nat) : List Run :=
  ((pols.mapIdx fun i p => (i, p)).foldl (fun (l : List Run) (i, p) =>
    if p = 0 then l else
      match l with
      | r :: rest => if r.hi + 1 = i ∧ r.dark = (p == 2) then { r with hi := i } :: rest else { dark := p == 2, lo := i, hi := i } :: l
      | [] => [{ dark := p == 2, lo := i, hi := i }]) []).reverse

/-- The labelling of a line in progress. -/
structure Labels where
  blobs : List Blob
  lab : List (Option Nat)
  cur : List (Option Nat)
  /-- labels of the line before the previous one -/
  lab2 : List (Option Nat) := []
  /-- where a piece of the previous line lives on after its split -/
  next : List (Nat × Nat) := []
  closed : List Blob := []
  /-- absorbed entries and their survivors' BLOB_IDs -/
  absorbed : List (Blob × Nat) := []
  nextUid : Nat
  counter : Nat
  splits : Nat := 0
  lostSeeds : Nat := 0
  lostPixels : Nat := 0
  lostRuns : List Run := []

/-- Insert an entry in ascending entry order. -/
def insBlob (b : Blob) : List Blob → List Blob
  | [] => [b]
  | x :: r => if b.slot < x.slot then b :: x :: r else x :: insBlob b r

/-- The lowest entry number not in use. -/
def freeSlot (n : Nat) : List Blob → Nat
  | [] => n
  | x :: r => if x.slot = n then freeSlot (n + 1) r else n

/-- The pixels of a run of line `k` added to a piece (R303). -/
def fillBlob (px : List SegPx) (w k lo hi : Nat) (b : Blob) : Blob :=
  let y := k - b.k0
  let b := (List.range (hi + 1 - lo)).foldl (fun b i =>
    let n := lo + i
    let p := px.getD n {}
    let e := b.area == 0
    { b with seeded := b.seeded || p.seed, sat := b.sat || p.sat, repl := b.repl || p.repl, gainStep := b.gainStep || p.notice,
             nMin := if e then n else min b.nMin n, nMax := if e then n else max b.nMax n, area := b.area + 1,
             devMin := if e then p.dev else min b.devMin p.dev, devMax := if e then p.dev else max b.devMax p.dev,
             sd := b.sd + p.dev, sx := b.sx + n, sy := b.sy + y, sxx := b.sxx + n * n, syy := b.syy + y * y, sxy := b.sxy + n * y }) b
  let b := if lo = 0 then { b with loFirst := if b.seamLo then b.loFirst else y, loLast := y, seamLo := true } else b
  let b := if hi + 1 = w then { b with hiFirst := if b.seamHi then b.hiFirst else y, hiLast := y, seamHi := true } else b
  { b with k1 := k }

/-- A piece with its first line moved `d` lines up (offsets grow by `d`). -/
def shiftBlob (d k0 : Nat) (y : Pos) (b : Blob) : Blob :=
  { b with k0 := k0, yFirst := y, sxy := b.sxy + d * b.sx, syy := b.syy + 2 * d * b.sy + d * d * b.area, sy := b.sy + d * b.area,
           loFirst := b.loFirst + d, loLast := b.loLast + d, hiFirst := b.hiFirst + d, hiLast := b.hiLast + d }

/-- The survivor takes in the other entry (R300). -/
def mergeBlob (s a : Blob) : Blob :=
  let k0 := min s.k0 a.k0
  let y := if a.k0 < s.k0 then a.yFirst else s.yFirst
  let s := shiftBlob (s.k0 - k0) k0 y s
  let a := shiftBlob (a.k0 - k0) k0 y a
  let pick (f : Blob → Nat) (op : Nat → Nat → Nat) : Nat := if a.area = 0 then f s else if s.area = 0 then f a else op (f s) (f a)
  let pickI (f : Blob → Int) (op : Int → Int → Int) : Int := if a.area = 0 then f s else if s.area = 0 then f a else op (f s) (f a)
  let seam (b : Blob → Bool) (f : Blob → Nat) (op : Nat → Nat → Nat) : Nat := if b a then (if b s then op (f s) (f a) else f a) else f s
  { s with
    seeded := s.seeded || a.seeded, ovf := s.ovf || a.ovf, sat := s.sat || a.sat, repl := s.repl || a.repl,
    gainStep := s.gainStep || a.gainStep, seamLo := s.seamLo || a.seamLo, seamHi := s.seamHi || a.seamHi,
    k1 := max s.k1 a.k1, nMin := pick (·.nMin) min, nMax := pick (·.nMax) max,
    devMin := pickI (·.devMin) min, devMax := pickI (·.devMax) max,
    area := s.area + a.area, perim := s.perim + a.perim, sd := s.sd + a.sd, sx := s.sx + a.sx, sy := s.sy + a.sy,
    sxx := s.sxx + a.sxx, syy := s.syy + a.syy, sxy := s.sxy + a.sxy,
    loFirst := seam (·.seamLo) (·.loFirst) min, loLast := seam (·.seamLo) (·.loLast) max,
    hiFirst := seam (·.seamHi) (·.hiFirst) min, hiLast := seam (·.seamHi) (·.hiLast) max }

namespace Labels

/-- A piece by its number. -/
def find (s : Labels) (u : Nat) : Option Blob := s.blobs.find? (·.uid == u)
/-- Change a piece. -/
def modify (s : Labels) (u : Nat) (f : Blob → Blob) : Labels := { s with blobs := s.blobs.map fun b => if b.uid == u then f b else b }

/-- A piece that spans SPLIT_LINES lines and receives pixels on line `k` is split (R305): the number of the piece that goes on. -/
def touch (k split : Nat) (y : Pos) (s : Labels) (u : Nat) : Labels × Nat :=
  match s.find u with
  | none => (s, u)
  | some b =>
    if b.k1 = k ∨ k - b.k0 < split then (s, u) else
      let v := s.nextUid
      let nb : Blob := { slot := b.slot, uid := v, id := b.id, piece := (b.piece + 1) % 256, dark := b.dark, seeded := b.seeded, contIn := true,
                         yFirst := y, k0 := k, k1 := k, nMin := 0, nMax := 0, devMin := 0, devMax := 0 }
      ({ s with blobs := s.blobs.map (fun x => if x.uid == u then nb else x), closed := s.closed ++ [{ b with contOut := true }],
                next := (u, v) :: s.next, nextUid := v + 1, splits := s.splits + 1 }, v)

/-- Entry `a` is absorbed by entry `u` (R300, R301). -/
def absorb (u a : Nat) (s : Labels) : Labels :=
  match s.find u, s.find a with
  | some x, some o =>
    let ren (l : List (Option Nat)) : List (Option Nat) := l.map fun e => if e == some a then some u else e
    let s := { s with blobs := s.blobs.filter (·.uid != a), lab := ren s.lab, cur := ren s.cur, lab2 := ren s.lab2,
                      next := s.next.map fun (p : Nat × Nat) => if p.2 = a then (p.1, u) else p,
                      absorbed := if o.piece = 0 then s.absorbed else s.absorbed ++ [(o, x.id)] }
    s.modify u fun x => mergeBlob x o
  | _, _ => s

/-- A run of line `k` joins the entries it touches (R300 steps 1 and 2); `false` where it touches none. -/
def join (px : List SegPx) (w k split : Nat) (y : Pos) (r : Run) (s : Labels) : Labels × Bool :=
  let us := ((List.range (r.hi + 3 - r.lo)).filterMap fun i =>
    if r.lo + i = 0 then none else
      match s.lab.getD (r.lo + i - 1) none with
      | none => none
      | some u =>
        let u := tabGet u s.next u
        match s.find u with
        | some b => if b.dark == r.dark then some u else none
        | none => none).eraseDups
  match us with
  | [] => (s, false)
  | _ :: _ =>
    let (s, us) := us.foldl (fun (s, l) u => let (s, v) := s.touch k split y u; (s, l ++ [v])) (s, [])
    let idOf (u : Nat) : Nat := match s.find u with | some b => b.id | none => 0
    let sv := us.foldl (fun m u => if genOrder (idOf m) (idOf u) < 0 then u else m) (us.headD 0)
    let s := us.foldl (fun s u => if u = sv then s else s.absorb sv u) s
    let s := s.modify sv (fillBlob px w k r.lo r.hi)
    ({ s with cur := s.cur.mapIdx fun n e => if r.lo ≤ n ∧ n ≤ r.hi then some sv else e }, true)

/-- A run that touches no entry takes a free one, or stays unlabelled (R300 step 3, R304). -/
def start (px : List SegPx) (w k : Nat) (y : Pos) (r : Run) (s : Labels) : Labels :=
  if 32768 ≤ s.blobs.length then
    let seeds := ((List.range (r.hi + 1 - r.lo)).filter fun i => (px.getD (r.lo + i) {}).seed).length
    { s with lostSeeds := s.lostSeeds + seeds, lostPixels := s.lostPixels + (r.hi + 1 - r.lo), lostRuns := s.lostRuns ++ [r] }
  else
    let u := s.nextUid
    let b : Blob := { slot := freeSlot 0 s.blobs, uid := u, id := s.counter, dark := r.dark, yFirst := y, k0 := k, k1 := k, nMin := 0, nMax := 0,
                      devMin := 0, devMax := 0 }
    { s with blobs := insBlob (fillBlob px w k r.lo r.hi b) s.blobs, nextUid := u + 1, counter := wrap 32 (s.counter + 1),
             cur := s.cur.mapIdx fun n e => if r.lo ≤ n ∧ n ≤ r.hi then some u else e }

end Labels

/-- The boundary pixels of the middle one of three lines that belong to piece `u` (R306). -/
def boundary (above line below : List (Option Nat)) (u : Nat) : Nat :=
  let w := line.length
  ((List.range w).filter fun n => line.getD n none == some u &&
    (n == 0 || n + 1 == w || line.getD (n - 1) none != some u || line.getD (n + 1) none != some u ||
      above.getD n none != some u || below.getD n none != some u)).length

/-! ## Features (R308, R310) -/

/-- Floor of the square root of `n < 2^256`. -/
def isqrtW (n : Nat) : Nat := isqrtAux n 128 0

/-- SIG_X and SIG_Y of R308 from the sum of squares, the sum, and the area. -/
def sigma (area ss s : Nat) : Nat := min 65535 ((isqrtW (1024 * (area * ss - s * s)) / max 1 area + 1) / 2)

/-- RHO of R308: halves rounded up. -/
def rho (area sxx sx syy sy sxy : Nat) : Int :=
  let d := (area * sxx - sx * sx) * (area * syy - sy * sy)
  let num : Int := (area * sxy : Nat) - (sx * sy : Nat)
  if d = 0 then 0 else
    let sq := (65534 * num.natAbs) * (65534 * num.natAbs)
    let t := isqrtW (sq / d)
    if 0 ≤ num then ((t + 1) / 2 : Nat)
    else 0 - (((if t * t * d = sq then t else t + 1) / 2 : Nat) : Int)

/-- LINES of a piece (R303). -/
def Blob.lines (b : Blob) : Nat := b.k1 + 1 - b.k0
/-- WIDTH_PX. -/
def Blob.widthPx (b : Blob) : Nat := b.nMax + 1 - b.nMin
/-- Y_LAST. -/
def Blob.yLast (b : Blob) (pOut : Nat) : Pos := b.yFirst + ((b.lines - 1) * pOut : Nat)
/-- DEV_MEAN. -/
def Blob.devMean (b : Blob) : Int := if b.area = 0 then 0 else rdivI b.sd b.area

/-- XW32 of column `n` in a view (R248). -/
def xw32 (v : Store) (n : Nat) : Int := pixelX v n / 1000

/-- Feature `code` of a piece (R310); `open_` is what stands where the spec states no value. -/
def feature (v : Store) (b : Blob) (open_ code : Nat) : Int :=
  let pOut := v.num K.OUT_PITCH
  let px := v.num K.XW_PITCH
  let perim := min 65535 b.perim
  let width : Int := xw32 v b.nMax - xw32 v b.nMin + (px / 1000 : Nat)
  let length : Int := ((b.lines - 1) * pOut : Nat) + (pOut : Int)
  let raw : Int := match code with
    | 1 => b.area
    | 2 => b.lines
    | 3 => b.widthPx
    | 4 => length
    | 5 => width
    | 6 => b.devMin
    | 7 => b.devMax
    | 8 => b.devMean
    | 9 => max b.devMin.natAbs b.devMax.natAbs
    | 10 => perim
    | 11 => (65536 * b.area / (b.lines * b.widthPx) : Nat)
    | 12 => (4096 * b.area / (max 1 (perim * perim)) : Nat)
    | 13 => if width = 0 then open_ else 256 * length / (1000 * width)
    | 14 => b2n b.seamLo + 2 * b2n b.seamHi
    | 15 => b2n b.sat + 2 * b2n b.repl
    | 16 => (v.sint 32 K.XW_ORIGIN * 1000 * b.area + (b.sx * px : Nat)) / (1000 * (max 1 b.area : Nat))
    | _ => 0
  min (2 ^ 31 - 1) raw

/-- A rule of the table matches (R309). -/
def ruleMatches (v : Store) (b : Blob) (open_ : Nat) (rule : List Nat) : Bool :=
  let ctrl := rule.getD 0 0
  bit ctrl 0 && bit ctrl (if b.dark then 2 else 1) &&
  (List.range 4).all fun j =>
    let code := rule.getD (4 + 10 * j) 0
    code == 0 ||
      (decide (toSigned 32 (field rule (6 + 10 * j) 4) ≤ feature v b open_ code) &&
       decide (feature v b open_ code ≤ toSigned 32 (field rule (10 + 10 * j) 4)))

/-- Class, severity, rule, and whether no rule matched (R309). -/
def classify (v : Store) (b : Blob) (open_ : Nat) : Nat × Nat × Nat × Bool :=
  let rules := v.elems K.RULES
  match (List.range 256).find? fun r => ruleMatches v b open_ (slice rules (48 * r) 48) with
  | some r => (slice rules (48 * r) 48 |>.getD 1 0 |> (· % 64), (slice rules (48 * r) 48).getD 2 0, r, false)
  | none => (v.num K.DEFAULT_CLASS, v.num K.DEFAULT_SEV, 0, true)

/-! ## Records (R312-R315) -/

/-- The seam keys of R315. -/
def keyLo (v : Store) : Int := (2 * pixelX v 0 - v.num K.XW_PITCH) / 2000
def keyHi (v : Store) : Int := (2 * pixelX v (v.num K.SWATH_WIDTH - 1) + v.num K.XW_PITCH) / 2000

/-- The FLAGS of a defect record but for ABSORBED, NO_RULE, CROP and CUE (R312). -/
def recFlags (b : Blob) : Nat :=
  8 * b2n b.repl + 16 * b2n b.sat + 32 * b2n b.gainStep + 64 * b2n b.ovf + 128 * b2n b.cut + 256 * b2n b.dark + 512 * b2n b.seamLo +
  1024 * b2n b.seamHi + 2048 * b2n b.contOut + 4096 * b2n b.contIn

/-- The defect record of a piece (R312). -/
def defectRec (v : Store) (gen : Nat) (b : Blob) (cls sev rule : Nat) (noRule : Bool) : List Nat :=
  let pOut := v.num K.OUT_PITCH
  let cen (s base n : Nat) : Nat := min 65535 (65536 * (2 * (s - b.area * base) + b.area) / (max 1 (2 * b.area * n)))
  let key : Nat := if b.seamLo then toBits 32 (keyLo v) else if b.seamHi then toBits 32 (keyHi v) else 0
  leBytes 4 gen ++ leBytes 4 b.id ++ leBytes 8 (pos64 b.yFirst) ++ leBytes 8 (pos64 (b.yLast pOut)) ++
  leBytes 4 (toBits 32 (xw32 v b.nMin)) ++ leBytes 4 (toBits 32 (xw32 v b.nMax)) ++ leBytes 4 (satN 32 b.area) ++
  leBytes 2 (cen b.sy 0 b.lines) ++ leBytes 2 (cen b.sx b.nMin b.widthPx) ++
  leBytes 2 (sigma b.area b.syy b.sy) ++ leBytes 2 (sigma b.area b.sxx b.sx) ++
  leBytes 2 (toBits 16 (rho b.area b.sxx b.sx b.syy b.sy b.sxy)) ++
  leBytes 2 (toBits 16 b.devMin) ++ leBytes 2 (toBits 16 b.devMax) ++ leBytes 2 (toBits 16 b.devMean) ++ leBytes 2 (min 65535 b.perim) ++
  [cls, sev] ++ leBytes 2 (recFlags b + 4 * b2n noRule) ++ [rule, b.piece] ++ leBytes 4 key

/-- The seam record of a piece (R313). -/
def seamRec (v : Store) (ch gen : Nat) (b : Blob) : List Nat :=
  let pOut := v.num K.OUT_PITCH
  let y (on : Bool) (o : Nat) : List Nat := leBytes 8 (if on then pos64 (b.yFirst + (o * pOut : Nat)) else 0)
  leBytes 4 gen ++ leBytes 4 b.id ++ y b.seamLo b.loFirst ++ y b.seamLo b.loLast ++ y b.seamHi b.hiFirst ++ y b.seamHi b.hiLast ++
  leBytes 4 (toBits 32 (keyLo v)) ++ leBytes 4 (toBits 32 (keyHi v)) ++ leBytes 4 pOut ++ leBytes 4 (v.num K.XW_PITCH) ++
  leBytes 2 (16384 + 256 * b2n b.dark + 512 * b2n b.seamLo + 1024 * b2n b.seamHi) ++ [ch, b.piece] ++ zeros 4

/-- The absorbed record of an entry (R301). -/
def absorbedRec (gen : Nat) (b : Blob) (survivor : Nat) : List Nat :=
  leBytes 4 gen ++ leBytes 4 b.id ++ zeros 48 ++ leBytes 2 (8192 + 256 * b2n b.dark) ++ [0, b.piece] ++ leBytes 4 survivor

/-- The overflow record of a line (R314). -/
def overflowRec (v : Store) (gen : Nat) (y : Pos) (s : Labels) : List Nat :=
  let first := (s.lostRuns.headD { dark := false, lo := 0, hi := 0 }).lo
  let last := s.lostRuns.foldl (fun m r => max m r.hi) 0
  leBytes 4 gen ++ zeros 4 ++ leBytes 8 (pos64 y) ++ leBytes 4 s.lostSeeds ++ leBytes 4 s.lostPixels ++ leBytes 4 s.lostRuns.length ++
  leBytes 4 (toBits 32 (xw32 v first)) ++ leBytes 4 (toBits 32 (xw32 v last)) ++ zeros 20 ++
  leBytes 2 (32768 + 512 * b2n (s.lostRuns.any fun r => !r.dark) + 256 * b2n (s.lostRuns.any (·.dark))) ++ zeros 6

/-- A progress record (R314). -/
def progressRec (gen : Nat) (y : Pos) (openNow : Nat) : List Nat :=
  leBytes 4 gen ++ zeros 4 ++ leBytes 8 (pos64 y) ++ leBytes 4 openNow ++ zeros 36 ++ leBytes 2 49152 ++ zeros 6

/-- The 128 bytes of an entry in a snapshot (R303). -/
def blobBytes (b : Blob) : List Nat :=
  leBytes 4 b.id ++ [b.piece, b2n b.seeded + 2 * b2n b.dark + 4 * b2n b.seamLo + 8 * b2n b.seamHi + 16 * b2n b.ovf + 32 * b2n b.sat +
    64 * b2n b.repl + 128 * b2n b.gainStep, 0, 0] ++ leBytes 8 (pos64 b.yFirst) ++ leBytes 4 b.lines ++ leBytes 4 b.nMin ++
  leBytes 4 b.nMax ++ leBytes 4 (satN 32 b.area) ++ leBytes 4 (satN 32 b.perim) ++ leBytes 2 (toBits 16 b.devMin) ++
  leBytes 2 (toBits 16 b.devMax) ++ leBytes 8 (toBits 64 b.sd) ++ leBytes 8 b.sx ++ leBytes 8 b.sy ++ leBytes 16 (b.sxx % 2 ^ 96) ++
  leBytes 16 (b.syy % 2 ^ 96) ++ leBytes 16 (b.sxy % 2 ^ 96) ++ leBytes 4 b.loFirst ++ leBytes 4 b.loLast ++ leBytes 4 b.hiFirst ++
  leBytes 4 b.hiLast

/-- The open entries as the table shows them: PERIM with the pixels of the last line that are boundary pixels whatever the next line brings
(R303, R306). -/
def Chan.openBlobs (c : Chan) : List Blob :=
  c.seg.blobs.map fun b => { b with perim := b.perim + boundary c.seg.lab2 c.seg.lab c.seg.lab b.uid }

/-- Insertion by a comparison: `le a b` puts `a` before `b`. -/
def insertBy {α : Type} (le : α → α → Bool) (a : α) : List α → List α
  | [] => [a]
  | x :: r => if le a x then a :: x :: r else x :: insertBy le a r

/-- A list put in order. -/
def sortBy {α : Type} (le : α → α → Bool) (l : List α) : List α := l.foldl (fun s a => insertBy (fun a b => le a b && !le b a) a s) []

/-- HIST_STRIDE (R320). -/
def histStride (v : Store) : Nat :=
  let s := v.num K.SWATH_WIDTH * swathPlanes v
  cdiv (2 * s + cdiv s 2) 64 * 64

/-- Four flag bits of each sample, two samples a byte, low nibble first (R320). -/
def packFlags : List Nat → List Nat
  | [] => []
  | [a] => [bits a 19 16]
  | a :: b :: r => (bits a 19 16 + 16 * bits b 19 16) :: packFlags r

/-- The bytes of a history line (R320). -/
def histBytes (stride : Nat) (planes : Planes) : List Nat :=
  let ws := interleave planes
  padTo stride (ws.flatMap (fun w => leBytes 2 (pxVal w)) ++ packFlags ws)

namespace Chan

/-- Change the segmentation state. -/
def modSeg (c : Chan) (f : Seg → Seg) : Chan := { c with seg := f c.seg }

/-- The length of the record queue as REC_QUEUED shows it. -/
def recQueued (c : Chan) : Chan := c.mapN (·.putN K.REC_QUEUED c.seg.queue.length)

/-- The Cue sheet may still resolve something: an output takes cues or an entry is occupied. -/
def striking (c : Chan) : Bool :=
  !c.stk.cues.isEmpty || (c.n.num K.STK_ENABLE != 0 && (List.range 4).any fun o => c.n.num (ik K.STK_MODE o) == 1 || c.n.num (ik K.STK_MODE o) == 3)

/-- The tentative resolution of an entry of the Cue sheet comes from the piece of record `no` (R338). -/
def tentOf (e : Cue) (no : Nat) : Bool := match e.tent with | some t => t.recNo == some no | none => false

/-- A record's bits are settled: no piece of its line waits for the Cue sheet, no tentative resolution of its own piece waits for the end
of its line (R338), and no crop is awaited. -/
def recSettled (c : Chan) (r : HeldRec) : Bool :=
  r.crop.isNone &&
    !(!c.replaying && c.striking && ((c.stk.hand.any fun p => p.line ≤ r.line) || c.stk.cues.any fun e => tentOf e r.no))

/-- Settled records enter the on-die queue in order; a record that finds it full is dropped (R317, R319). `fuel` bounds the number. -/
def settleRecords (c : Chan) : Nat → Chan
  | 0 => c
  | fuel + 1 =>
    match c.seg.held with
    | [] => c
    | r :: rest =>
      if c.recSettled r = false then c
      else if r.bytes.isEmpty then settleRecords (c.modSeg fun s => { s with held := rest }) fuel
      else
        let c := c.note (.item 4 0 (field r.bytes 0 4) r.bytes)
        if c.seg.queue.length < 4096 then
          settleRecords (Chan.recQueued (c.modSeg fun s => { s with held := rest, queue := s.queue ++ [(r.ring, r.bytes)] })) fuel
        else
          let drop := if r.seamFollows then 2 else 1
          let c := (rest.take (drop - 1)).foldl (fun c x => c.note (.item 4 0 (field x.bytes 0 4) x.bytes)) c
          let c := c.mapN fun n =>
            let n := if n.bitOf K.SEG_FLAGS 0 then n else n.alarm 74
            (n.add 32 K.REC_DROPS drop).setFlag K.SEG_FLAGS 0
          settleRecords (c.modSeg fun s => { s with held := rest.drop (drop - 1) }) fuel

/-- Settle all records that can be. -/
def settle (c : Chan) : Chan := c.settleRecords c.seg.held.length

/-- The record ring stage 6 has applied, and the one in force for an output line at `y` (R319). -/
def recRing (c : Chan) : RecRing :=
  let v := (c.slate.stage 6).base
  { no := c.seg.ringBase, addr := v.num K.REC_RING_ADDR, size := v.num K.REC_RING_SIZE }
def recRingAt (c : Chan) (y : Pos) : RecRing :=
  let st := c.slate.stage 6
  ((st.sets.filter fun s => decide (s.pos ≤ y)).foldl (fun (a : Store × RecRing) s =>
    let v := Store.overlay a.1 s.entries
    let addr := v.num K.REC_RING_ADDR
    let size := v.num K.REC_RING_SIZE
    (v, if addr = a.2.addr ∧ size = a.2.size then a.2 else { no := a.2.no + 1, addr := addr, size := size })) (st.base, c.recRing)).2

/-- A record is formed on closing line `line` (R312): its number. -/
def formRec (c : Chan) (line : Nat) (y : Pos) (bytes : List Nat) (seam : Bool) (crop : Option CropReq) : Chan × Nat :=
  let no := c.seg.nextNo
  (c.modSeg fun s => { s with nextNo := no + 1, held := s.held ++
    [{ no := no, line := line, bytes := bytes, seamFollows := seam, crop := crop, ring := c.recRingAt y }] }, no)

/-- Set a FLAGS bit (below 8) of a record that has not left. -/
def markRec (c : Chan) (no b : Nat) : Chan :=
  c.modSeg fun s => { s with held := s.held.map fun r =>
    if r.no = no then { r with bytes := if r.bytes.isEmpty then [] else listPut r.bytes 56 (setBit (r.bytes.getD 56 0) b) } else r }

/-- In Retake a record has CUE where the journal's events carry its BLOB_ID and PIECE (R368). -/
def journalCue (c : Chan) (no : Nat) (b : Blob) : Chan :=
  if c.replaying && c.rushes.retake.cued.contains (b.id, b.piece) then c.markRec no 0 else c

/-- What a closed piece or an absorbed entry leaves: its record and its hand-over (R301, R305-R311, R337). -/
def closePiece (c : Chan) (line : Nat) (y : Pos) (gen : Nat) (b : Blob) (survivor : Option Nat) : Chan × HandPiece :=
  let v := c.viewOut 5 y
  let pOut := v.num K.OUT_PITCH
  let hand : HandPiece := { dark := b.dark, cls := 0xFF, discarded := true, id := b.id, piece := b.piece, contOut := b.contOut, yFirst := b.yFirst,
                            yLast := b.yLast pOut, nMin := b.nMin, nMax := b.nMax, policy := 0, outPitch := pOut, line := line, lineEnd := false }
  match survivor with
  | some s =>
    let (c, no) := c.formRec line y (absorbedRec gen b s) false none
    let c := c.journalCue no b
    (c.pubInc gen 64 K.BLOBS_RECORDED 1, { hand with discarded := false, survivor := some s, recNo := some no })
  | none =>
    let seam : Bool := b.seamLo || b.seamHi
    if !b.seeded then (c.pubInc gen 32 K.GROW_ONLY 1, hand)
    else if b.piece == 0 && !b.contOut && !seam && decide (b.area < v.num K.MIN_AREA) then (c.pubInc gen 32 K.SMALL_DISCARDS 1, hand)
    else
      let (x, n) := c.n.takeFree 31
      let c := { c with n := n }
      let (cls, sev, rule, noRule) := classify v b x
      let ctrl := v.elem K.CLASS_CTRL cls
      let c := c.pubAdd gen 32 K.CLASS_COUNT cls 1
      let recd : Bool := bit ctrl 0 || seam || b.contIn || b.contOut
      let v6 := c.viewOut 6 y
      let margin := v6.num K.CROP_MARGIN
      let crop : Option CropReq := if bit ctrl 1 && v6.num K.HIST_LINES != 0 then
          some { gen := gen, id := b.id, piece := b.piece, yFirst := b.yFirst, yLast := b.yLast pOut, nMin := b.nMin, nMax := b.nMax,
                 cenLine := (2 * b.sy + b.area) / (max 1 (2 * b.area)), cenCol := (2 * b.sx + b.area) / (max 1 (2 * b.area)),
                 after := b.k1 + margin, margin := margin, maxLines := v6.num K.CROP_MAX_LINES, maxCols := v6.num K.CROP_MAX_COLS,
                 flags := v6.flag K.CROP_FLAGS, outPitch := pOut, width := v.num K.SWATH_WIDTH, planes := swathPlanes v,
                 origin := v.sint 32 K.XW_ORIGIN, xwPitch := v.num K.XW_PITCH }
        else none
      let bytes := if recd then defectRec v gen b cls sev rule noRule else []
      let c := if recd then c.pubInc gen 64 K.BLOBS_RECORDED 1 else c.pubInc gen 32 K.SUPPRESSED 1
      let (c, no) := if recd || crop.isSome then c.formRec line y bytes seam crop else (c, 0)
      let c := if recd then c.journalCue no b else c
      let c := if seam then (c.formRec line y (seamRec v c.num gen b) false none).1 else c
      let c := if recd && bit ctrl 2 then
          c.mapN fun n => Node.setFlag (if n.bitOf K.SEG_FLAGS 7 then n else n.alarm 81) K.SEG_FLAGS 7
        else c
      (c, { hand with cls := cls, discarded := false, policy := v.elem K.STK_CLASS_POLICY cls, recNo := if recd then some no else none })

/-- Pieces enter the hand-over queue of 256, the last one with the line-end flag (R337). -/
def handOver (c : Chan) (ps : List HandPiece) : Chan :=
  let n := ps.length
  (ps.mapIdx fun i p => { p with lineEnd := i + 1 == n }).foldl (fun c p =>
    if c.stk.hand.length < 256 then { c with stk := { c.stk with hand := c.stk.hand ++ [p] } }
    else c.pubInc c.n.gen 32 K.RES_DROPS 1) c

/-- The closings of line number `line` at `y`: overflow record, defect and absorbed records by BLOB_ID, hand-over (R317, R337). The count of
records formed. -/
def closeLinePieces (c : Chan) (line : Nat) (y : Pos) (gen : Nat) (closed : List Blob) (absorbed : List (Blob × Nat)) : Chan :=
  let all : List (Blob × Option Nat) := closed.map (fun b => (b, none)) ++ absorbed.map (fun p => (p.1, some p.2))
  let le (a b : Blob × Option Nat) : Bool :=
    let o := genOrder a.1.id b.1.id
    decide (0 < o) || (o == 0 && (decide (a.1.piece < b.1.piece) || (a.1.piece == b.1.piece && (a.2.isNone || b.2.isSome))))
  let (c, hs) := (sortBy le all).foldl (fun (c, hs) (b, s) => let (c, h) := Chan.closePiece c line y gen b s; (c, hs ++ [h])) (c, [])
  c.handOver hs

/-- SEG_ENABLE 0: every open entry closes at the last output line, CUT (R307). -/
def segFlush (c : Chan) : Chan :=
  match c.seg.lastLine with
  | none => c.modSeg fun s => { s with enabled := false, blobs := [] }
  | some (y, gen) =>
    let s := c.seg
    let closed := s.blobs.map fun b => { b with cut := true, perim := b.perim + boundary s.lab2 s.lab [] b.uid }
    let c := c.modSeg fun s => { s with enabled := false, blobs := [], lab := [], lab2 := [], pcand := [], pdark := [] }
    let c := c.mapN (·.putN K.OPEN_NOW 0)
    let before := c.seg.nextNo
    let c := c.closeLinePieces s.k y gen closed []
    Chan.settle (if c.seg.held.any fun r => decide (before ≤ r.no) && !r.bytes.isEmpty then c.modSeg fun s => { s with sinceRec := 0 } else c)

/-- Segmentation meets the commit of an in-flight set (R296, R307): SEG_ENABLE going to 0 closes the open entries, SEG_ENABLE going to 1
or a change of SEG_PLANE unsets the columns. -/
def segSee (c : Chan) (x : InFlight) : Chan :=
  match c.seg.seen with
  | none => c
  | some g =>
    if genLe x.gen g then c else
      let was := c.seg.enabled
      let on : Bool := match storeFind x.entries K.SEG_ENABLE with | some v => v.headD 0 == 1 | none => was
      let plane := match storeFind x.entries K.SEG_PLANE with | some v => v.headD 0 | none => c.seg.plane
      let c := if was && !on then c.segFlush else c
      c.modSeg fun s =>
        let s := { s with enabled := on, seen := some x.gen, bg := if plane = s.plane then s.bg else [], plane := plane }
        if on && !was then { s with bg := [], fc := [], pcand := [], pdark := [] } else s

/-! ## History and crops (R320) -/

/-- An output line enters the history ring. -/
def histWrite (c : Chan) (l : OutLine) : Chan :=
  let v := c.viewOut 6 l.y
  let lines := v.num K.HIST_LINES
  let stride := histStride v
  let cfg := [v.num K.HIST_ADDR, lines, stride]
  let s := c.seg
  let s := if s.histCfg = cfg then s else { s with hist := [], histSlot := 0, histCfg := cfg }
  if lines = 0 then { c with seg := { s with hist := [] } }
  else
    let slot := s.histSlot % lines
    let keep := s.hist.filter fun h => h.2 != slot
    let (c, st) := c.memStore 2 (v.num K.HIST_ADDR + slot * stride) (histBytes stride l.planes)
    { c with seg := { s with histSlot := (slot + 1) % lines, hist := if st = 0 then (l.y, slot) :: keep else keep } }

/-- The window `[lo, hi]`, or one of `size` places around `mid`, kept within `bound` where one is given; which of its two middle places is
the centre of an even size is open. -/
def centred (c : Chan) (mid size lo hi : Int) (bound : Option (Int × Int)) : Chan × Int × Int × Bool :=
  if hi - lo + 1 ≤ size then (c, lo, hi, false) else
    let (x, n) := if size % 2 = 0 then c.n.takeFree 1 else (0, c.n)
    let at_ := mid - size / 2 + x
    let at_ := match bound with | some (a, b) => clampI a (b + 1 - size) at_ | none => at_
    ({ c with n := n }, at_, at_ + size - 1, true)

/-- The lines of the history ring at the slots of `got`, read from memory. -/
def histRead (c : Chan) (got : List (Pos × Nat)) : Chan × List (List Nat) :=
  let addr := c.seg.histCfg.getD 0 0
  let stride := c.seg.histCfg.getD 2 0
  got.foldl (fun (a : Chan × List (List Nat)) h =>
    let (c, _, bs) := a.1.memLoad (addr + h.2 * stride) stride
    (c, a.2 ++ [bs])) (c, [])

/-- A crop is taken or dropped (R320); `only` names its first line and count in Retake (R368). -/
def takeCrop (c : Chan) (q : CropReq) (only : Option (Pos × Nat)) : Chan × Bool :=
  let v := (c.slate.stage 6).base
  let w : Int := q.width
  let planes := q.planes
  let p : Int := max 1 q.outPitch
  let m : Int := q.margin
  let rows : Int := (q.yLast - q.yFirst) / p
  let (c, top, bot, limL) := c.centred q.cenLine q.maxLines (-m) (rows + m) none
  let (c, left, right, limC) := c.centred q.cenCol q.maxCols (max 0 ((q.nMin : Int) - m)) (min (w - 1) (q.nMax + m)) (some (0, w - 1))
  let wantY : List Pos := match only with
    | some (y0, k) => (List.range k).map fun (i : Nat) => y0 + p * i
    | none => (List.range (bot + 1 - top).toNat).map fun (i : Nat) => q.yFirst + (top + i) * p
  let got := wantY.filterMap fun y => (c.seg.hist.find? (fun h => h.1 == y))
  let trunc : Bool := decide (got.length < wantY.length)
  let cols := (right + 1 - left).toNat
  let (c, lines) := c.histRead got
  let samples := (w * planes).toNat
  let vals := lines.flatMap fun l => slice l (2 * planes * left.toNat) (2 * planes * cols)
  let nib (l : List Nat) (i : Nat) : Nat := let b := l.getD (2 * samples + i / 2) 0; if i % 2 = 0 then b % 16 else b / 16
  let flags := if q.flags then lines.flatMap fun l =>
      packFlags ((List.range (cols * planes)).map fun i => nib l (left.toNat * planes + i) * 65536) else []
  let total := cdiv (64 + vals.length + flags.length) 64 * 64
  let head := leBytes 4 q.gen ++ leBytes 4 q.id ++ leBytes 8 (pos64 ((got.headD (q.yFirst, 0)).1)) ++
    leBytes 4 (toBits 32 ((q.origin * 1000 + (left.toNat * q.xwPitch : Nat)) / 1000)) ++ leBytes 4 got.length ++ leBytes 4 cols ++ leBytes 4 total ++ [planes, b2n trunc + 2 * b2n q.flags + 4 * b2n (limL || limC), q.piece, 0] ++
    leBytes 4 q.outPitch ++ leBytes 4 q.xwPitch ++ zeros 20
  let size := v.num K.CROP_RING_SIZE
  let wr := c.n.num K.CROP_WR
  let c := if trunc then c.mapN fun n => (n.inc K.CROP_TRUNCS).setFlag K.SEG_FLAGS 5 else c
  let outcome (c : Chan) (lines : Nat) : Chan :=
    c.note (.entry 0x0D 0 0xFF c.n.ns (leBytes 8 (pos64 q.yLast) ++ [2, q.piece, 0, 0] ++ leBytes 4 q.id ++
      leBytes 8 (pos64 ((got.headD (q.yFirst, 0)).1)) ++ leBytes 4 lines))
  if size ≠ 0 ∧ total ≤ ringFree size wr (c.n.num K.CROP_RD) 64 ∧ c.memUp = true ∧ (only.map (·.2)) ≠ some 0 then
    let c := (c.memStoreRing 2 (v.num K.CROP_RING_ADDR) size wr (padTo total (head ++ vals ++ flags))).1
    (outcome (c.mapN fun n => (n.putN K.CROP_WR (ringNext size wr total)).inc K.CROPS) got.length, true)
  else (outcome (c.mapN fun n => (n.inc K.CROP_DROPS).setFlag K.SEG_FLAGS 4) 0, false)

/-- What the journal says of a crop (R368). -/
def recordedCrop (c : Chan) (q : CropReq) : Option (Pos × Nat) :=
  (c.rushes.retake.crops.find? fun r => r.id == q.id && r.piece == q.piece).map fun r => (r.top, r.lines)

/-- Crops whose lines exist are taken; in Retake exactly as the journal records them (R320, R368). They wait for the memory. -/
def takeCrops (c : Chan) : Chan :=
  if c.memWaiting then c.settle else Chan.settle (c.seg.held.foldl (fun c r =>
    match r.crop with
    | some q =>
      let only := if c.replaying then c.recordedCrop q else none
      if c.seg.k ≤ q.after || (c.replaying && only.isNone) then c else
        let (c, ok) := if c.seg.histCfg.getD 1 0 = 0 then (c, false) else c.takeCrop q only
        let c := if ok then c.markRec r.no 1 else c
        c.modSeg fun s => { s with held := s.held.map fun x => if x.no = r.no then { x with crop := none } else x }
    | none => c) c)

/-- The image of an address range lies in channel memory (R303, R350). -/
def imageOk (c : Chan) (addr align size : Nat) : Bool := addr % align == 0 && decide (addr + size ≤ c.n.num K.MEM_CAPACITY)

/-- A requested snapshot of the open-blob table is taken (R303). -/
def openSnap (c : Chan) : Chan :=
  if c.seg.snapDue = false then c else
    let addr := c.n.num K.OPEN_SNAP_ADDR
    let c := c.modSeg fun s => { s with snapDue := false }
    if c.imageOk addr 128 (4 * 1048576) = true ∧ c.memUp = true then
      Chan.mapN (c.memStore 1 addr (c.openBlobs.flatMap blobBytes)).1 fun n =>
        Node.occur ((n.putN K.OPEN_SNAP_COUNT c.seg.blobs.length).putN K.OPEN_SNAP_STATUS 2) 82
    else c.mapN fun n => Node.occur (n.putN K.OPEN_SNAP_STATUS 3) 82

/-! ## One line (R296-R317) -/

/-- The backgrounds fit the swath; every column is unset where they do not (R296). -/
def bgFor (bg : List (List Bg)) (q w : Nat) : List (List Bg) :=
  if bg.length = q ∧ bg.all (·.length == w) = true then bg else List.replicate q (List.replicate w {})

/-- Backgrounds and candidates of a line (R296-R299): the new segmentation state, the columns, and the thaws. A thawed column updates even
under a candidate, for a stripe would else hold it for ever (DEDUCED from the last sentence of R299: log 1299). -/
def segPixels (v : Store) (l : OutLine) (s : Seg) : Seg × List SegPx × Nat :=
  let q := l.planes.length
  let w := (l.planes.headD []).length
  let plane := if q = 1 then 0 else v.num K.SEG_PLANE
  let bg := bgFor s.bg q w
  let learn := v.num K.BG_LEARN
  let log2 := v.num K.BG_LOG2
  let model := (List.range 4).map fun h => v.elems (ik K.NOISE_MODEL h)
  let dev (n : Nat) : Nat → Nat → Int :=
    let h := l.heads.getD n 8
    deviation (model.getD h []) (v.num K.SIGMA_MIN) (v.elem K.NOISE_GAIN h)
  let steps := (List.range q).map fun i => (List.range w).map fun n =>
    bgSample learn log2 (dev n) ((l.notice.getD i []).getD n (2 ^ 24)) ((l.planes.getD i []).getD n pxBad) ((bg.getD i []).getD n {})
  let word (i n : Nat) : Nat := (l.planes.getD i []).getD n pxBad
  let px := (List.range w).map fun n =>
    let ds := (List.range q).map fun i => ((steps.getD i []).getD n ({}, none)).2
    let sel := selectDev plane ds
    let all := List.range q
    let comp : List Nat := if plane = 3 then (List.range q).filter fun i => (ds.getD i none).isSome else [plane]
    let blind (i : Nat) : Bool :=
      (pxSat (word i n) || learn == 0) && !pxInv (word i n) && !pxSettling (word i n) && !((bg.getD i []).getD n {}).on
    let base : SegPx := { bad := all.any (fun i => (ds.getD i none).isNone && !blind i), sat := all.any fun i => pxSat (word i n), repl := all.any fun i => pxRepl (word i n),
                          notice := all.any fun i => (l.notice.getD i []).getD n (2 ^ 24) != 2 ^ 24 }
    match sel with
    | none => base
    | some d =>
      let (p, sd) := candidate v (comp.any fun i => pxSat (word i n)) d
      { base with pol := p, seed := sd, dev := d }
  let cand := px.map (·.pol != 0)
  let fz := (List.range w).map fun n => freezeStep (v.num K.BG_FREEZE_MAX) (s.fc.getD n 0) (frozenAt cand s.pcand (v.num K.BG_GUARD) n)
  let bg := steps.mapIdx fun i col => col.mapIdx fun n st =>
    let wd := word i n
    let (_, thaw, frozen) := fz.getD n (0, false, false)
    if st.2.isSome && (!cand.getD n false || thaw) && !pxSat wd && !frozen then { st.1 with b := towards st.1.b (pxVal wd) log2 } else st.1
  ({ s with bg := bg, fc := fz.map (·.1), pcand := cand, pdark := px.map (·.pol == 2) }, px, (fz.filter (·.2.1)).length)

/-- Labels, closings and records of a line (R300-R317). -/
def segLabel (c : Chan) (v : Store) (gen : Nat) (l : OutLine) (px : List SegPx) : Chan :=
  let s := c.seg
  let w := px.length
  let k := s.k
  let split := if v.num K.SPLIT_LINES = 0 then 65536 else v.num K.SPLIT_LINES
  let st : Labels := { blobs := s.blobs, lab := s.lab, cur := List.replicate w none, lab2 := s.lab2, nextUid := s.nextUid, counter := s.counter }
  let (st, fresh) := (runsOf (px.map (·.pol))).foldl (fun (st, fresh) r =>
    let (st, ok) := Labels.join px w k split l.y r st
    (st, if ok then fresh else fresh ++ [r])) (st, [])
  let st := fresh.foldl (fun st r => st.start px w k l.y r) st
  let edge (b : Blob) : Blob := { b with perim := b.perim + boundary st.lab2 st.lab st.cur b.uid }
  let lossy : Bool := !st.lostRuns.isEmpty
  let mark (b : Blob) : Blob := if lossy then { b with ovf := true } else b
  let blobs := st.blobs.map fun b => mark (edge b)
  let ended := blobs.filter fun b => b.k1 != k
  let live := blobs.filter fun b => b.k1 == k
  let cutOf (b : Blob) : Blob :=
    { b with cut := (List.range (b.nMax + 3 - b.nMin)).any fun i => decide (1 ≤ b.nMin + i) && (px.getD (b.nMin + i - 1) {}).bad }
  let closed := ((st.closed.map fun b => mark (edge b)) ++ ended).map cutOf
  let was := c.n.num K.OPEN_NOW
  let now := live.length
  let c := c.modSeg fun s => { s with blobs := live, lab := st.cur, lab2 := st.lab, nextUid := st.nextUid, counter := st.counter,
                                      k := k + 1, lastLine := some (l.y, gen) }
  let c := c.mapN fun n => (n.putN K.OPEN_NOW now).putN K.SEG_LAST_POS (pos64 l.y)
  let c := c.pubPut gen K.OPEN_PEAK [max now ((c.pubElems gen K.OPEN_PEAK).headD 0)]
  let high := c.n.num K.OPEN_HIGH_N
  let c := if high ≠ 0 ∧ was < high ∧ high ≤ now then c.mapN (·.setFlag K.SEG_FLAGS 2) else c
  let c := if st.splits = 0 then c else (c.pubInc gen 32 K.SPLITS st.splits).mapN (·.setFlag K.SEG_FLAGS 3)
  let c := if lossy then
      let c := (c.pubInc gen 32 K.OVERFLOW_LINES 1).pubInc gen 64 K.OVERFLOW_SEEDS st.lostSeeds
      let c := c.mapN fun n => Node.setFlag (if n.bitOf K.SEG_FLAGS 1 then n else n.alarm 75) K.SEG_FLAGS 1
      (c.formRec k l.y (overflowRec v gen l.y st) false none).1
    else c
  let before := c.seg.nextNo
  let c := c.closeLinePieces k l.y gen closed st.absorbed
  let any : Bool := lossy || (c.seg.held.any fun r => decide (before ≤ r.no) && !r.bytes.isEmpty)
  let since := if any then 0 else c.seg.sinceRec + 1
  let pl := v.num K.PROGRESS_LINES
  let c := if pl ≠ 0 ∧ pl ≤ since then (c.formRec k l.y (progressRec gen l.y now) false none).1 else c
  c.modSeg fun s => { s with sinceRec := if pl != 0 && decide (pl ≤ since) then 0 else since }

/-- Segmentation has met every commit whose Slate position is not above `y`. -/
def segSync (c : Chan) (y : Pos) (gen : Nat) (v : Store) : Chan :=
  match c.seg.seen with
  | none => c.modSeg fun s => { s with enabled := v.flag K.SEG_ENABLE, plane := v.num K.SEG_PLANE, seen := some gen, bg := [] }
  | some _ => ((c.slate.stage 5).sets.filter fun x => decide (x.pos ≤ y)).foldl segSee c

/-- Segmentation takes the next output line (R296-R317, R320, R303). -/
def segLine (c : Chan) : Chan :=
  match c.geo.out with
  | [] => c
  | l :: rest =>
    let c := { c with geo := { c.geo with out := rest } }
    let v := c.viewOut 5 l.y
    let gen := (c.slate.stage 5).genOut l.y
    let c := (c.segSync l.y gen v).histWrite l
    let c := c.note (.item 3 0 ((c.slate.stage 3).genOut l.y) ((interleave l.planes).flatMap (leBytes 4)))
    let c := if c.seg.enabled then
        let (s, px, thaws) := segPixels v l c.seg
        let c := { c with seg := s }
        let c := if thaws = 0 then c else (c.pubInc gen 32 K.BG_THAWS thaws).mapN (·.setFlag K.SEG_FLAGS 6)
        c.segLabel v gen l px
      else c.modSeg fun s => { s with k := s.k + 1 }
    Chan.openSnap (c.settle.takeCrops)

/-! ## The record ring (R318, R319) -/

/-- The ring switches once no record formed for the old one waits (R319): to that of the oldest record that waits, or to the one stage 6 has
applied; never back. -/
def recSwitch (c : Chan) : Chan :=
  let waiting := c.seg.queue.map (·.1) ++ (c.seg.held.filter fun r => !r.bytes.isEmpty).map (·.ring)
  let target : RecRing := match waiting with
    | r :: _ => if r.size = 0 then c.recRing else r
    | [] => c.recRing
  if target.no ≤ c.seg.ring.no then c else
    Chan.mapN (c.modSeg fun s => { s with ring := target }) fun n => (n.putN K.REC_WR 0).putN K.REC_RD 0

/-- Stage 6 has applied a set; `old` is its configuration before. -/
def recApply (c : Chan) (old : Store) : Chan :=
  let v := (c.slate.stage 6).base
  let same : Bool := [K.REC_RING_ADDR, K.REC_RING_SIZE].all fun k => v.num k == old.num k
  Chan.recSwitch (if same then c else c.modSeg fun s => { s with ringBase := s.ringBase + 1 })

/-- Channel source 73 is raised (R319). -/
def recIrq (c : Chan) : Chan := Chan.mapN (c.modSeg fun s => { s with irqCount := 0, irqFirst := none }) (·.occur 73)

/-- The oldest queued record goes to the ring once it has room (R318). -/
def recWrite (c : Chan) : Chan :=
  let c := c.recSwitch
  match c.seg.queue with
  | [] => c
  | (_, bs) :: rest =>
    let size := c.seg.ring.size
    if ringRoom c.n.fn.silent size (c.n.num K.REC_WR) (c.n.num K.REC_RD) 64 = false ∨ c.n.fn.busMaster = false then c else
      let c := c.modSeg fun s => { s with queue := rest, irqCount := s.irqCount + 1,
                                          irqFirst := match s.irqFirst with | some t => some t | none => some c.n.mono }
      let c := c.mapN fun n => (n.ringPut c.seg.ring.addr size ((c.slate.stage 6).base.num K.REC_WB_ADDR) K.REC_WR bs).add 64 K.REC_WRITTEN 1
      let c := c.recQueued.recSwitch
      let irq := c.n.num K.REC_IRQ_N
      if irq ≠ 0 ∧ irq ≤ c.seg.irqCount then c.recIrq else c

/-- REC_IRQ_TIME after an unsignalled record (R319). -/
def recIrqTime (c : Chan) : Chan :=
  let t := c.n.num K.REC_IRQ_TIME
  match c.seg.irqFirst with
  | some t0 => if t ≠ 0 ∧ nsTicks t ≤ c.n.mono - t0 then c.recIrq else c
  | none => c

end Chan

end Sys2Proof.Machine
end

