-- ==== Sys2Proof/Machine/CueEngine.lean ====
section
/-!
DEFINITION. Chapter 11: the provisional detectors, the Cue sheet, the strike pins, relays and the provisional event queue of a channel.
-/

namespace Sys2Proof.Machine

/-! ## Provisional detector (R324-R328) -/

/-- Runs of hits of one line: the column and polarity of each decisive pixel (R326). 0 no hit, 1 bright, 2 dark. -/
def decisive (minRun : Nat) (hits : List Nat) : List (Nat × Bool) :=
  ((hits.mapIdx fun i p => (i, p)).foldl (fun (acc : List (Nat × Bool) × Nat × Nat) (i, p) =>
    let (out, q, n) := acc
    let n := if p = 0 then 0 else if p = q then n + 1 else 1
    (if p ≠ 0 ∧ n = minRun then out ++ [(i, p == 2)] else out, p, n)) ([], 0, 0)).1

/-- The covered swath pixel nearest to a column, the lowest on a tie (R327). -/
def nearestPixel (cov : List (Option Int)) (col : Nat) : Option Nat :=
  ((cov.mapIdx fun n o => (n, o)).foldl (fun (best : Option (Nat × Nat)) (n, o) =>
    match o with
    | none => best
    | some u =>
      let d := ((u + 32768) / 65536 - (col : Int)).natAbs
      match best with
      | some (m, e) => if d < e then some (n, d) else some (m, e)
      | none => some (n, d)) none).map (·.1)

namespace Chan

/-- The position copy has reached `x` by the signed 64-bit difference (R332). -/
def posReached (c : Chan) (x : Pos) : Bool := decide (0 ≤ toSigned 64 (toBits 64 (c.n.posn.pos - x)))

/-- Change the strike path. -/
def modStk (c : Chan) (f : Strike → Strike) : Chan := { c with stk := f c.stk }

/-- Count one provisional counter of output `o` (R352). -/
def cueCount (c : Chan) (i o : Nat) : Chan := c.pubAdd c.n.gen 32 (0x852000 + i) o 1

/-! ## Events (R348, R349) -/

/-- The CUE_FLAGS of an event (R348). -/
def cueFlags (e : Cue) (late : Bool) : Nat :=
  e.out + 4 * b2n e.dark + 8 * b2n e.multi + 16 * b2n (late || e.late) + 32 * b2n e.relayed + 64 * b2n e.bound.isSome

/-- Device time as the Cue sheet has it, in ns: that of the journal while the channel replays one (R368). -/
def cueNs (c : Chan) : Nat := if c.replaying then c.rushes.retake.time else c.n.ns

/-- The occurrence and counts of an event written to the ring or dropped at once (R349), and its journal entry (R356). -/
def cueEvent (c : Chan) (e : Cue) (code : Nat) (pos : Pos) (detail cls : Nat) (late : Bool) (piece : Nat) : Chan :=
  let bytes := leBytes 8 (pos64 pos) ++ leBytes 8 c.cueNs ++ leBytes 4 e.id ++ leBytes 4 detail ++ [code, cueFlags e late, cls, e.head] ++
    leBytes 4 e.gen
  let c := c.note (.entry 7 0 e.head c.n.ns (bytes ++ [piece] ++ zeros 7))
  let size := c.n.num K.PQ_RING_SIZE
  if ringRoom c.n.fn.silent size (c.n.num K.PQ_WR) (c.n.num K.PQ_RD) 32 = true ∧ c.n.fn.busMaster = true then
    let c := c.mapN fun n => n.ringPut (n.num K.PQ_RING_ADDR) size (n.num K.PQ_WB_ADDR) K.PQ_WR bytes
    let c := c.modStk fun s => { s with irqCount := s.irqCount + 1 }
    let irq := c.n.num K.PQ_IRQ_N
    if irq ≠ 0 ∧ irq ≤ c.stk.irqCount then Chan.mapN (c.modStk fun s => { s with irqCount := 0 }) (·.occur 97) else c
  else c.mapN fun n => (n.inc K.PQ_DROPS).setFlag K.STK_FLAGS 0

/-- An event at the channel's position, without detail. -/
def cueNow (c : Chan) (e : Cue) (code : Nat) (late : Bool) : Chan := c.cueEvent e code c.n.posn.pos 0 0xFF late 0xFF

/-! ## Entries (R333, R334) -/

/-- Insert in ascending entry number. -/
def insCue (e : Cue) : List Cue → List Cue
  | [] => [e]
  | x :: r => if e.slot < x.slot then e :: x :: r else x :: insCue e r

/-- The lowest entry number not in use. -/
def cueSlot (n : Nat) : List Cue → Nat
  | [] => n
  | x :: r => if x.slot = n then cueSlot (n + 1) r else n

/-- CUES_NOW, its peak and CUE_HIGH after a change (R333). -/
def cuesNow (c : Chan) : Chan :=
  let was := c.n.num K.CUES_NOW
  let now := c.stk.cues.length
  let high := c.n.num K.CUE_HIGH_N
  let c := c.mapN (·.putN K.CUES_NOW now)
  let c := c.pubPut c.n.gen K.CUES_PEAK [max now ((c.pubElems c.n.gen K.CUES_PEAK).headD 0)]
  if high ≠ 0 ∧ was < high ∧ high ≤ now then c.mapN (·.setFlag K.STK_FLAGS 2) else c

/-- Entry number `s`. -/
def cue (c : Chan) (s : Nat) : Option Cue := c.stk.cues.find? (·.slot == s)
/-- Give an entry its state. -/
def putCue (c : Chan) (e : Cue) : Chan := c.modStk fun t => { t with cues := t.cues.map fun x => if x.slot == e.slot then e else x }
/-- An entry is freed. -/
def freeCue (c : Chan) (s : Nat) : Chan := Chan.cuesNow (c.modStk fun t => { t with cues := t.cues.filter (·.slot != s) })

/-! ## Pins (R335, R336, R593) -/

/-- Strike pin `o`. -/
def stkPin (c : Chan) (o : Nat) : StkPin := c.stk.pins.getD o {}
/-- Give strike pin `o` its state. -/
def putStkPin (c : Chan) (o : Nat) (p : StkPin) : Chan := c.modStk fun t => { t with pins := listPut t.pins o p }

/-- Whether strike pin `o` is at its active level; none where the pin does not drive (R335, R344, R535). -/
def strikeLevel (c : Chan) (o : Nat) : Option Bool :=
  let p := c.stkPin o
  if p.driven then some (p.active && !c.detached) else none

/-- A pulse of `width` ns on output `o` for the position `pos` (R335). In Retake it is counted as in service, and the pin holds its inactive
level (R344, `strikeLevel`). -/
def strikeDrive (c : Chan) (o width : Nat) (pos : Pos) : Chan :=
  let p := c.stkPin o
  if p.driven = false then c else
    let c := c.mapN fun n => (n.inc (ik K.STK_PULSES o)).putN (ik K.STK_LAST_FIRE o) (pos64 pos)
    let c := if p.active then c.mapN fun n => (n.inc (ik K.STK_OVERLAP o)).setFlag K.STK_FLAGS 8 else c
    c.putStkPin o { p with active := true, till := c.n.mono + nsTicks width }

/-- STK_WIDTH after the last assertion the pin goes back (R335); it then drives the polarity in force (R593). -/
def strikeEnd (c : Chan) (o : Nat) : Chan :=
  let p := c.stkPin o
  if p.active = true ∧ p.till ≤ c.n.mono then c.putStkPin o { p with active := false, pol := c.n.num (ik K.STK_POLARITY o) } else c

/-- A fire of an entry on its own pin at `pos`. -/
def strikeFire (c : Chan) (e : Cue) (pos : Pos) : Chan := c.strikeDrive e.out e.width pos

/-- A relay of an entry's event where its output sends relays (R346), with the decisive position `y`. -/
def cueRelayAt (c : Chan) (e : Cue) (kind : Nat) (y : Pos) : Chan := if e.relayTx then c.signal (.relay kind e.out e.id y) else c

/-- A relay with the decisive position of which the entry's F was formed (R330, R346): a merge never moves it (R331). -/
def cueRelay (c : Chan) (e : Cue) (kind : Nat) : Chan := c.cueRelayAt e kind (e.f - (e.lead : Nat))

/-- The recall pulse of an entry: R335 applied to its target, for the entry's F, which in immediate mode is its Y_d (R336). -/
def recallPulse (c : Chan) (e : Cue) (late : Bool) : Chan :=
  if e.recallOut = 0xFF then c else
    let c := (c.strikeDrive e.recallOut e.recallWidth e.f).cueNow e 8 late
    ((c.cueCount 0x0C e.out).mapN (·.occur 105)).cueRelay e 3

/-- A relayed entry that fired is kept for a RECALL relay (R347). -/
def firedRelay (c : Chan) (e : Cue) : Chan :=
  match e.srcId with
  | some _ => c.modStk fun t => { t with firedRelays := (e :: t.firedRelays).take 2048 }
  | none => c

/-! ## Horizon, fire and resolve limit (R334) -/

/-- The horizon of an entry: its late policy (R334). -/
def cueHorizon (c : Chan) (e : Cue) (late : Bool) : Chan :=
  if e.hold then ((c.putCue { e with st := .withheld }).cueNow e 6 late).cueCount 7 e.out
  else ((c.putCue { e with st := .committed }).cueNow e 5 late).cueRelay e 1

/-- The fire of a CONFIRMED or COMMITTED entry (R334). -/
def cueFire (c : Chan) (e : Cue) (late : Bool) : Chan :=
  let c := c.strikeFire e e.f
  let c := c.cueEvent e 7 e.f 0 0xFF late 0xFF
  if e.st = .confirmed then
    let c := c.cueCount 5 e.out
    let c := if e.recalled then c.recallPulse e late else c
    (c.firedRelay e).freeCue e.slot
  else
    let c := (c.cueCount 6 e.out).mapN (·.setFlag K.STK_FLAGS 4)
    if e.recalled then (c.recallPulse e late).freeCue e.slot else c.putCue { e with st := .firedOpen }

/-- A resolution takes effect (R334, R338). -/
def cueResolve (c : Chan) (e : Cue) (t : Tentative) : Chan :=
  let c := match t.recNo with | some no => if c.replaying then c else c.markRec no 0 | none => c
  let e := { e with tent := none, resolved := true }
  let c := c.putCue e
  let ev (c : Chan) (code : Nat) (late : Bool) : Chan := c.cueEvent e code c.n.posn.pos t.id t.cls late t.piece
  match t.confirm, e.st with
  | true, .provisional => ((ev (c.putCue { e with st := .confirmed }) 3 false).cueCount 3 e.out).cueRelay e 1
  | true, .committed => ((ev (c.putCue { e with st := .confirmed }) 3 true).cueCount 3 e.out).cueRelay e 1
  | true, .firedOpen => ((ev c 3 true).cueCount 3 e.out).freeCue e.slot
  | true, .withheld =>
    (((c.cueEvent e 9 c.n.posn.pos 0 t.cls false t.piece).cueCount 8 e.out).mapN (·.setFlag K.STK_FLAGS 5)).freeCue e.slot
  | true, .confirmed => c
  | false, .committed => ((ev (c.putCue { e with recalled := true }) 4 true).cueCount 4 e.out).cueRelay e 3
  | false, .firedOpen => ((ev (c.recallPulse e false) 4 false).cueCount 4 e.out).freeCue e.slot
  | false, .provisional => ((ev c 4 false).cueCount 4 e.out).freeCue e.slot
  | false, .withheld => ((ev c 4 false).cueCount 4 e.out).freeCue e.slot
  | false, .confirmed => c

/-- The closing line ends in the Cue sheet: every tentative resolution takes effect (R338). -/
def cueLineEnd (c : Chan) : Chan :=
  let c := c.modStk fun t => { t with line := t.line.map fun (k, _) => (k, true) }
  Chan.settle (c.stk.cues.foldl (fun c e => match e.tent with | some t => c.cueResolve e t | none => c) c)

/-- The entry's tentative resolution, and with it its line, ends just before its event (R338). -/
def beforeEvent (c : Chan) (e : Cue) : Chan := if e.tent.isSome then c.cueLineEnd else c

/-- A horizon due at an entry. -/
def dueHorizon (c : Chan) (s : Nat) : Chan :=
  match c.cue s with
  | some e =>
    if e.st = .provisional ∧ c.posReached e.z = true then
      let c := c.beforeEvent e
      match c.cue s with
      | some e => if e.st = .provisional then c.cueHorizon e c.n.posn.stepped else c
      | none => c
    else c
  | none => c

/-- A fire due at an entry, its horizon first (R334). -/
def dueFire (c : Chan) (s : Nat) : Chan :=
  match c.cue s with
  | some e =>
    if c.posReached e.f then
      let c := c.dueHorizon s
      match c.cue s with
      | some e =>
        if e.st = .confirmed ∨ e.st = .committed then
          let c := c.beforeEvent e
          match c.cue s with
          | some e => if e.st = .confirmed ∨ e.st = .committed then c.cueFire e c.n.posn.stepped else c
          | none => c
        else c
      | none => c
    else c
  | none => c

/-- A resolve limit due at an entry. -/
def dueLimit (c : Chan) (s : Nat) : Chan :=
  match c.cue s with
  | some e =>
    if (e.st = .firedOpen ∨ e.st = .withheld) ∧ c.posReached (e.yHi + (e.resolveMax : Nat)) = true then
      let c := c.beforeEvent e
      match c.cue s with
      | some e => (((c.cueNow e 0x0A false).cueCount 9 e.out).mapN (·.setFlag K.STK_FLAGS 6)).freeCue s
      | none => c
    else c
  | none => c

/-- Every entry, in ascending entry number. -/
def allCues (c : Chan) (f : Chan → Nat → Chan) : Chan := (c.stk.cues.map (·.slot)).foldl f c

/-! ## Insertion (R329-R333) -/

/-- A detection on a line. -/
structure Detection where
  head : Nat
  dark : Bool
  y : Pos
  n : Nat
  gen : Nat

/-- Where a new entry goes, or that there is none (R333). -/
def takeEntry (c : Chan) (e : Cue) : Chan × Bool :=
  if c.stk.cues.length < 2048 then
    let e := { e with slot := cueSlot 0 c.stk.cues }
    (Chan.cuesNow (c.modStk fun t => { t with cues := insCue e t.cues, counter := wrap 32 (t.counter + 1) }), true)
  else
    let c := c.mapN fun n => Node.setFlag (if n.bitOf K.STK_FLAGS 1 then n else n.alarm 99) K.STK_FLAGS 1
    ((c.cueNow { e with id := 0 } 0x0B false).cueCount 0x0B e.out, false)

/-- A new entry of output `o` as the values of view `v` make it (R330). -/
def newCue (c : Chan) (v : Store) (o : Nat) (dark : Bool) (y : Pos) (n gen head : Nat) : Cue :=
  let lead := v.num (ik K.STK_LEAD o)
  { slot := cueSlot 0 c.stk.cues, id := c.stk.counter, out := o, dark := dark, st := .provisional, f := y + (lead : Nat),
    z := y + (lead : Nat) - (v.num (ik K.STK_GUARD o) : Nat), yLo := y, yHi := y, nLo := n, nHi := n, gen := gen, head := head, time := c.cueNs,
    hold := v.num (ik K.STK_LATE_POLICY o) == 1, lead := lead, merge := v.num (ik K.STK_MERGE o), width := v.num (ik K.STK_WIDTH o),
    recallOut := v.num (ik K.STK_RECALL_OUT o), recallWidth := v.num (ik K.STK_RECALL_WIDTH o), matchY := v.num K.STK_MATCH_Y,
    matchX := v.num K.STK_MATCH_X, resolveMax := v.num K.STK_RESOLVE_MAX, relayTx := v.flag (ik K.STK_RELAY_TX o) }

/-- A detection merges into the entry (R331). -/
def mergeCue (c : Chan) (e : Cue) (d : Detection) : Chan :=
  let lower : Bool := decide (d.y < e.yLo)
  let e := { e with yLo := min e.yLo d.y, yHi := max e.yHi d.y, nLo := min e.nLo d.n, nHi := max e.nHi d.n, multi := true,
                    rcBroken := e.rcBroken || (lower && e.rcY.isSome) }
  let c := c.putCue e
  let c := (c.cueEvent { e with gen := d.gen, head := c.globalHead d.head } 2 d.y d.n 0xFF false 0xFF).cueCount 2 e.out
  if e.st = .firedOpen ∧ e.lead = 0 then (c.strikeFire e d.y).cueRelayAt e 2 d.y else c

/-- The entry a detection merges into: of lowest CUE_ID by signed difference (R331). -/
def mergeTarget (c : Chan) (o : Nat) (dark : Bool) (y f : Pos) : Option Cue :=
  (c.stk.cues.filter fun e => e.out == o && e.dark == dark && e.merge != 0 &&
    ((match e.st with
      | .provisional => decide ((f - e.f).natAbs ≤ e.merge)
      | .confirmed => decide ((f - e.f).natAbs ≤ e.merge)
      | .committed => decide ((f - e.f).natAbs ≤ e.merge)
      | .firedOpen => e.lead == 0 && decide ((y - e.yHi).natAbs ≤ e.merge)
      | .withheld => false))).foldl (fun (m : Option Cue) e =>
        match m with
        | some b => if genOrder b.id e.id < 0 then some e else m
        | none => some e) none

/-- A new entry takes its first state (R332). An immediate insertion asserts the pin and writes its INSERT event: the table of R334 gives the
FIRE event, its count and source 102 to the fire of a CONFIRMED or COMMITTED entry (log 1334). -/
def placeCue (c : Chan) (e : Cue) : Chan :=
  let c := (c.cueEvent e 1 e.yLo e.nLo 0xFF false 0xFF).cueCount 1 e.out
  if e.lead = 0 then
    ((c.putCue { e with st := .firedOpen }).strikeFire e e.yLo).cueRelay e 2
  else if c.posReached e.z = false then c
  else
    let e := { e with late := true }
    let c := ((c.putCue e).cueCount 0x0A e.out).mapN (·.setFlag K.STK_FLAGS 3)
    if c.posReached e.f then
      if e.hold then c.cueHorizon e true else c.cueFire { e with st := .committed } true
    else c.cueHorizon e true

/-- A detection meets the four outputs in ascending order (R329-R333), its place on the web taken with the geometry of its line's
generation (R327). -/
def cueDetect (c : Chan) (v : Store) (d : Detection) : Chan :=
  let xw := xw32 v d.n
  (List.range 4).foldl (fun c o =>
    if v.num (ik K.STK_MODE o) ≠ 1 ∨ bit (c.n.num K.STK_ENABLE) o = false ∨ bit (v.num (ik K.STK_HEADS o)) d.head = false ∨
       bit (v.num (ik K.STK_POLARITIES o)) (b2n d.dark) = false ∨ xw < v.sint 32 (ik K.STK_XW_MIN o) ∨ v.sint 32 (ik K.STK_XW_MAX o) < xw ∨
       c.live = false then c
    else
      let e := c.newCue v o d.dark d.y d.n d.gen (c.globalHead d.head)
      match c.mergeTarget o d.dark d.y e.f with
      | some t => c.mergeCue t d
      | none =>
        let (c, ok) := c.takeEntry e
        if ok then c.placeCue e else c) c

/-- A provisional detector meets the commit of an in-flight set (R324): PV_ENABLE going to 1 or a change of PV_PLANE unsets its columns. -/
def pvMeet (h : Nat) (y : HeadPv) (x : InFlight) : HeadPv :=
  match y.seen with
  | none => y
  | some g =>
    if genLe x.gen g then y else
      let on : Bool := match storeFind x.entries (ik K.PV_ENABLE h) with | some v => v.headD 0 == 1 | none => y.enabled
      let plane := match storeFind x.entries (ik K.PV_PLANE h) with | some v => v.headD 0 | none => y.plane
      let y' := { y with enabled := on, plane := plane, seen := some x.gen }
      if (on && !y.enabled) || plane != y.plane then { y' with refs := [], fc := [] } else y'

/-- Every detector meets the commit of an in-flight set. -/
def pvSee (c : Chan) (x : InFlight) : Chan := c.modStk fun t => { t with pv := t.pv.mapIdx fun h y => pvMeet h y x }

/-- The detector of head `h` has met every commit up to generation `g`. -/
def pvSync (c : Chan) (h g : Nat) (v : Store) : HeadPv :=
  let y := c.stk.pv.getD h {}
  match y.seen with
  | none => { y with enabled := v.flag (ik K.PV_ENABLE h), plane := v.num (ik K.PV_PLANE h), seen := some ((c.slate.stage 1).genIn g), refs := [], fc := [] }
  | some _ => ((c.slate.stage 1).sets.filter fun x => genLe x.gen g).foldl (pvMeet h) y

/-- The provisional detector of head `h` over a line (R324-R328): `ratio` the gain ratio, `stale` the mark of R228, `enters` whether the line
enters the down-web resampler. The geometry in force for the line is that of the line's generation, for D_h, the coverage and XW32 alike
(DEDUCED, unsafe: log entry 1327). -/
def detectLine (c : Chan) (h : Nat) (d : Desc) (planes : Planes) (ratio : List Nat) (stale enters : Bool) : Chan :=
  let v := c.viewIn 1 d.gen
  let x := c.pvSync h d.gen v
  let put (c : Chan) (y : HeadPv) : Chan := c.modStk fun t => { t with pv := listPut t.pv h y }
  if x.enabled = false ∨ v.elem K.HEAD_RATE_MAX h = 0 then put c (if stale then { x with refs := [], fc := [] } else x)
  else
    let q := planes.length
    let w := (planes.headD []).length
    let plane := if q = 1 then 0 else v.num (ik K.PV_PLANE h)
    let x := if stale then { x with refs := [], fc := [] } else x
    let refs := bgFor x.refs q w
    let log2 := v.num (ik K.PV_LOG2 h)
    let model := v.elems (ik K.NOISE_MODEL h)
    let dev := deviation model (v.num K.SIGMA_MIN) (v.num (ik K.PV_NOISE_GAIN h))
    let word (i n : Nat) : Nat := (planes.getD i []).getD n pxBad
    let steps := (List.range q).map fun i => (List.range w).map fun n =>
      bgSample (v.num (ik K.PV_LEARN h)) log2 dev (ratio.getD i (2 ^ 24)) (word i n) ((refs.getD i []).getD n {})
    let cols := (List.range w).map fun n =>
      let ds := (List.range q).map fun i => ((steps.getD i []).getD n ({}, none)).2
      let used : List Nat := if plane = 3 then List.range q else [plane]
      let broken : Bool := used.any fun i => (ds.getD i none).isNone
      let sel := selectDev plane ds
      let sat : Bool := used.any fun i => pxSat (word i n)
      match sel with
      | none => (0, none)
      | some e =>
        let b := v.num (ik K.PV_BRIGHT h)
        let k := v.num (ik K.PV_DARK h)
        let hit := if broken then 0
          else if (v.flag (ik K.PV_SAT_AS_SEED h) && sat) || (b != 0 && decide ((b : Int) ≤ e)) then 1
          else if k != 0 && decide (e ≤ -(k : Int)) then 2 else 0
        (hit, some e)
    let fr := v.num (ik K.PV_FREEZE h)
    let fz := (List.range w).map fun n =>
      let frozen : Bool := match (cols.getD n (0, none)).2 with | some e => fr != 0 && decide (fr ≤ e.natAbs) | none => false
      freezeStep (v.num (ik K.PV_FREEZE_MAX h)) (x.fc.getD n 0) frozen
    let refs := steps.mapIdx fun i col => col.mapIdx fun n st =>
      let wd := word i n
      if st.2.isSome && !pxSat wd && !(fz.getD n (0, false, false)).2.2 then { st.1 with b := towards st.1.b (pxVal wd) log2 } else st.1
    let c := put c { x with refs := refs, fc := fz.map (·.1) }
    if stale = true ∨ enters = false then c else
      let y := d.pos - (headDelay v h (v.num (ik K.LINE_PITCH h)) : Nat)
      let cov := coverLine v h
      (decisive (v.num (ik K.PV_MIN_RUN h)) (cols.map (·.1))).foldl (fun c (k, dark) =>
        match nearestPixel cov k with
        | none => c
        | some n => Chan.cueDetect (c.pubAdd c.n.gen 32 (ik K.PV_DETECTIONS h) 0 1) v
            { head := h, dark := dark, y := y, n := n, gen := d.gen }) c

/-! ## Confirmation and recall (R337-R339) -/

/-- A piece matches an entry (R337). -/
def pieceMatches (e : Cue) (p : HandPiece) : Bool :=
  e.dark == p.dark &&
  (match e.bound with
   | some b => b == p.id
   | none => decide (p.yFirst - (e.matchY : Nat) ≤ e.yHi) && decide (e.yLo ≤ p.yLast + (e.matchY : Nat)) &&
       decide (p.nMin ≤ e.nHi + e.matchX) && decide (e.nLo ≤ p.nMax + e.matchX))

/-- A recalling piece updates the recall cover (R339). -/
def coverCue (e : Cue) (p : HandPiece) : Cue :=
  let rc := match e.rcY with | some y => y | none => e.yLo
  if rc < p.yFirst - (e.matchY : Nat) then e else
    let lo : Int := (p.nMin : Int) - e.matchX
    let hi : Int := (p.nMax : Int) + e.matchX
    { e with rcY := some (max rc (p.yLast + (e.matchY : Nat) + (p.outPitch : Nat))),
             rcN := some (match e.rcN with | some (a, b) => (max a lo, min b hi) | none => (lo, hi)) }

/-- The recall cover is complete (R339). -/
def covered (e : Cue) : Bool :=
  !e.rcBroken && (match e.rcY with | some y => decide (e.yHi < y) | none => false) &&
  (match e.rcN with | some (a, b) => decide (a ≤ (e.nLo : Int)) && decide ((e.nHi : Int) ≤ b) | none => false)

/-- What a matching piece does to an entry: binding, cover, and the resolution it gives: `some true` confirm, `some false` recall (R338). -/
def policyOn (e : Cue) (p : HandPiece) : Cue × Option Bool :=
  let pol := if p.discarded then 0 else p.policy / 4 ^ e.out % 4
  if pol = 1 then (e, some true)
  else if pol = 0 then
    let e := coverCue e p
    if p.contOut then ({ e with bound := some p.id }, none)
    else if !e.multi || covered e then (e, some false) else (e, none)
  else (if p.contOut then { e with bound := some p.id } else e, none)

/-- The Cue sheet takes one piece and compares it with every occupied entry (R337, R338). -/
def pieceCompare (c : Chan) : Chan :=
  match c.stk.hand with
  | [] => c
  | p :: rest =>
    let fresh : Bool := match c.stk.line with | some (k, _) => k != p.line | none => true
    let pend : Bool := match c.stk.line with | some (_, e) => !e | none => false
    let c := if fresh && pend then c.cueLineEnd else c
    let c := c.modStk fun t => { t with hand := rest, line := if fresh then some (p.line, false) else t.line }
    let c := match p.survivor with
      | some s => c.modStk fun t => { t with cues := t.cues.map fun e =>
          if e.dark == p.dark && e.bound == some p.id then { e with bound := some s } else e }
      | none =>
        c.allCues fun c s =>
          match c.cue s with
          | none => c
          | some e =>
            if e.resolved || !pieceMatches e p then c else
              let (e, r) := policyOn e p
              match r with
              | none => c.putCue e
              | some confirm =>
                let t : Tentative := { confirm := confirm, id := p.id, piece := p.piece, cls := p.cls, recNo := p.recNo }
                let ended : Bool := match c.stk.line with | some (_, x) => x | none => false
                if ended then Chan.cueResolve (c.putCue e) e t
                else match e.tent with
                  | none => c.putCue { e with tent := some t }
                  | some o => c.putCue (if !o.confirm && confirm then { e with tent := some t } else e)
    let ended : Bool := match c.stk.line with | some (_, x) => x | none => false
    Chan.settle (if p.lineEnd && !ended then c.cueLineEnd else c)

/-! ## Enables, relays, snapshot, commits -/

/-- A write of STK_ENABLE: entries of outputs whose bit clears are freed with CANCEL events (R329). -/
def strikeEnable (c : Chan) (v : Nat) : Chan :=
  let gone := andNot (c.n.num K.STK_ENABLE) v % 16
  let c := c.mapN (·.putN K.STK_ENABLE (v % 16))
  c.allCues fun c s =>
    match c.cue s with
    | some e => if bit gone e.out then Chan.settle ((c.cueNow e 0x0C false).freeCue s) else c
    | none => c

/-- A relay of the source an output names (R347): 1 FIRE_AT, 2 FIRE_NOW, 3 RECALL. -/
def relayIn (c : Chan) (kind src cueId : Nat) (y : Pos) : Chan :=
  if c.live = false then c else
  (List.range 4).foldl (fun c o =>
    if c.n.num (ik K.STK_MODE o) ≠ 3 ∨ bit (c.n.num K.STK_ENABLE) o = false ∨ c.n.num (ik K.STK_RELAY_SRC o) ≠ src then c
    else match kind with
    | 1 =>
      let (hd, n) := c.n.takeFree 8
      let c := { c with n := n }
      let e := { c.newCue c.n.objs o false y 0 c.n.gen hd with st := .confirmed, relayed := true, srcId := some cueId, resolved := true }
      let (c, ok) := c.takeEntry e
      if ok = false then c else
        let c := ((c.cueEvent e 1 y 0 0xFF false 0xFF).cueCount 1 o).cueRelay e 1
        if c.posReached e.f then
          Chan.cueFire ((c.cueCount 0x0D o).mapN (·.setFlag K.STK_FLAGS 7)) { e with late := true } true
        else c
    | 2 =>
      let (hd, n) := c.n.takeFree 8
      let c := { c with n := n }
      let e := { c.newCue c.n.objs o false y 0 c.n.gen hd with id := cueId, relayed := true, srcId := some cueId }
      (c.strikeFire e y).firedRelay e
    | _ =>
      match c.stk.cues.find? fun e => e.out == o && e.srcId == some cueId with
      | some e => (c.putCue { e with recalled := true }).cueRelay e 3
      | none =>
        match c.stk.firedRelays.find? fun e => e.out == o && e.srcId == some cueId with
        | some e => c.recallPulse e false
        | none => c) c

/-- The 64 bytes of an entry in a snapshot (R350). -/
def cueBytes (e : Cue) : List Nat :=
  let st := match e.st with | .provisional => 1 | .confirmed => 2 | .committed => 3 | .firedOpen => 4 | .withheld => 5
  leBytes 8 (pos64 e.f) ++ leBytes 8 (pos64 e.z) ++ leBytes 8 (pos64 e.yLo) ++ leBytes 8 (pos64 e.yHi) ++ leBytes 4 e.nLo ++ leBytes 4 e.nHi ++
  leBytes 4 e.id ++ leBytes 4 (e.bound.getD 0) ++ leBytes 4 e.gen ++
  [st, e.out + 4 * b2n e.dark + 8 * b2n e.multi + 16 * b2n e.bound.isSome + 32 * b2n e.late + 64 * b2n e.recalled + 128 * b2n e.relayed,
   e.head, b2n e.hold] ++ leBytes 8 e.time

/-- A requested snapshot of the Cue sheet is taken (R350). -/
def cueSnap (c : Chan) : Chan :=
  match c.stk.snapDue with
  | none => c
  | some _ =>
    let addr := c.n.num K.CUE_SNAP_ADDR
    let c := c.modStk fun t => { t with snapDue := none }
    if c.imageOk addr 64 131072 = true ∧ c.memUp = true then
      Chan.mapN (c.memStore 1 addr (c.stk.cues.flatMap cueBytes)).1 fun n =>
        Node.occur ((n.putN K.CUE_SNAP_COUNT c.stk.cues.length).putN K.CUE_SNAP_STATUS 2) 108
    else c.mapN fun n => Node.occur (n.putN K.CUE_SNAP_STATUS 3) 108

/-- What a commit does to the strike path: pins (R536, R593), the event ring (R349), the peak of the new generation. -/
def strikeCommit (old : Node) (c : Chan) : Chan :=
  let c := c.modStk fun t => { t with pins := t.pins.mapIdx fun o p =>
    { p with driven := true, pol := if p.active then p.pol else c.n.num (ik K.STK_POLARITY o) } }
  let c := if old.num K.PQ_RING_ADDR = c.n.num K.PQ_RING_ADDR ∧ old.num K.PQ_RING_SIZE = c.n.num K.PQ_RING_SIZE then c
    else c.mapN fun n => (n.putN K.PQ_WR 0).putN K.PQ_RD 0
  c.pubPut c.n.gen K.CUES_PEAK [c.stk.cues.length]

end Chan

end Sys2Proof.Machine
end

