-- ==== Sys2Proof/Machine/IcEngine.lean ====
section
/-!
DEFINITION. The interrupt controller of a unit (17 R463-R484) and its MSI-X logic (R468).
-/

namespace Sys2Proof.Machine

namespace Node

/-- Sources 1 to N. -/
def allSources (n : Node) : List Nat := (List.range n.sources).map (· + 1)

/-- The controller runs: IC_ENABLE (R467). -/
def icOn (n : Node) : Bool := n.flag (n.icKey 1)

/-- The winner of a vector: the eligible source routed to it with the highest PRIORITY, the lowest number among equals (R465). -/
def winner (n : Node) (v : Nat) : Option Nat :=
  (n.allSources.filter fun s => n.eligible s && (n.src s).vec == v).foldl
    (fun best s => match best with
      | none => some s
      | some b => if (n.src b).prio < (n.src s).prio then some s else some b) none

/-- The MSI-X entry of a vector. -/
def msixEntry (n : Node) (v : Nat) : MsixEntry := tabGet {} n.fn.msix v
/-- Give a vector its MSI-X entry. -/
def putMsix (n : Node) (v : Nat) (e : MsixEntry) : Node := { n with fn := { n.fn with msix := tabPut {} n.fn.msix v e } }

/-- A message of a vector may leave: MSI-X enabled, no mask (R468); the function is a bus master and not in D3hot (base specification). -/
def msixOpen (n : Node) (v : Nat) : Bool :=
  n.fn.msixEnable && !n.fn.msixMask && !(n.msixEntry v).masked && n.fn.busMaster && !n.fn.d3hot

/-- A message handed to the MSI-X logic: sent with its entry's address and data, else held in the PBA (R468). -/
def msixHand (n : Node) (v : Nat) : Node :=
  if n.msixOpen v then n.emit (.msix v (n.msixEntry v).addr (n.msixEntry v).data)
  else n.putMsix v { n.msixEntry v with pba := true }

/-- Held messages that may now leave (R468). -/
def msixFlush (n : Node) : Node :=
  (List.range 64).foldl
    (fun n v => if (n.msixEntry v).pba && n.msixOpen v then
        (n.putMsix v { n.msixEntry v with pba := false }).emit (.msix v (n.msixEntry v).addr (n.msixEntry v).data)
      else n) n

/-- A message of vector `v` is decided where R466 lets one be. -/
def msixSend (n : Node) (v : Nat) : Node :=
  match n.winner v with
  | some w =>
    if n.icOn && !(n.vec v).outstanding then
      ((n.putVec v ⟨true, w⟩).addE 32 (n.icKey 6) v 1).msixHand v
    else n
  | none => n

/-- The outstanding bit of a vector cleared, with a message still held (R468, R469). -/
def vecClear (n : Node) (v : Nat) : Node :=
  let n := n.putVec v { n.vec v with outstanding := false }
  if (n.msixEntry v).pba then n.putMsix v { n.msixEntry v with pba := false } else n

/-- A claim on vector `v` (R469, R471): the value read, and the controller after it. -/
def claim (n : Node) (v : Nat) : Nat × Node :=
  match n.winner v with
  | some w =>
    let o := n.src w
    let edge := (n.level w).isNone
    (o.prio * 2 ^ 24 + o.count * 2 ^ 16 + w,
      (n.putSrc w { o with active := true, count := 0, pend := o.pend && !edge }).vecClear v)
  | none =>
    if (n.vec v).outstanding then
      if n.pending (n.vec v).cause then (2 * 1024 + 1023, (n.addE 32 (n.icKey 9) 1 1).vecClear v)
      else (1024 + 1023, (n.addE 32 (n.icKey 9) 0 1).vecClear v)
    else (0, n.vecClear v)

/-- A complete of source `s` (R470). -/
def complete (n : Node) (s : Nat) : Node :=
  if s = 0 ∨ s = 1023 then n
  else if n.sources < s then (n.putN (n.icKey 8) (2 * 1024 + s)).setFlag (n.icKey 7) 0
  else if (n.src s).active then n.putSrc s { n.src s with active := false }
  else (n.putN (n.icKey 8) (1024 + s)).setFlag (n.icKey 7) 0

/-- A write of SRC_CFG of source `s` (R463, R479): ENABLE, PRIORITY and VECTOR, ENABLE not of a reserved source; a PENDING bit of 1
clears an edge source. -/
def srcCfgWrite (n : Node) (s v : Nat) : Node :=
  if s = 0 ∨ n.sources < s then n else
    let o := n.src s
    n.putSrc s { o with enable := bit v 15 && n.kind s != 0, prio := bits v 7 6, vec := bits v 5 0, pend := o.pend && !bit v 30 }

/-- SRC_CFG of source `s` as read (R479). -/
def srcCfg (n : Node) (s : Nat) : Nat :=
  if s = 0 ∨ n.sources < s then 0 else
    let o := n.src s
    b2n o.active * 2 ^ 31 + b2n (n.pending s) * 2 ^ 30 + n.kind s * 2 ^ 28 + o.count * 2 ^ 16 + b2n o.enable * 2 ^ 15 +
      o.prio * 2 ^ 6 + o.vec

/-- A word of bits of the sources 32w to 32w + 31. -/
def srcWord (n : Node) (f : Nat → Bool) (w : Nat) : Nat :=
  (List.range 32).foldl (fun a b => if 1 ≤ 32 * w + b ∧ 32 * w + b ≤ n.sources ∧ f (32 * w + b) = true then a + 2 ^ b else a) 0

/-- PENDING_W and ACTIVE_W (R478). -/
def pendingWord (n : Node) (w : Nat) : Nat := n.srcWord n.pending w
def activeWord (n : Node) (w : Nat) : Nat := n.srcWord (fun s => (n.src s).active) w

/-- VSTATUS of vector `v` (R479). -/
def vstatus (n : Node) (v : Nat) : Nat := b2n (n.vec v).outstanding * 1024 + (n.vec v).cause

/-- GSTATUS (R479). -/
def gstatus (n : Node) : Nat :=
  (n.allSources.filter fun s => (n.src s).active).length * 256 + b2n (n.allSources.any n.eligible)

/-- ICERR (R479). -/
def icerr (n : Node) : Nat := b2n (n.bitOf (n.icKey 7) 0) * 2 ^ 31 + n.num (n.icKey 8)

/-- SWI_SET (R484): one occurrence of each software source whose bit is set. -/
def swiSet (n : Node) (v : Nat) : Node :=
  (List.range (if n.chan then 1 else 8)).foldl (fun n i => if bit v i then n.occur ((if n.chan then 160 else 181) + i) else n) n

/-- The controller's reset state (R476); level PENDING bits follow their flags. -/
def icReset (n : Node) : Node :=
  let n := [1, 6, 8, 9].foldl (fun n k => n.put (n.icKey k) (dfltOf (n.icKey k))) n
  let n := n.putN (n.icKey 7) 0
  { n with srcs := [], vecs := [] }

/-- The function's MSI-X table and bits at reset. -/
def msixReset (n : Node) : Node := { n with fn := { n.fn with msix := [], msixEnable := false, msixMask := false } }

/-- A 32-bit read of the controller page of BAR2 (R478), but CLAIM. -/
def icRead (n : Node) (off : Nat) : Nat :=
  if off = 0x8000 then b2n n.icOn
  else if off = 0x8004 then n.gstatus
  else if off = 0x800C then n.icerr
  else if off = 0x8010 then n.elem (n.icKey 9) 0
  else if off = 0x8014 then n.elem (n.icKey 9) 1
  else if 0x8400 ≤ off ∧ off < 0x8800 then n.srcCfg ((off - 0x8400) / 4)
  else if 0x8800 ≤ off ∧ off < 0x8820 then n.pendingWord ((off - 0x8800) / 4)
  else if 0x8840 ≤ off ∧ off < 0x8860 then n.activeWord ((off - 0x8840) / 4)
  else if 0x9000 ≤ off ∧ off < 0x9200 ∧ off % 8 = 4 then n.vstatus ((off - 0x9000) / 8)
  else 0

/-! ## BAR2 (R452, R468, R477-R479) -/

/-- A dword of the MSI-X table. -/
def msixDword (n : Node) (i : Nat) : Nat :=
  let e := n.msixEntry (i / 4)
  match i % 4 with
  | 0 => e.addr % 2 ^ 32
  | 1 => e.addr / 2 ^ 32
  | 2 => e.data
  | _ => b2n e.masked

/-- A dword of the MSI-X table written; a message held may then leave (R468). -/
def msixWrite (n : Node) (i v : Nat) : Node :=
  let e := n.msixEntry (i / 4)
  let e : MsixEntry := match i % 4 with
    | 0 => { e with addr := e.addr / 2 ^ 32 * 2 ^ 32 + v / 4 * 4 }
    | 1 => { e with addr := v * 2 ^ 32 + e.addr % 2 ^ 32 }
    | 2 => { e with data := v }
    | _ => { e with masked := bit v 0 }
  (n.putMsix (i / 4) e).msixFlush

/-- The Pending Bit Array. -/
def pba (n : Node) : Nat := (List.range 64).foldl (fun a v => if (n.msixEntry v).pba then a + 2 ^ v else a) 0

/-- A controller register written (R470, R478, R479). -/
def icWriteReg (n : Node) (off v : Nat) : Node :=
  if off = 0x8000 then n.putN (n.icKey 1) (v % 2)
  else if off = 0x8008 then n.complete (v % 1024)
  else if off = 0x800C then (if bit v 31 then n.clrFlag (n.icKey 7) 0 else n)
  else if off = 0x8018 then n.swiSet (v % 256)
  else if 0x8400 ≤ off ∧ off < 0x8800 then n.srcCfgWrite ((off - 0x8400) / 4) v
  else n

/-- A read of BAR2: the unit after it, and the bytes returned. -/
def bar2Read (n : Node) (off size : Nat) : Node × List Nat :=
  if off < 0x400 then
    (n, if (size = 4 ∨ size = 8) ∧ off % size = 0 then (List.range (size / 4)).flatMap fun i => leBytes 4 (n.msixDword (off / 4 + i))
      else List.replicate size 255)
  else if 0x1000 ≤ off ∧ off < 0x1008 then let b := slice (leBytes 8 n.pba) (off - 0x1000) size; (n, b ++ zeros (size - b.length))
  else if 0x8000 ≤ off ∧ off < 0xC000 then
    if size ≠ 4 ∨ off % 4 ≠ 0 then (n, List.replicate size 255)
    else if 0x9000 ≤ off ∧ off < 0x9200 ∧ off % 8 = 0 then
      let (v, m) := n.claim ((off - 0x9000) / 8)
      (m, leBytes 4 v)
    else (n, leBytes 4 (n.icRead off))
  else (n, zeros size)

/-- A write of BAR2. -/
def bar2Write (n : Node) (off : Nat) (data : List Nat) : Node :=
  let size := data.length
  if off < 0x400 then
    if (size = 4 ∨ size = 8) ∧ off % size = 0 then
      (List.range (size / 4)).foldl (fun n i => n.msixWrite (off / 4 + i) (field data (4 * i) 4)) n
    else n
  else if 0x8000 ≤ off ∧ off < 0xC000 ∧ size = 4 ∧ off % 4 = 0 then n.icWriteReg off (field data 0 data.length)
  else n

/-- An access of BAR2 is carried out: a read is answered. -/
def bar2Do (n : Node) (x : Bar2Access) : Node :=
  match x with
  | .read off size => let (n, bs) := n.bar2Read off size; n.emit (.completion 0 bs)
  | .write off data => n.bar2Write off data

/-- The accesses of BAR2 that waited are carried out in order (R477). -/
def bar2Run (n : Node) : Node :=
  match n.fn.waiting with
  | [] => n
  | l => l.foldl bar2Do { n with fn := { n.fn with waiting := [] } }

end Node

end Sys2Proof.Machine
end

