-- ==== Sys2Proof/Machine/Operands.lean ====
section
/-!
DEFINITION. The operand forms of the dictionary paths: types on the wire (R58), the checks of a write (R59, R60), status codes (R85),
and the KDP message (R73-R76).
-/

namespace Sys2Proof.Machine

/-- The status codes of R85. -/
inductive Status
  | ok | badVersion | badOpcode | badLength | noObject | access | type | range | stagingFull | budget | timeout | channelDown
  | stale | busy | genGone | partialDone
deriving DecidableEq, Repr

/-- The code of a status (R85). -/
def Status.code : Status → Nat
  | .ok => 0 | .badVersion => 1 | .badOpcode => 2 | .badLength => 3 | .noObject => 4 | .access => 5 | .type => 6 | .range => 7
  | .stagingFull => 8 | .budget => 9 | .timeout => 10 | .channelDown => 11 | .stale => 12 | .busy => 13 | .genGone => 14
  | .partialDone => 15

namespace Ty

/-- Bits of an element. -/
def width : Ty → Nat
  | bool => 8 | u8 => 8 | i8 => 8 | u16 => 16 | i16 => 16 | u32 => 32 | i32 => 32 | q16 => 32 | xw => 32
  | u64 => 64 | i64 => 64 | pos => 64 | time => 80 | str => 8 | blob => 8

/-- Bytes of an element on the wire (R58). -/
def size (t : Ty) : Nat := t.width / 8

/-- The type is read in two's complement. -/
def signed : Ty → Bool
  | i8 => true | i16 => true | i32 => true | i64 => true | q16 => true | pos => true | xw => true
  | _ => false

/-- The code of R58 (an I8 element has none: 02h is used). -/
def code : Ty → Nat
  | bool => 1 | u8 => 2 | i8 => 2 | u16 => 3 | u32 => 4 | u64 => 5 | i16 => 6 | i32 => 7 | i64 => 8 | q16 => 9
  | pos => 0x0B | xw => 0x0C | time => 0x0D | str => 0x0E | blob => 0x0F

end Ty

/-- The access code of R60. -/
def Acc.code : Acc → Nat
  | .ro => 1 | .rw => 2 | .rs => 3 | .wo => 4 | .w1c => 5 | .const => 6

namespace ObjInfo

/-- P: in the persisted set (R63). -/
def persisted (r : ObjInfo) : Bool := bit r.marks 0
/-- Published per generation (R50). -/
def published (r : ObjInfo) : Bool := bit r.marks 1
/-- Input-side (R44). -/
def inputSide (r : ObjInfo) : Bool := bit r.marks 2

/-- The largest length in bytes, or the wire size of a scalar. -/
def maxBytes (r : ObjInfo) : Nat :=
  match r.shape with
  | .scalar => r.ty.size
  | .array n => n * r.ty.size
  | .bytes m _ _ => m

/-- A scalar object. -/
def isScalar (r : ObjInfo) : Bool :=
  match r.shape with
  | .scalar => true
  | _ => false

/-- The TYPE code of R58. -/
def typeCode (r : ObjInfo) : Nat :=
  match r.shape with
  | .array _ => 0x10
  | _ => r.ty.code

/-- The elements that bytes spell. -/
def decodeVals (r : ObjInfo) (bs : List Nat) : List Nat :=
  match r.shape with
  | .scalar => [ofLe (bs.take r.ty.size)]
  | .array n => (List.range (min n (bs.length / r.ty.size))).map fun i => field bs (i * r.ty.size) r.ty.size
  | .bytes _ _ _ => bs.map (· % 256)

/-- The bytes of elements on the wire. -/
def encodeVals (r : ObjInfo) (vs : List Nat) : List Nat :=
  match r.shape with
  | .scalar => leBytes r.ty.size (vs.headD 0)
  | .array _ => vs.flatMap (leBytes r.ty.size)
  | .bytes _ _ _ => vs

/-- The number an element stands for. -/
def asInt (r : ObjInfo) (v : Nat) : Int := if r.ty.signed then toSigned r.ty.width v else (v : Int)

end ObjInfo

/-- Contiguous ones from the top of a 32-bit mask. -/
def contiguous (m : Nat) : Bool :=
  let inv := 2 ^ 32 - 1 - m % 2 ^ 32
  Nat.land inv (inv + 1) == 0

/-- An element passes the range of its object (R59). -/
def Chk.elemOk (c : Chk) (r : ObjInfo) (v : Nat) : Bool :=
  match c with
  | .all => true
  | .within lo hi => decide (lo ≤ r.asInt v) && decide (r.asInt v ≤ hi)
  | .oneOf vs => vs.contains v
  | .zeroOr lo hi => v == 0 || (lo ≤ v && v ≤ hi)
  | .orVal lo hi x => v == x || (lo ≤ v && v ≤ hi)
  | .multiple n => v % n == 0
  | .multMax n hi => v % n == 0 && v ≤ hi
  | .contigMask => contiguous v
  | .firstNonZero => true
  | .flrScope => v ≤ 1
  | .firsts _ => true

/-- What a range demands of the elements of a value together (R59). -/
def Chk.wholeOk (c : Chk) (vs : List Nat) : Bool :=
  match c with
  | .firstNonZero => vs.headD 0 != 0
  | .flrScope => vs.headD 0 == 0
  | .firsts n => (vs.take n).all (· != 0)
  | _ => true

/-- A whole value passes the range of its object (R59). -/
def Chk.ok (c : Chk) (r : ObjInfo) (vs : List Nat) : Bool := vs.all (c.elemOk r) && c.wholeOk vs

/-- A value of which elements `lo` to `hi - 1` were written passes the range of its object: those elements, and the whole (R59). -/
def Chk.okPart (c : Chk) (r : ObjInfo) (vs : List Nat) (lo hi : Nat) : Bool :=
  (((vs.take hi).drop lo).all (c.elemOk r)) && c.wholeOk vs

/-- Res bits of a written element are dropped (R8). A `keep` wider than an element is a mask of several elements below its highest one, which
repeats over the value. -/
def ObjInfo.mask (r : ObjInfo) (vs : List Nat) : List Nat :=
  let w := r.ty.width
  if r.keep = 0 then vs
  else if r.keep < 2 ^ w then vs.map fun v => Nat.land v r.keep
  else let p := max 1 (Nat.log2 r.keep / w); vs.mapIdx fun i v => Nat.land v (bits r.keep (w * (i % p) + w - 1) (w * (i % p)))

/-- The check of a whole written value against R58 and R59: its elements, or the status. The bytes of a STR are taken as they are: R58 does not
say what a write that is no UTF-8 gets (DESIGN CHOICE, unsafe: log entry 1058). -/
def ObjInfo.checkBytes (r : ObjInfo) (bs : List Nat) : Except Status (List Nat) :=
  let len := bs.length
  let lenStatus : Status :=
    match r.shape with
    | .scalar => if len = r.ty.size then .ok else .type
    | .array n => if len > n * r.ty.size then .range else if len < n * r.ty.size then .type else .ok
    | .bytes m fixed short => if len > m then .range else if fixed && !short && len < m then .type else .ok
  if lenStatus = .ok then
    let vs := r.mask (r.decodeVals bs)
    if r.chk.ok r vs then .ok vs else .error .range
  else .error lenStatus

/-! ## KDP messages -/

/-- A KDP header (R73). -/
structure KdpHeader where
  version : Nat
  opcode : Nat
  flags : Nat
  payloadLen : Nat
  seq : Nat
  session : Nat
  gen : Nat
deriving DecidableEq, Repr

/-- The header of a message. -/
def kdpHeader (bs : List Nat) : KdpHeader :=
  { version := field bs 2 1, opcode := field bs 3 1, flags := field bs 4 2, payloadLen := field bs 6 2, seq := field bs 8 4,
    session := field bs 14 2, gen := field bs 16 4 }

/-- MAGIC is 444Bh (R73). -/
def kdpMagic (bs : List Nat) : Bool := field bs 0 2 == 0x444B

/-- The CRC-32C that ends a message is that of what precedes it (R73). -/
def kdpCrcOk (bs : List Nat) : Bool :=
  4 ≤ bs.length && crc32c (bs.take (bs.length - 4)) == field bs (bs.length - 4) 4

/-- An answer: header, payload, CRC-32C (R73). -/
def kdpAnswer (h : KdpHeader) (opcode flags status gen : Nat) (payload : List Nat) : List Nat :=
  let body := leBytes 2 0x444B ++ [1, opcode] ++ leBytes 2 flags ++ leBytes 2 payload.length ++ leBytes 4 h.seq ++
    leBytes 2 status ++ leBytes 2 h.session ++ leBytes 4 gen ++ payload
  body ++ leBytes 4 (crc32c body)

/-- A request item (R75). -/
structure KdpItem where
  index : Nat
  sub : Nat
  flags : Nat
  offset : Nat
  length : Nat
  data : List Nat := []
deriving DecidableEq, Repr

namespace KdpItem
/-- DESC, SEGMENT and MORE (R75). -/
def desc (i : KdpItem) : Bool := bit i.flags 0
def segment (i : KdpItem) : Bool := bit i.flags 1
def more (i : KdpItem) : Bool := bit i.flags 2
end KdpItem

/-- The items of a payload; `withData`: a value follows each header (WRITE, STAGE). At most `fuel` items; `none` where the lengths do
not come out even. -/
def kdpItems (withData : Bool) : Nat → List Nat → Option (List KdpItem)
  | _, [] => some []
  | 0, _ => none
  | fuel + 1, bs =>
    if bs.length < 12 then none else
      let len := field bs 8 2
      let it : KdpItem := { index := field bs 0 2, sub := field bs 2 1, flags := field bs 3 1, offset := field bs 4 4, length := len,
                            data := if withData then slice bs 12 len else [] }
      let skip := if withData then 12 + (len + 3) / 4 * 4 else 12
      if bs.length < skip then none else
        match kdpItems withData fuel (bs.drop skip) with
        | some r => some (it :: r)
        | none => none

/-- The 12-byte header of an answer item (R75). -/
def answerItem (i : KdpItem) (st : Status) (len ty : Nat) : List Nat :=
  leBytes 2 i.index ++ [i.sub, st.code] ++ leBytes 4 i.offset ++ leBytes 2 len ++ [ty, 0]

/-- The descriptor of an object (R76). -/
def descriptor (r : ObjInfo) (dflt : List Nat) : List Nat :=
  [r.typeCode, (match r.shape with | .array _ => r.ty.code | _ => 0), r.acc.code, r.marks] ++ leBytes 4 r.maxBytes ++
  leBytes 8 (if r.isScalar && r.ty.size ≤ 8 then dflt.headD 0 else 0)

end Sys2Proof.Machine
end

