-- ==== Sys2Proof/Machine/RushesEngine.lean ====
section
/-!
DEFINITION. The Rushes recorder of chapter 12: journal entries, the ring, the entry queue, freezing, checkpoints, and the check-value
contexts K0-K7.
-/

namespace Sys2Proof.Machine

/-! ## Entry bytes (R355, R357-R360) -/

/-- The entry of R355 with its SEQ. -/
def entryBytes (seq : Nat) (w : JrnWait) : List Nat :=
  let body := padMult 8 w.body
  let head := [w.kind, w.flags, w.head, 0] ++ leBytes 4 (24 + body.length) ++ leBytes 4 seq
  let tail := leBytes 8 w.time ++ body
  head ++ leBytes 4 (crc32c (head ++ tail)) ++ tail

/-- The 32 bytes of a line descriptor (R186); `head` is global. -/
def descBytes (d : Desc) (head : Nat) : List Nat :=
  let flags := b2n d.short + 2 * b2n d.long + 4 * b2n d.crcErr + 8 * b2n d.overrun + 16 * b2n d.lost + 32 * b2n d.formatErr +
    64 * b2n d.timeTrig + 128 * b2n d.tempStale + 256 * d.reason
  leBytes 8 (pos64 d.pos) ++ leBytes 8 d.time ++ leBytes 2 d.num ++ leBytes 2 d.lenRx ++ leBytes 4 d.gen ++ leBytes 2 flags ++
  [head % 256, d.expoDelay % 256] ++ leBytes 2 d.temp ++ [d.tapErr % 256, 0]

/-- The descriptor that 32 bytes spell; `head` is the head of the channel. -/
def descOf (b : List Nat) : Desc :=
  let f := field b 24 2
  { pos := toSigned 64 (field b 0 8), time := field b 8 8, num := field b 16 2, lenRx := field b 18 2, gen := field b 20 4,
    short := bit f 0, long := bit f 1, crcErr := bit f 2, overrun := bit f 3, lost := bit f 4, formatErr := bit f 5, timeTrig := bit f 6,
    tempStale := bit f 7, reason := bits f 11 8, head := field b 26 1 % 4, expoDelay := field b 27 1, temp := field b 28 2,
    tapErr := field b 30 1 }

/-- Sample codes in pixel order with planes adjacent (R359). -/
def rawCodes (raw : Planes) : List Nat := (List.range (raw.headD []).length).flatMap fun k => raw.map fun p => p.getD k pxInvalidBit

/-- Truth values as bits of bytes, the first in bit 0. -/
def packBools : List Bool → List Nat
  | a :: b :: c :: d :: e :: f :: g :: h :: r =>
    (b2n a + 2 * b2n b + 4 * b2n c + 8 * b2n d + 16 * b2n e + 32 * b2n f + 64 * b2n g + 128 * b2n h) :: packBools r
  | [] => []
  | l => [(l.mapIdx fun i x => b2n x * 2 ^ i).foldl (· + ·) 0]

/-- Each code less the previous one of its plane, modulo 2^16 (R359). -/
def diffCodes (q : Nat) (codes : List Nat) : List Nat :=
  codes.mapIdx fun i c => if i < q then c else (c + 65536 - codes.getD (i - q) 0) % 65536

/-- The reverse of `diffCodes`: `prev` holds the last code of each plane, oldest first. -/
def sumCodes : List Nat → List Nat → List Nat
  | _, [] => []
  | [], l => l
  | p :: ps, c :: r => (p + c) % 65536 :: sumCodes (ps ++ [(p + c) % 65536]) r

/-- The raw payload of a line: its codes, and the bitmap where a sample is INVALID (R359). -/
def rawPayload (raw : Planes) : List Nat × List Nat :=
  let cs := rawCodes raw
  (cs.map (· % 65536), if cs.any pxInv then packBools (cs.map pxInv) else [])

/-- A configuration item (R360). -/
def itemBytes (index sub code : Nat) (val : List Nat) : List Nat :=
  leBytes 2 index ++ [sub, code] ++ leBytes 4 val.length ++ padMult 8 val

/-- Every object of a channel block, in the SW0 form. -/
def chanRows : List (Nat × ObjInfo) :=
  (List.range 0x800).flatMap fun o => (rowsAt (baseIndex (0x8000 + o))).map fun r => ((0x8000 + o) * 256 + r.sub, r)

namespace Chan

/-- Change the recorder's state. -/
def modJrn (c : Chan) (f : Rushes → Rushes) : Chan := { c with rushes := f c.rushes }

/-- The item of an object of the channel with its value (R360): its actual index (R57). -/
def objItem (c : Chan) (k : Nat) (v : List Nat) : List Nat :=
  match objInfo k with
  | some r => itemBytes (k / 256 + 0x800 * c.num) (k % 256) r.typeCode (r.encodeVals v)
  | none => []

/-- The items of the configuration in force: every RW and RS object (R363). -/
def configItems (c : Chan) : List (List Nat) :=
  chanRows.filterMap fun (k, r) => if r.acc = .rw ∨ r.acc = .rs then some (c.objItem k (if k = K.C_IC_SRC_CFG then (List.range 161).map c.n.srcCfg else c.n.elems k)) else none

/-! ## Check-value contexts (R371-R373) -/

end Chan

/-- The parameters of a context in a view: width, polynomial, initial value, RefIn, RefOut, XorOut (R372). -/
def kParams (v : Store) (k : Nat) : Nat × Nat × Nat × Bool × Bool × Nat :=
  let r := v.num (ik K.K_REFLECT k)
  match v.num (ik K.K_PRESET k) with
  | 1 => (32, 0x1EDC6F41, 0xFFFFFFFF, true, true, 0xFFFFFFFF)
  | 2 => (16, 0x1021, 0xFFFF, false, false, 0)
  | 3 => (32, 0x04C11DB7, 0xFFFFFFFF, true, true, 0xFFFFFFFF)
  | 4 => (64, 0x42F0E1EBA9EA3693, 2 ^ 64 - 1, true, true, 2 ^ 64 - 1)
  | _ => (v.num (ik K.K_WIDTH k), v.num (ik K.K_POLY k), v.num (ik K.K_INIT k), bit r 0, bit r 1, v.num (ik K.K_XOROUT k))

/-- One bit of a byte enters the register of width `w` (R372). -/
def kBit (w poly reg : Nat) (b : Bool) : Nat :=
  let top := bit reg (w - 1)
  let reg := reg * 2 % 2 ^ w
  if b != top then Nat.xor reg (poly % 2 ^ w) else reg

/-- The bits of a byte, most significant first, or reflected. -/
def kBits (refin : Bool) (b : Nat) : List Bool := (List.range 8).map fun i => bit b (if refin then i else 7 - i)

/-- Bytes enter the register (R372). -/
def kFeed (w poly : Nat) (refin : Bool) (reg : Nat) (bs : List Nat) : Nat :=
  bs.foldl (fun r b => (kBits refin b).foldl (kBit w poly) r) reg

/-- The result of a register (R372). -/
def kResult (w : Nat) (refout : Bool) (xorout reg : Nat) : Nat := Nat.xor (if refout then reflect w reg else reg) (xorout % 2 ^ w)

/-- The result over bytes alone (R372). -/
def kCheck (v : Store) (k : Nat) (bs : List Nat) : Nat :=
  let (w, poly, init, rin, rout, xo) := kParams v k
  kResult w rout xo (kFeed w poly rin (init % 2 ^ w) bs)

namespace Chan

/-- Context `k`. -/
def kctx (c : Chan) (k : Nat) : KCtx := c.rushes.ks.getD k {}

/-- An item at a snoop point enters the contexts that watch it (R371). -/
def kItem (c : Chan) (point sel gen : Nat) (bytes : List Nat) : Chan :=
  let v := c.viewIn 7 gen
  let take (k : Nat) (x : KCtx) : KCtx :=
    if v.num (ik K.K_POINT k) == point && (v.num (ik K.K_SEL k) == sel || [3, 4, 5].contains point) then
      let (w, poly, init, rin, _, _) := kParams v k
      let (reg, n) := tabGet (init % 2 ^ w, 0) x.sums gen
      { x with sums := tabIns x.sums gen (kFeed w poly rin reg bytes, n + bytes.length) }
    else x
  c.modJrn fun s => { s with ks := s.ks.mapIdx take }

/-! ## Writing entries (R354, R361, R365) -/

/-- Where the oldest and newest CKPT entries of the ring lie (R365). -/
def ckptMarks (c : Chan) : Chan :=
  let cks := c.rushes.ring.filter (·.kind == 9)
  let none_ := 2 ^ 64 - 1
  c.mapN fun n => (n.putN K.CKPT_OLDEST ((cks.head?.map (·.off)).getD none_)).putN K.CKPT_NEWEST ((cks.getLast?.map (·.off)).getD none_)

/-- The ring is emptied (R354). -/
def ringEmpty (c : Chan) : Chan :=
  Chan.ckptMarks ((c.modJrn fun s => { s with ring := [], post := 0 }).mapN fun n => (n.putN K.RUSHES_HEAD 0).putN K.RUSHES_TAIL 0)

/-- The recorder becomes FROZEN (R364): nothing more is written, and a checkpoint under capture ends unwritten. -/
def journalFrozen (c : Chan) : Chan :=
  (c.modJrn fun s => { s with queue := [], ckpts := [], ending := false }).mapN fun n => (n.putN K.FREEZE_STATE 3).occur 114

/-- The recorder journals (R364). -/
def journals (c : Chan) : Bool := c.n.num K.FREEZE_STATE == 1 || c.n.num K.FREEZE_STATE == 2

/-- A loss is counted and told (R361). -/
def journalLoss (c : Chan) (k : Nat) : Chan := c.mapN fun n => (n.inc k).setFlag K.RUSHES_FLAGS 1

/-- An entry is lost whole. -/
def entryLost (c : Chan) (w : JrnWait) (len : Nat) : Chan :=
  Chan.journalLoss (c.modJrn fun s => { s with lost := s.lost + 1, lostLines := s.lostLines + b2n (w.kind == 2), lostBytes := s.lostBytes + len })
    K.JRN_DROPS

/-- An entry is written at RUSHES_HEAD over the oldest ones (R354); in POST, one that would reach into PRE_DEPTH freezes the journal
instead (R365). -/
def entryWrite (c : Chan) (w : JrnWait) : Chan :=
  let size := c.n.num K.RUSHES_SIZE
  let seq := c.n.num K.RUSHES_SEQ
  let bytes := entryBytes seq w
  let len := bytes.length
  let pre := c.n.num K.PRE_DEPTH
  if size < len then c.entryLost w len
  else if c.rushes.post ≠ 0 ∧ pre ≠ 0 ∧ size < pre + c.rushes.post + len then c.journalFrozen
  else
    let off := c.n.num K.RUSHES_HEAD
    let c := (c.memStoreRing 2 (c.n.num K.RUSHES_ADDR) size off bytes).1
    let used := c.rushes.ring.foldl (fun s e => s + e.len) 0
    let (ring, _) := c.rushes.ring.foldl (fun (p : List JrnEntry × Nat) e =>
      if size < p.2 + len then (p.1, p.2 - e.len) else (p.1 ++ [e], p.2)) ([], used)
    let ring := ring ++ [{ off := off, len := len, seq := seq, kind := w.kind }]
    let old := ring.headD { off := off, len := len, seq := seq, kind := w.kind }
    let c := c.modJrn fun s => { s with ring := ring, post := if s.post != 0 || w.kind == 0x0A then s.post + len else 0 }
    let c := c.mapN fun n =>
      let n := (((n.putN K.RUSHES_HEAD ((off + len) % size)).putN K.RUSHES_SEQ (wrap 32 (seq + 1))).putN K.RUSHES_TAIL old.off)
      let n := (n.putN K.RUSHES_TAIL_SEQ old.seq).add 64 K.RUSHES_BYTES len
      if w.kind = 0x0A then n.putN K.FREEZE_OFF off else n
    let c := if w.kind = 9 then c.mapN fun n => (n.inc K.CKPT_COUNT).putN K.CKPT_LAST_POS (field w.body 0 8) else c
    let c := (c.kItem 5 0 c.n.gen bytes).ckptMarks
    if w.kind = 0x0B ∧ c.n.num K.FREEZE_STATE = 2 ∧ (c.n.num K.POST_DEPTH = 0 ∨ c.rushes.ending = true) then c.journalFrozen else c

/-- Entries leave the queue in order until one waits for the compressor or for its captures. -/
def queueDrain (c : Chan) : Nat → Chan
  | 0 => c
  | fuel + 1 =>
    match c.rushes.queue with
    | [] => c
    | w :: r =>
      if w.pack.isSome || w.ckpt.isSome || !c.journals then c
      else queueDrain (Chan.entryWrite (c.modJrn fun s => { s with queue := r }) w) fuel

/-- All of the queue that may leave it leaves. -/
def drainAll (c : Chan) : Chan := c.queueDrain c.rushes.queue.length

/-- Bytes of an entry in the on-die queue. Checkpoints and configurations are formed as they are written and take none, nor do the entries
that wait behind a checkpoint under capture (DEDUCED, unsafe: log entry 1356). -/
def waitSize (w : JrnWait) : Nat :=
  if w.kind = 9 ∨ w.kind = 0x0B then 0 else
    24 + (w.body.length + (match w.pack with | some (raw, _) => raw.length | none => 0) + 7) / 8 * 8

/-- An entry is offered to the recorder (R361). -/
def offer (c : Chan) (w : JrnWait) : Chan :=
  if !c.journals then c else
    let held := (c.rushes.queue.takeWhile (·.ckpt.isNone)).foldl (fun s e => s + waitSize e) 0
    let gap : JrnWait := { kind := 0x0C, flags := 0, head := 0xFF, time := c.n.ns,
                           body := leBytes 4 c.rushes.lost ++ leBytes 4 c.rushes.lostLines ++ leBytes 8 c.rushes.lostBytes }
    let pre := if c.rushes.lost = 0 then [] else [gap]
    let base := held + pre.length * 40
    let behind : Bool := c.rushes.queue.any (·.ckpt.isSome)
    let push (c : Chan) (w : JrnWait) : Chan :=
      Chan.drainAll (c.modJrn fun s => { s with queue := s.queue ++ pre ++ [w], lost := 0, lostLines := 0, lostBytes := 0 })
    if behind || decide (base + waitSize w ≤ 262144) then push c w
    else if w.kind = 2 ∧ 48 < w.body.length + (if w.pack.isSome then 1 else 0) ∧ base + 72 ≤ 262144 then
      push (c.journalLoss K.RAW_MISSES) { w with body := w.body.take 40 ++ [0, 0, 0, 0, 0, 3, 0, 0], pack := none }
    else c.entryLost w (waitSize w)

/-- An entry of the channel now. -/
def journal (c : Chan) (kind : Nat) (body : List Nat) : Chan :=
  c.offer { kind := kind, flags := 0, head := 0xFF, time := c.n.ns, body := body }

/-- The LINE entry of a line the merge arbiter passes (R358, R359). -/
def lineEntry (c : Chan) (l : HeadLine) : Chan :=
  let v := c.viewIn 7 l.desc.gen
  let (codes, bmp) := rawPayload l.raw
  let raw := codes.flatMap (leBytes 2) ++ bmp
  let wanted := bit (v.num K.RAW_HEADS) l.desc.head
  let head := c.globalHead l.desc.head
  let busy := c.rushes.queue.any (·.pack.isSome)
  let form := v.num K.RAW_FORM
  let make (stored form miss : Nat) : List Nat :=
    descBytes l.desc head ++ (if l.desc.lost then zeros 8 else leBytes 4 (crc32c raw) ++ leBytes 4 raw.length) ++ leBytes 4 stored ++
    [form, miss, 0, 0]
  let w (body : List Nat) (pack : Option (List Nat × List Nat)) : JrnWait :=
    { kind := 2, flags := b2n (!l.desc.lost && !bmp.isEmpty), head := head, time := l.desc.time, body := body, pack := pack }
  if !c.journals then c
  else if l.desc.lost then c.offer (w (make 0 0 0) none)
  else if !wanted then c.offer (w (make 0 0 1) none)
  else if form = 1 then c.offer (w (make raw.length 1 0 ++ raw) none)
  else if busy then Chan.offer (c.journalLoss K.RAW_MISSES) (w (make 0 0 2) none)
  else
    let q := l.raw.length
    let flat := if v.num K.RAW_FILTER = 1 then (diffCodes q codes).flatMap (leBytes 2) ++ bmp else raw
    c.offer (w (make 0 2 0) (some (raw, flat)))

/-- An entry whose line the compressor has ended (R359): it takes the payload, or the raw one where that is shorter. -/
def JrnWait.packed (w : JrnWait) : JrnWait :=
  match w.pack with
  | some (raw, flat) =>
    let z := deflateRaw flat
    let (form, pay) := if raw.length < z.length then (1, raw) else (2, z)
    { w with body := splice (listPut w.body 44 form) 40 (leBytes 4 pay.length) ++ pay, pack := none }
  | none => w

/-- The compressor ends the line it has taken, of which there is one at most (R359, R417). -/
def lineCompressed (c : Chan) : Chan :=
  if c.rushes.queue.any (·.pack.isSome) then
    Chan.drainAll ((c.modJrn fun s => { s with queue := s.queue.map JrnWait.packed }).mapN (·.add 64 K.RECORDER_JOBS 1))
  else c

/-- The EDGE entry of a position sample (R357): every 2^EDGE_LOG2-th counted edge, and every event of another kind. An edge whose entry is lost
counts as not journalled. -/
def edgeEntry (c : Chan) (kind time : Nat) (pos : Pos) (fine coarse : Int) (state active extrap : Nat) : Chan :=
  let c := if kind = 0 then c.modJrn fun r => { r with edges := r.edges + 1 } else c
  let s := c.rushes.skipped
  if !c.journals ∨ (kind = 0 ∧ c.rushes.edges % 2 ^ c.n.num K.EDGE_LOG2 ≠ 0) then
    if kind = 0 then c.modJrn fun r => { r with skipped := wrap 32 (s + 1) } else c
  else
    let d := c.offer
      { kind := 1, flags := 0, head := 0xFF, time := time,
        body := leBytes 8 (pos64 pos) ++ leBytes 4 (toBits 32 fine) ++ leBytes 4 (toBits 32 coarse) ++ [kind, state, active, extrap] ++
          leBytes 4 s }
    d.modJrn fun r => { r with skipped := if c.rushes.lost < r.lost then wrap 32 (s + b2n (kind == 0)) else 0 }

/-! ## Freezing (R364, R365) -/

/-- The checkpoints for which `p` holds leave the journal unwritten, and the entries behind them go on. -/
def ckptDrop (p : Pos → Bool) (c : Chan) : Chan :=
  Chan.drainAll (c.modJrn fun s =>
    { s with ckpts := s.ckpts.filter (!p ·.pos), queue := s.queue.filter fun w => !(match w.ckpt with | some x => p x | none => false) })

/-- The journal freezes for a cause: the FREEZE and CONFIG entries, then POST. In POST or FROZEN the cause is only counted. With POST_DEPTH 0
there is no POST for a checkpoint under capture to end in. -/
def freeze (c : Chan) (cause : Nat) : Chan :=
  match c.n.num K.FREEZE_STATE with
  | 1 =>
    let c := if c.n.num K.POST_DEPTH = 0 then c.ckptDrop fun _ => true else c
    let c := c.mapN fun n => ((n.putN K.FREEZE_STATE 2).putN K.FREEZE_CAUSE cause).putN K.FREEZE_POS (pos64 n.posn.pos)
    let c := Chan.mapN (c.modJrn fun s => { s with frozenAt := c.n.mono, post := 0, ending := false }) (·.setFlag K.RUSHES_FLAGS 0)
    let c := c.journal 0x0A (leBytes 8 (pos64 c.n.posn.pos) ++ [cause, 0, 0, 0] ++ leBytes 4 c.n.gen)
    let items := c.configItems
    c.journal 0x0B (leBytes 4 c.n.gen ++ leBytes 4 items.length ++ items.flatten)
  | 2 => c.mapN (·.inc K.FREEZE_EXTRA)
  | 3 => c.mapN (·.inc K.FREEZE_EXTRA)
  | _ => c

/-- Sources that became pending freeze the journal where FREEZE_ON names them (R364). -/
def freezeCauses (c : Chan) : Chan :=
  let on := (c.n.elems K.FREEZE_ON).filter (· != 0)
  let hits := c.n.fresh.filter on.contains
  let c := c.mapN fun n => { n with fresh := [] }
  hits.foldl Chan.freeze c

/-- The end of POST by position or time (R365), after the FREEZE and CONFIG entries, which POST writes (R364): where they still wait in the
queue, POST ends as CONFIG is written. With POST_DEPTH 0 POST ends at the CONFIG entry (`entryWrite`). -/
def postEnd (c : Chan) : Chan :=
  if c.n.num K.POST_DEPTH = 0 then c else
  let past : Bool := decide (toSigned 64 (c.n.num K.FREEZE_POS) + c.n.num K.POST_DEPTH < c.n.posn.pos)
  let late : Bool := decide (nsTicks (1000000 * c.n.num K.POST_TIME) ≤ c.n.mono - c.rushes.frozenAt)
  if c.n.num K.FREEZE_STATE = 2 ∧ (past || late) = true then
    if c.rushes.queue.any (fun w => w.kind == 0x0A || w.kind == 0x0B) then
      Chan.ckptDrop (fun _ => true) (c.modJrn fun s => { s with ending := true })
    else c.journalFrozen
  else c

/-- FREEZE_RELEASE: FROZEN returns to RECORDING with the ring empty (R364). -/
def freezeRelease (c : Chan) : Chan := if c.n.num K.FREEZE_STATE = 3 then Chan.mapN c.ringEmpty (·.putN K.FREEZE_STATE 1) else c

/-- A channel reset freezes a running journal where it stands (R47). -/
def journalReset (c : Chan) : Chan :=
  let c := if c.journals then c.mapN (·.putN K.FREEZE_STATE 3) else c
  c.modJrn fun s => { s with queue := [], ckpts := [], lastC := none, passed := [none, none, none, none], post := 0, ending := false }

/-! ## Checkpoints (R362, R363) -/

/-- A checkpoint is abandoned (R362). -/
def ckptFail (c : Chan) : Chan := c.mapN fun n => (n.inc K.CKPT_ABANDONED).setFlag K.RUSHES_FLAGS 2

/-- The checkpoints under capture at `p` are abandoned. -/
def ckptsFail (p : Pos → Bool) (c : Chan) : Chan :=
  Chan.ckptDrop p ((c.rushes.ckpts.filter (p ·.pos)).foldl (fun c _ => c.ckptFail) c)

/-- A state block (R363). -/
def stateBlock (block sel : Nat) (content : List Nat) : List Nat := leBytes 2 block ++ leBytes 2 sel ++ leBytes 4 content.length ++ content

/-- The statistics keys of a head in the order of its block, zone sums after the counts (R363). -/
def statKeys (h : Nat) : List Nat :=
  [K.HIST, K.ZONE_MEAN, K.ZONE_COUNT, K.STAT_SAMPLES, K.STAT_SATURATED, K.STAT_EXCLUDED, K.STAT_LINES, K.STAT_POS_FIRST, K.STAT_POS_LAST].map (ik · h)

/-- The blocks NR, PV and STATS of head `h` before a line of generation `gen` (R362). -/
def headBlocks (c : Chan) (h gen : Nat) : List Nat :=
  let nr := ((c.hfront h).store.mapIdx fun q p => stateBlock 1 (4 * h + q) (p.flatMap (leBytes 4))).flatten
  let pv := c.stk.pv.getD h {}
  let pvb := (pv.refs.mapIdx fun q p => stateBlock 2 (4 * h + q) ((p.mapIdx fun k (x : Bg) =>
    leBytes 3 x.b ++ leBytes 1 x.learn ++ leBytes 4 (pv.fc.getD k 0)).flatten)).flatten
  let g := (c.slate.stage 4).genIn gen
  let sums := (tabGet {} (c.loop h).stats g).sums
  let enc (k : Nat) : List Nat := match objInfo k with | some r => r.encodeVals (c.pubElems g k) | none => []
  let ks := statKeys h
  nr ++ pvb ++ stateBlock 6 (4 * h) ((ks.take 3).flatMap enc ++ sums.flatMap (leBytes 8) ++ (ks.drop 3).flatMap enc)

/-- The blocks BG, SEGPREV and BLOBS (R363). -/
def segBlocks (c : Chan) : List Nat :=
  let s := c.seg
  let bg := (s.bg.mapIdx fun q p => stateBlock 3 q ((p.mapIdx fun k (x : Bg) =>
    leBytes 3 x.b ++ leBytes 1 x.learn ++ leBytes 4 (s.fc.getD k 0 % 2 ^ 31 + b2n x.on * 2 ^ 31)).flatten)).flatten
  let prev := (s.lab.mapIdx fun k o =>
    let b : Option Blob := match o with | some u => s.blobs.find? (fun (x : Blob) => x.uid == u) | none => none
    leBytes 4 ((match b with | some x => x.slot | none => 65535) + 65536 * b2n (s.pcand.getD k false) +
      131072 * b2n (s.pdark.getD k false))).flatten
  let blobs := c.openBlobs.flatMap fun b => leBytes 4 b.slot ++ zeros 4 ++ blobBytes b
  bg ++ stateBlock 4 0 prev ++ stateBlock 5 0 blobs

/-- The crossfade counter of head `h`. -/
def fadeCount (c : Chan) (h : Nat) : Nat := match (c.hfront h).fade with | some f => f.j | none => 0

/-- The heads of the channel that a checkpoint needs. -/
def activeHeads (c : Chan) : List Nat := activeIn c.n.objs

/-- Blocks of a byte string of blocks that carry number `b`. -/
def blocksOf (b : Nat) : Nat → List Nat → List Nat
  | 0, _ => []
  | fuel + 1, l =>
    if l.length < 8 then [] else
      let n := 8 + field l 4 4
      (if field l 0 2 = b then l.take n else []) ++ blocksOf b fuel (l.drop n)

/-- The checkpoint entry (R363): the captures of the heads and the segmentation state. -/
def ckptEntry (c : Chan) (w : CkptWork) : List Nat :=
  let items := c.configItems.flatten
  let hb (b : Nat) : List Nat := w.heads.flatMap fun (_, _, _, l) => blocksOf b 16 l
  let j (h : Nat) : Nat := match w.heads.find? (·.1 == h) with | some x => x.2.2.1 | none => 0
  let t (h : Nat) : Nat := match w.heads.find? (·.1 == h) with | some x => x.2.1 | none => 0
  let counters := leBytes 4 c.seg.counter ++ leBytes 4 c.seg.sinceRec ++ ((List.range 4).flatMap fun h => leBytes 2 (j h)) ++ zeros 4
  let st := hb 1 ++ hb 2 ++ c.segBlocks ++ hb 6 ++ stateBlock 7 0 counters
  leBytes 8 (pos64 w.pos) ++ leBytes 4 w.gen ++ [0x21, 0] ++ leBytes 2 ((dfltOf 0x100006).headD 0) ++
  ((List.range 4).flatMap fun h => leBytes 2 (t h)) ++ leBytes 4 items.length ++ leBytes 4 st.length ++ items ++ st

/-- Head `h` is captured just before its capture line (R362): the line is the first at or above C less its lead for a C = j·Π. A line of an
ACQUIRE action below the head's highest position moves that mark nowhere. The CKPT entry takes its place in the journal at the first capture,
ahead of the capture lines, which a replay from it needs (R356, R368; DEDUCED, unsafe: log entry 1362). -/
def ckptHead (c : Chan) (h : Nat) (d : Desc) : Chan :=
  let last := (c.rushes.passed.getD h none)
  let high : Pos := match last with | some p => if d.timeTrig then max p d.pos else d.pos | none => d.pos
  let c := c.modJrn fun s => { s with passed := listPut s.passed h (some high) }
  let per := (c.viewIn 7 d.gen).num K.CKPT_PERIOD
  match last with
  | none => c
  | some p =>
    if !c.journals ∨ per = 0 then c else
      let v := c.viewIn 2 d.gen
      let pitch := v.num (ik K.LINE_PITCH h)
      let lead (x : Pos) : Int := (x - headDelay v h pitch + ((5 + v.num K.LOST_BRIDGE) * pitch : Nat)) / (per : Int)
      if lead d.pos ≤ lead p then c else
        let at_ : Pos := lead d.pos * per
        let mine := (h, d.num, c.fadeCount h, c.headBlocks h d.gen)
        if c.rushes.ckpts.any fun w => w.pos == at_ then
          c.modJrn fun s => { s with ckpts := s.ckpts.map fun w =>
            if w.pos = at_ ∧ (w.heads.any fun x => x.1 == h) = false then { w with heads := w.heads ++ [mine] } else w }
        else if (match c.rushes.lastC with | some x => decide (at_ ≤ x) | none => false) then c
        else
          let c := c.modJrn fun s => { s with lastC := some at_ }
          if c.slate.stages.any fun s => !s.sets.isEmpty then c.ckptFail
          else (c.modJrn fun s => { s with ckpts := s.ckpts ++ [{ pos := at_, gen := c.n.gen, heads := [mine] }] }).note (.ckpt at_)

/-- Just before the first output line at or above C the segmentation state is captured, and the checkpoint is written in its place (R362). -/
def ckptSeg (c : Chan) (y : Pos) : Chan :=
  (c.rushes.ckpts.filter fun w => decide (w.pos ≤ y)).foldl (fun c w =>
    if c.activeHeads.all fun h => w.heads.any fun x => x.1 == h then
      let body := c.ckptEntry w
      Chan.drainAll (c.modJrn fun s =>
        { s with ckpts := s.ckpts.filter (·.pos != w.pos),
                 queue := s.queue.map fun (x : JrnWait) => if x.ckpt = some w.pos then { x with ckpt := none, body := body } else x })
    else c.ckptsFail (· == w.pos)) c

/-! ## Commits, notes and publication -/

/-- What a commit does to the recorder (R354, R362, R364). -/
def rushesCommit (old : Node) (c : Chan) : Chan :=
  let c := c.ckptsFail fun _ => true
  let changed (k : Nat) : Bool := old.num k != c.n.num k
  let c := if changed K.RUSHES_ADDR || changed K.RUSHES_SIZE || changed K.RUSHES_ENABLE then c.ringEmpty else c
  let on : Bool := c.n.flag K.RUSHES_ENABLE && c.n.num K.RUSHES_SIZE != 0
  if !on then (if c.n.num K.FREEZE_STATE = 0 then c else
      (c.modJrn fun s => { s with queue := [] }).mapN (·.putN K.FREEZE_STATE 0))
  else if c.n.num K.FREEZE_STATE = 0 then c.mapN (·.putN K.FREEZE_STATE 1) else c

/-- The SLATE entry of a commit (R360): its kind, lateness, and the stages that folded it. -/
def slateEntry (c : Chan) (gen : Nat) (pos : Pos) (late : Int) (isLate timed : Bool) (fold : Nat) (items : Store) : Chan :=
  let next := (List.range 4).flatMap fun h => leBytes 2 (wrap 16 ((c.head h).num + 1))
  c.journal 4 (leBytes 4 gen ++ leBytes 8 (pos64 pos) ++ leBytes 8 (toBits 64 late) ++
    [b2n isLate + 2 * b2n timed + 4 * b2n (fold != 0), fold, 0, 0] ++ next ++ leBytes 4 items.length ++ zeros 4 ++
    items.flatMap fun (k, v) => c.objItem k v)

/-- The TIMEBASE entry of a servo sample, step or state change (R360). -/
def timeEntry (c : Chan) (kind : Nat) (theta step freq : Int) (state : Nat) : Chan :=
  if kind = 0 ∧ c.n.flag K.TB_SAMPLES = false then c else
    c.journal 3 (leBytes 8 (toBits 64 theta) ++ leBytes 8 (toBits 64 step) ++ leBytes 4 (toBits 32 freq) ++ [kind, state, 0, 0])

/-- The contexts that must publish generation `g` (R373). -/
def kActive (c : Chan) (g : Nat) : List Nat := (List.range 8).filter fun k => (c.viewIn 7 g).num (ik K.K_POINT k) != 0

/-- A published result is compared with the journal (R370). -/
def kCompare (c : Chan) (k g : Nat) : Chan :=
  let point := (c.viewIn 7 g).num (ik K.K_POINT k)
  let later : Bool := decide (0 < genOrder c.rushes.retake.gen g)
  if !c.replaying || !later || !(point == 2 || point == 3 || point == 4) then c else
    match c.rushes.retake.checks.find? fun e => e.1 == g && bit e.2.1 k with
    | none => c
    | some e =>
      let c := c.mapN (·.inc K.RETAKE_COMPARED)
      if e.2.2.1.getD k 0 = c.n.num (ik K.K_RESULT k) ∧ e.2.2.2.getD k 0 = c.n.num (ik K.K_BYTES k) then c
      else c.mapN fun n =>
        if n.num K.RETAKE_MISMATCH_K ≠ 0 then n
        else ((n.putN K.RETAKE_MISMATCH_GEN g).putN K.RETAKE_MISMATCH_K (2 ^ k)).setFlag K.RUSHES_FLAGS 3

/-- Context `k` publishes generation `g` (R373); with the last of them, source 120 and the CHECK entry. -/
def kPublish (c : Chan) (k g : Nat) : Chan :=
  let v := c.viewIn 7 g
  if v.num (ik K.K_POINT k) = 0 then c else
    let (w, _, init, _, rout, xo) := kParams v k
    let x := c.kctx k
    let (reg, bytes) := tabGet (init % 2 ^ w, 0) x.sums g
    let result := kResult w rout xo reg
    let y : KCtx := { sums := x.sums.filter (fun e => !genLe e.1 g), outs := tabIns x.outs g (result, bytes) }
    let c := c.modJrn fun s => { s with ks := listPut s.ks k y }
    let c := c.mapN fun n => ((n.putN (ik K.K_RESULT k) result).putN (ik K.K_BYTES k) bytes).putN (ik K.K_GEN k) g
    let c := c.kCompare k g
    let act := c.kActive g
    let out (j : Nat) : Option (Nat × Nat × Nat) := (c.kctx j).outs.find? (·.1 == g)
    if act.all fun j => (out j).isSome then
      let res (f : Nat × Nat × Nat → Nat) : List Nat :=
        (List.range 8).flatMap fun j => leBytes 8 (if act.contains j then ((out j).map f).getD 0 else 0)
      let body := leBytes 4 g ++ [act.foldl setBit 0, 0, 0, 0] ++ res (·.2.1) ++ res (·.2.2)
      let told (x : KCtx) : KCtx := { x with outs := x.outs.filter fun e => !genLe e.1 g }
      let c := c.modJrn fun s => { s with ks := s.ks.map told }
      (c.mapN (·.occur 120)).journal 8 body
    else c

/-- K_TEST runs the check string (R372). -/
def kTest (c : Chan) (k : Nat) : Chan :=
  c.mapN fun n => n.putN (ik K.K_TEST_RESULT k) (kCheck n.objs k [0x31, 0x32, 0x33, 0x34, 0x35, 0x36, 0x37, 0x38, 0x39])

/-- The recorder and the contexts take one event. -/
def takeNote (c : Chan) (x : Note) : Chan :=
  match x with
  | .entry 3 _ _ _ body =>
    if body.getD 20 0 = 0 ∧ c.n.flag K.TB_SAMPLES = false then c else c.offer { kind := 3, flags := 0, head := 0xFF, time := c.n.ns, body := body }
  | .entry kind flags head time body => c.offer { kind := kind, flags := flags, head := head, time := time, body := body }
  | .line l => c.lineEntry l
  | .edge kind time pos fine coarse state active extrap => c.edgeEntry kind time pos fine coarse state active extrap
  | .item point sel gen bytes => c.kItem point sel gen bytes
  | .ckpt pos => c.offer { kind := 9, flags := 0, head := 0xFF, time := c.n.ns, body := [], ckpt := some pos }

/-- The recorder takes the events of the step, then looks for a freeze cause. -/
def takeNotes (c : Chan) : Chan := Chan.freezeCauses (c.notes.foldl Chan.takeNote { c with notes := [] })

end Chan

end Sys2Proof.Machine
end

