-- ==== Sys2Proof/Machine/SlateEngine.lean ====
section
/-!
DEFINITION. The Slate in a channel (01 R34-R55, R591-R592): the naming checks, staging areas, a commit, the eight stages and the
publication of generations.
-/

namespace Sys2Proof.Machine

/-! ## Staging areas (R34-R36, R71) -/

/-- The staged entry of an object. -/
def stagedFind (l : List Staged) (k : Nat) : Option Staged := l.find? (·.key == k)

/-- A staged value takes its entry, new or in place of the one there (R35). -/
def stagePut (l : List Staged) (x : Staged) : List Staged :=
  if l.any (·.key == x.key) then l.map fun y => if y.key = x.key then x else y else l ++ [x]

/-- The values a Slate named now would bring: closed entries over the in-force values (R53). -/
def stagedView (d : Store) (l : List Staged) : Store := Store.overlay d ((l.filter (!·.isOpen)).map fun x => (x.key, x.val))

/-- A staged write of `k` finds the staging area full (R35). -/
def stageFull (l : List Staged) (k : Nat) : Bool := (stagedFind l k).isNone && decide (4096 ≤ l.length)

/-! ## The naming checks (R591) -/

/-- What a failed check counts: nothing, the rate budget (R53), or a BUDGET condition of R265. -/
inductive CheckKind
  | plain | rate | swath
deriving DecidableEq, Repr

/-- A naming check that fails: its error, the objects that enter it (R78), what it counts. -/
structure NamingFail where
  status : Status
  keys : List Nat
  kind : CheckKind := .plain
deriving DecidableEq, Repr

/-- S_h (R52). -/
def samplesOf (v : Store) (h : Nat) : Nat := v.num (ik K.LINE_LENGTH h) * fmtPlanes (v.num (ik K.PIX_FORMAT h))

/-- The rate budget in cycles per second (R52). -/
def rateBudget (v : Store) : Nat :=
  (activeIn v).foldl (fun s h => s + (cdiv (samplesOf v h) 16 + 2) * v.elem K.HEAD_RATE_MAX h) (cdiv (v.num K.AUX_RATE_MAX) 16)

/-- The used taps of a head tile its columns (R155): from column `x`, with `fuel` taps left to place. -/
def tapsTile (taps : List (Nat × Nat)) (len : Nat) : Nat → Nat → Bool
  | 0, x => x == len
  | fuel + 1, x =>
    match taps.find? (fun t => t.1 == x && t.2 != 0) with
    | some t => tapsTile taps len fuel (x + t.2)
    | none => false

/-- The tiling check of head `h` (R155). -/
def tilingOk (v : Store) (h : Nat) : Bool :=
  let n := v.num (ik K.TAP_COUNT h)
  let taps := (List.range n).map fun t => (v.elem (ik K.TAP_START h) t, v.elem (ik K.TAP_LEN h) t)
  taps.all (fun t => t.2 != 0) && tapsTile taps (v.num (ik K.LINE_LENGTH h)) n 0

/-- A phase bank sums to 16,384 in every phase (R265). -/
def coefsOk (v : Store) (k taps : Nat) : Bool := (List.range 64).all fun ph => (phaseCoefs v k taps ph).foldl (· + ·) 0 == 16384

/-- Neighbouring knots of a head's map. -/
def knotSteps (v : Store) (h : Nat) : List Int :=
  (List.range (v.num (ik K.MAP_KNOTS h) - 1)).map fun i => v.sintE 32 (ik K.MAP_COL h) (i + 1) - v.sintE 32 (ik K.MAP_COL h) i

/-- No swath pixel is covered by three or more active heads (R265). -/
def coverOk (v : Store) : Bool :=
  let act := activeIn v
  act.length < 3 || (List.range (v.num K.SWATH_WIDTH)).all fun n => decide ((act.filter fun h => (coverAt v h n).isSome).length < 3)

/-- The condition fields of rule `r` that R310 turns away: those of an ENABLEd rule whose code is not 0, "unused" (DEDUCED, unsafe: log
entry 1310). -/
def ruleBad (rules : List Nat) (r : Nat) : Bool :=
  bit (rules.getD (48 * r) 0) 0 && (List.range 4).any fun j =>
    let o := 48 * r + 4 + 10 * j
    let code := rules.getD o 0
    code != 0 && (decide (16 < code) || decide (toSigned 32 (field rules (o + 6) 4) < toSigned 32 (field rules (o + 2) 4)))

/-- The largest crop in bytes (R320, R321). -/
def cropMax (v : Store) : Nat :=
  let row := min (v.num K.CROP_MAX_COLS) (v.num K.SWATH_WIDTH) * swathPlanes v
  cdiv (64 + v.num K.CROP_MAX_LINES * (2 * row + (if v.flag K.CROP_FLAGS then cdiv row 2 else 0))) 64 * 64

/-- The keys of an object in every head. -/
def perHead (ks : List Nat) : List Nat := (List.range 4).flatMap fun h => ks.map (ik · h)

/-- The geometry objects that enter the sizes of R256 and R260. -/
def sizeKeys : List Nat :=
  [K.HEAD_RATE_MAX, K.OUT_PITCH, K.XW_PITCH, K.XW_ORIGIN, K.SWATH_WIDTH, K.LOST_BRIDGE] ++
  perHead [K.LINE_PITCH, K.LINE_LENGTH, K.PIX_FORMAT, K.DW_DELAY_INT, K.DW_DELAY_FRAC, K.MAP_X0, K.MAP_DX, K.MAP_KNOTS, K.MAP_COL, K.COVER]

/-- The checks of R265; `now` is the in-force configuration. -/
def geoFails (now v : Store) : List NamingFail :=
  let act := activeIn v
  let po := v.num K.OUT_PITCH
  let pitch (h : Nat) := v.num (ik K.LINE_PITCH h)
  let bad (p : Bool) (f : NamingFail) : List NamingFail := if p then [f] else []
  let z := geoSizes v
  let z0 := geoSizes now
  bad (decide (po ≤ v.num K.OUT_PHASE)) ⟨.range, [K.OUT_PHASE, K.OUT_PITCH], .plain⟩ ++
  bad (match act with
    | [] => false
    | h0 :: _ => decide (po < act.foldl (fun m h => min m (pitch h)) (pitch h0)) || act.any fun h => decide (4 * pitch h < po))
    ⟨.range, K.HEAD_RATE_MAX :: K.OUT_PITCH :: perHead [K.LINE_PITCH], .plain⟩ ++
  bad (act.any fun h => act.any fun i => fmtPlanes (v.num (ik K.PIX_FORMAT h)) != fmtPlanes (v.num (ik K.PIX_FORMAT i)))
    ⟨.range, K.HEAD_RATE_MAX :: perHead [K.PIX_FORMAT], .plain⟩ ++
  act.flatMap (fun h =>
    bad (!coefsOk v (ik K.DW_COEF h) 8) ⟨.range, [K.HEAD_RATE_MAX, ik K.DW_COEF h], .plain⟩ ++
    bad (!coefsOk v (ik K.XW_COEF h) 6) ⟨.range, [K.HEAD_RATE_MAX, ik K.XW_COEF h], .plain⟩ ++
    bad (!((knotSteps v h).all (fun d => decide (0 < d)) || (knotSteps v h).all (fun d => decide (d < 0))))
      ⟨.range, [K.HEAD_RATE_MAX, ik K.MAP_COL h, ik K.MAP_KNOTS h], .plain⟩ ++
    bad ((knotSteps v h).any fun d => decide (4 * 65536 * 1000 * v.num (ik K.MAP_DX h) < d.natAbs * v.num K.XW_PITCH))
      ⟨.range, [K.HEAD_RATE_MAX, K.XW_PITCH, ik K.MAP_COL h, ik K.MAP_KNOTS h, ik K.MAP_DX h], .plain⟩) ++
  bad (!coverOk v) ⟨.range, sizeKeys, .plain⟩ ++
  bad (decide (v.num K.ALIGN_SIZE < z.need) ||
      ((z.hold != z0.hold || z.cover != z0.cover) && decide (v.num K.ALIGN_SIZE < z0.need + z.need)))
    ⟨.range, K.ALIGN_SIZE :: sizeKeys, .plain⟩ ++
  bad (decide (v.num K.ALIGN_BW_LIMIT < z.traffic)) ⟨.budget, sizeKeys, .swath⟩ ++
  bad (decide (1187500000 < z.budget)) ⟨.budget, sizeKeys, .swath⟩

/-- The naming checks of a channel that fail for a configuration, in the order of R591. Of the points R591 leaves open: a grow threshold
above a seed threshold of 0, which means none, does not fail R298 (DESIGN CHOICE, unsafe: log entry 1298); PRE_DEPTH 0 passes R365 whatever
RUSHES_SIZE is (DEDUCED, unsafe: log entry 1365); EXPO_SET is held to EXPO_MAX_EFF only for a head with HEAD_RATE_MAX non-zero, without
which R284 gives no limit (DEDUCED, unsafe: log entry 30). -/
def namingFails (now v : Store) : List NamingFail :=
  let act := activeIn v
  let h4 := List.range 4
  let bad (p : Bool) (f : NamingFail) : List NamingFail := if p then [f] else []
  let linkPairs (l : Nat) : Nat :=
    h4.foldl (fun s h => if v.num (ik K.HEAD_INPUT h) = 2 ∧ v.num (ik K.HEAD_LINK h) = l then s + v.num (ik K.TAP_COUNT h) else s) 0
  let ents (h : Nat) : Nat :=
    cdiv (v.num (ik K.LINE_LENGTH h)) (2 ^ v.num (ik K.TBL_DECIM h)) * fmtPlanes (v.num (ik K.PIX_FORMAT h))
  let sum (hs : List Nat) : Nat := hs.foldl (fun s h => s + 2 * samplesOf v h * v.elem K.HEAD_RATE_MAX h) 0
  let raw := sum (h4.filter fun h => bit (v.num K.RAW_HEADS) h)
  bad (decide (1187500000 < rateBudget v)) ⟨.budget, [K.HEAD_RATE_MAX, K.AUX_RATE_MAX] ++ perHead [K.LINE_LENGTH, K.PIX_FORMAT], .rate⟩ ++
  act.flatMap (fun h => bad (!tilingOk v h)
    ⟨.range, [K.HEAD_RATE_MAX, ik K.TAP_COUNT h, ik K.TAP_START h, ik K.TAP_LEN h, ik K.LINE_LENGTH h], .plain⟩) ++
  bad ((List.range 8).any fun l => decide (8 < linkPairs l)) ⟨.range, perHead [K.HEAD_INPUT, K.HEAD_LINK, K.TAP_COUNT], .plain⟩ ++
  act.flatMap (fun h => bad (v.flag (ik K.CORR_ENABLE h) && decide (65536 < v.num (ik K.TBL_BASE h) + ents h))
    ⟨.range, K.HEAD_RATE_MAX :: [K.CORR_ENABLE, K.TBL_BASE, K.TBL_DECIM, K.LINE_LENGTH, K.PIX_FORMAT].map (ik · h), .plain⟩) ++
  h4.flatMap (fun h => bad (decide (v.sintE 16 (ik K.TEMP_ANCHOR h) 1 < v.sintE 16 (ik K.TEMP_ANCHOR h) 0)) ⟨.range, [ik K.TEMP_ANCHOR h], .plain⟩) ++
  geoFails now v ++
  h4.flatMap (fun h => bad (v.num (ik K.LOOP_MODE h) == 1 &&
      (decide (Chan.expoMaxEff v h < v.num (ik K.EXPO_MIN h)) || decide (v.num (ik K.GAIN_MAX h) < v.num (ik K.GAIN_MIN h)) ||
       (List.range 2).any fun i => v.num (ik K.ILL_OWNER i) == h && decide (v.num (ik K.DUTY_MAX i) < v.num (ik K.DUTY_MIN i))))
    ⟨.range, K.HEAD_RATE_MAX :: [K.LOOP_MODE, K.EXPO_MIN, K.EXPO_MAX, K.EXPO_GUARD, K.EXPO_UNIT, K.GAIN_MIN, K.GAIN_MAX].map (ik · h) ++
      (List.range 2).flatMap (fun i => [K.ILL_OWNER, K.DUTY_MIN, K.DUTY_MAX].map (ik · i)), .plain⟩) ++
  [(K.SEED_BRIGHT, K.GROW_BRIGHT), (K.SEED_DARK, K.GROW_DARK)].flatMap (fun (s, g) =>
    bad (v.num s != 0 && decide (v.num s < v.num g)) ⟨.range, [s, g], .plain⟩) ++
  bad ((List.range 256).any (ruleBad (v.elems K.RULES))) ⟨.range, [K.RULES], .plain⟩ ++
  bad ((v.elems K.CLASS_CTRL).any (fun x => bit x 1) && decide (v.num K.CROP_RING_SIZE < 64 + cropMax v))
    ⟨.range, [K.CLASS_CTRL, K.CROP_RING_SIZE, K.CROP_MAX_LINES, K.CROP_MAX_COLS, K.CROP_FLAGS, K.SWATH_WIDTH, K.HEAD_RATE_MAX] ++
      perHead [K.PIX_FORMAT], .plain⟩ ++
  bad (v.num K.HIST_LINES != 0 && decide (v.num K.MEM_CAPACITY < v.num K.HIST_ADDR + v.num K.HIST_LINES * histStride v))
    ⟨.range, [K.HIST_LINES, K.HIST_ADDR, K.SWATH_WIDTH, K.HEAD_RATE_MAX] ++ perHead [K.PIX_FORMAT], .plain⟩ ++
  h4.flatMap (fun h => [(K.PV_BRIGHT, K.SEED_BRIGHT), (K.PV_DARK, K.SEED_DARK)].flatMap fun (p, s) =>
    bad (v.flag (ik K.PV_ENABLE h) && v.num (ik p h) != 0 && v.num s != 0 && decide (v.num (ik p h) < v.num s))
      ⟨.range, [ik K.PV_ENABLE h, ik p h, s], .plain⟩) ++
  h4.flatMap (fun o =>
    let r := v.num (ik K.STK_RECALL_OUT o)
    bad (r != 0xFF && (r == o || v.num (ik K.STK_MODE r) != 2)) ⟨.range, [ik K.STK_RECALL_OUT o, ik K.STK_MODE r], .plain⟩ ++
    bad (v.num (ik K.STK_LEAD o) != 0 && decide (v.num (ik K.STK_LEAD o) < v.num (ik K.STK_GUARD o)))
      ⟨.range, [ik K.STK_LEAD o, ik K.STK_GUARD o], .plain⟩) ++
  bad ((v.elems K.STK_CLASS_POLICY).any fun x => h4.any fun o => bits x (2 * o + 1) (2 * o) == 3) ⟨.range, [K.STK_CLASS_POLICY], .plain⟩ ++
  bad (raw != 0 && decide (v.elem K.RAW_BW_LIMIT (if v.num K.RAW_FORM = 1 then 0 else 1) < raw))
    ⟨.budget, [K.RAW_HEADS, K.RAW_FORM, K.HEAD_RATE_MAX] ++ perHead [K.LINE_LENGTH, K.PIX_FORMAT], .plain⟩ ++
  bad (v.num K.PRE_DEPTH != 0 && decide (v.num K.RUSHES_SIZE ≤ v.num K.PRE_DEPTH)) ⟨.range, [K.PRE_DEPTH, K.RUSHES_SIZE], .plain⟩ ++
  (List.range 8).flatMap (fun k => bad (v.num (ik K.K_PRESET k) == 0 &&
      [K.K_POLY, K.K_INIT, K.K_XOROUT].any fun x => decide (2 ^ v.num (ik K.K_WIDTH k) ≤ v.num (ik x k)))
    ⟨.range, [K.K_PRESET, K.K_WIDTH, K.K_POLY, K.K_INIT, K.K_XOROUT].map (ik · k), .plain⟩) ++
  h4.flatMap (fun h => bad (decide (v.num (ik K.LINE_PITCH h) ≤ v.num (ik K.LINE_PHASE h))) ⟨.range, [ik K.LINE_PITCH h, ik K.LINE_PHASE h], .plain⟩) ++
  h4.flatMap (fun h => bad (decide (v.num (ik K.EXPO_SET h) < v.num (ik K.EXPO_MIN h)) ||
      (act.contains h && decide (Chan.expoMaxEff v h < v.num (ik K.EXPO_SET h))))
    ⟨.range, K.HEAD_RATE_MAX :: [K.EXPO_SET, K.EXPO_MIN, K.EXPO_MAX, K.EXPO_GUARD, K.EXPO_UNIT].map (ik · h), .plain⟩) ++
  h4.flatMap (fun h => bad (v.num (ik K.HEAD_INPUT h) == 2 && decide (3 < v.num (ik K.SOURCE_ID h))) ⟨.range, [ik K.HEAD_INPUT h, ik K.SOURCE_ID h], .plain⟩) ++
  (List.range 8).flatMap (fun k => bad (v.num (ik K.K_POINT k) == 2 && decide (3 < v.num (ik K.K_SEL k))) ⟨.range, [ik K.K_POINT k, ik K.K_SEL k], .plain⟩)

namespace Chan

/-- The configuration of the channel with its staged values (R53), and with further values over it. -/
def wouldBe (c : Chan) (extra : Store) : Store := Store.overlay (stagedView c.n.objs c.slate.staged) extra

/-- What a rejection under R53 or R265 counts and logs in this channel (R488); `arg`: the index of the rejected object, 0 for a naming. -/
def countRejects (c : Chan) (fails : List NamingFail) (arg : Nat) : Chan :=
  let c := if fails.any (·.kind == .rate) then c.mapN fun n => (n.inc K.BUDGET_REJECTS).event 0x201 arg else c
  (fails.filter (·.kind == .swath)).foldl (fun c _ => c.mapN fun n => (n.inc K.SWATH_BUDGET_REJECTS).event 0x202 0) c

/-! ## Commit (R42-R48) -/

/-- A stage takes a new in-flight set; a full one folds it into its newest (R45). The stage and whether it folded. -/
def pushSet (st : Stage) (x : InFlight) : Stage × Bool :=
  if st.sets.length < 4 then ({ st with sets := st.sets ++ [x] }, false)
  else
    match st.sets.reverse with
    | [] => ({ st with sets := [x] }, false)
    | last :: before =>
      ({ st with sets := before.reverse ++
          [{ gen := x.gen, pos := x.pos, firstGen := last.firstGen, entries := Store.overlay last.entries x.entries }] }, true)

/-- Every pin of the channel drives or is high-impedance (R535, R536). -/
def pinsDrive (c : Chan) (on : Bool) : Chan :=
  { c with input := { c.input with pins := c.input.pins.map fun (p : TrgPin) => { p with driven := on } },
           stk := { c.stk with pins := c.stk.pins.map fun (p : StkPin) => { p with driven := on } },
           expo := { c.expo with ill := c.expo.ill.map fun (p : IllOut) => { p with driven := on } } }

/-- Sets of a generation put into the eight stages; the mask of those that folded. -/
def pushAll (c : Chan) (x : InFlight) : Chan × Nat :=
  let r := c.slate.stages.map fun st => pushSet st x
  let mask := (r.mapIdx fun i p => if p.2 then 2 ^ i else 0).foldl (· + ·) 0
  let folds := (r.filter (·.2)).length
  let c := { c with slate := { c.slate with stages := r.map (·.1) } }
  ((List.range folds).foldl (fun c _ => c.mapN fun n => (n.inc K.SLATE_FOLDS).event 0x207 x.gen) c, mask)

/-- What follows in every part of a channel once new values are committed, with the web position at `p`: `old` is the unit before. -/
def afterCommit (c : Chan) (old : Node) (pos p : Pos) : Chan :=
  let c := c.pinsCommit.auxCommit old
  let c := (List.range 4).foldl (fun c h => c.genCommit old p h) c
  let c := c.geoCommit old pos
  let c := c.exposureCommit old
  let c := c.strikeCommit old
  let c := if old.num K.C_LRING_ADDR = c.n.num K.C_LRING_ADDR ∧ old.num K.C_LRING_SIZE = c.n.num K.C_LRING_SIZE then c
    else c.mapN fun n => (n.putN K.C_LRING_WR 0).putN K.C_LRING_RD 0
  if c.power.started then c else c.pinsDrive false

/-! ## Application at the stages (R45) -/

/-- A head line has passed the front end. -/
def frontPassed (l : HeadLine) : Bool := l.front.isSome

/-- No line issued under a generation before `g` satisfies `p`, and no lost point of one waits (R529). -/
def noneBefore (c : Chan) (g : Nat) (p : HeadLine → Bool) : Bool :=
  c.input.heads.all fun x => (x.lines.all fun l => genLe g l.desc.gen || !p l) && x.losses.all fun r => genLe g r.gen

/-- The position of the next output line, where one is to come. -/
def nextY (c : Chan) : Option Pos :=
  let s2 := c.slate.stage 2
  if (activeIn s2.base).isEmpty ∧ s2.sets.all (fun s => (activeIn (s2.viewIn s.gen)).isEmpty) then none
  else (match c.geo.lastY with | some y => some (y + 1) | none => c.firstOut c.n.objs).map fun lo => (nextOut lo s2.base s2.sets).1

/-- A part of the channel that publishes on its own. -/
def partNo : Part → Nat
  | .input => 0 | .front => 1 | .stats h => 2 + h.val | .geometry => 6 | .seg => 7 | .strike => 8 | .check k => 9 + k.val | .lmon i => 17 + i.val

/-- The part a published object belongs to. -/
def partOf (k : Nat) : Option Nat :=
  let b := baseIndex (k / 256)
  if b = 0x8120 then some 0
  else if b = 0x8210 then some 1
  else if b = 0x8388 then some (2 + (k / 256 - 0x8388))
  else if b = 0x8300 ∨ b = 0x8310 then some 6
  else if b = 0x8420 then some 7
  else if b = 0x8500 ∨ b = 0x8508 ∨ b = 0x8520 then some 8
  else if b = 0x8588 then some (9 + (k / 256 - 0x8588))
  else if b = 0x83A8 then some (17 + (k / 256 - 0x83A8))
  else none

/-- The published objects of a part. -/
def partKeys (p : Nat) : List Nat := (chanRows.filter fun (k, r) => r.published && partOf k == some p).map (·.1)

/-- The newest generation a part has published. -/
def newestOf (c : Chan) (p : Nat) : Option Nat :=
  match tabGet 0 c.slate.pub.newest p with
  | 0 => none
  | g + 1 => some g

/-- The DICT entry of an accepted direct write (R360). NEXT_Y is the next output line; with no head active no line comes, and it is free. -/
def dictEntry (c : Chan) (k : Nat) (val : List Nat) : Chan :=
  let next := (List.range 4).flatMap fun h => leBytes 2 (wrap 16 ((c.head h).num + 1))
  match c.nextY with
  | some y => c.journal 5 (leBytes 8 (pos64 y) ++ next ++ c.objItem k val)
  | none =>
    let (x, n) := c.n.takeFree 64
    Chan.journal { c with n := n } 5 (leBytes 8 x ++ next ++ c.objItem k val)

/-- The next generation a part is to publish, and the commit that ended it. -/
def nextPub (c : Chan) (p : Nat) : Option (Nat × Nat) :=
  let gens := c.slate.marks.map (·.1)
  let gens := match c.newestOf p with
    | none => if gens.contains 0 then gens else 0 :: gens
    | some g => gens.filter fun x => decide (0 < genOrder g x)
  match gens with
  | g :: e :: _ => some (g, e)
  | _ => none

/-- Every generation before `g` that the check-value contexts in force must publish is published (R373). -/
def checksOut (c : Chan) (g : Nat) : Bool :=
  (List.range 8).all fun k => (c.slate.stage 7).base.num (ik K.K_POINT k) == 0 ||
    (match c.nextPub (9 + k) with | some (x, _) => genLe g x | none => true)

/-- The last line before the boundary of a stage's oldest set has left the stage, or none is there or waits for it. A set of the output side
keeps waiting for its boundary through a sleep: R47 applies each in-flight set before the first line after wake, R44 and R50 keep lines below
the boundary under the old generation (DESIGN CHOICE, unsafe: log entry 2047). -/
def boundaryPassed (c : Chan) (k : Nat) (x : InFlight) : Bool :=
  match k with
  | 0 => c.noneBefore x.gen (!frontPassed ·)
  | 1 => c.noneBefore x.gen (!frontPassed ·)
  | 4 => c.noneBefore x.gen (!frontPassed ·)
  | 7 => c.noneBefore x.gen (fun _ => true) && c.checksOut x.gen
  | 5 => genLe x.gen (c.slate.stage 3).gen && c.geo.out.all fun l => decide (x.pos ≤ l.y)
  | 6 => genLe x.gen (c.slate.stage 5).gen
  | _ => match c.nextY with | some y => decide (x.pos ≤ y) | none => true

/-- IN_FLIGHT_SET_APPLY: stage `k` applies its oldest set. -/
def applySet (c : Chan) (k : Nat) : Chan :=
  let st := c.slate.stage k
  match st.sets with
  | [] => c
  | x :: rest =>
    if c.boundaryPassed k x then
      let c := match k with
        | 1 => c.pvSee x
        | 5 => c.segSee x
        | _ => c
      let st : Stage := { gen := x.gen, base := x.entries.foldl (fun d (j, v) => storePut d j v) st.base, sets := rest }
      let was := (c.slate.stage k).base
      let c := { c with slate := { c.slate with stages := listPut c.slate.stages k st } }
      match k with
      | 0 => c.fadeIdle
      | 3 => c.ringSwitch was
      | 6 => c.recApply was
      | _ => c
    else c

/-! ## Publication (R50, R277, R373) -/

/-- The last line of the generations before `e` has left the part's stage. -/
def partPassed (c : Chan) (p g e : Nat) : Bool :=
  let at_ (k : Nat) : Bool := genLe e (c.slate.stage k).gen
  if p = 0 then c.noneBefore e (fun _ => true)
  else if p = 1 then at_ 0
  else if p < 6 then at_ 4
  else if p = 6 then at_ 3
  else if p = 7 then at_ 5
  else if p = 8 then true
  else if p < 17 then
    (match (c.viewIn 7 g).num (ik K.K_POINT (p - 9)) with
     | 2 => at_ 0
     | 3 => at_ 5
     | 4 => at_ 5 && c.seg.held.all fun r => r.bytes.isEmpty || genLe e (field r.bytes 0 4)
     | _ => true)
  else at_ 4 && (c.mon (p - 17)).due.all fun d => genLe e d.2

/-- The counts of generation `g` of the objects of a part replace the ones published before (R50). -/
def publishKeys (c : Chan) (ks : List Nat) (g : Nat) : Chan :=
  let t := tabGet [] c.slate.pub.building g
  let c := c.mapN fun n => ks.foldl (fun n k => n.put k (storeGet t k)) n
  let left := ks.foldl (fun t k => tabDel t k) t
  { c with slate := { c.slate with pub := { c.slate.pub with building := tabPut [] c.slate.pub.building g left } } }

/-- The snapshot that a part is about to replace is kept for SNAPSHOT (R69). -/
def keepPub (c : Chan) (p : Nat) : Chan :=
  let old : Store := (partKeys p).foldl (fun d k => storePut d k (c.n.elems k)) []
  let pub := c.slate.pub
  { c with slate := { c.slate with pub := { pub with kept := pub.kept ++ [(p, (c.newestOf p).getD 0, old)] } } }

/-- The oldest among the newest published generations of the parts (R69). -/
def pubFloor (c : Chan) : Nat := (List.range 19).foldl (fun g p => let x := (c.newestOf p).getD 0; if genLe x g then x else g) ((c.newestOf 0).getD 0)

/-- Kept snapshots of generations before `g` are given up. -/
def dropKept (c : Chan) (g : Nat) : Chan :=
  let pub := c.slate.pub
  { c with slate := { c.slate with pub := { pub with kept := pub.kept.filter fun x => genLe g x.2.1 } } }

/-- GENERATION_PUBLISH of a part. -/
def publish (c : Chan) (part : Part) : Chan :=
  let p := partNo part
  match c.nextPub p with
  | none => c
  | some (g, e) =>
    if c.partPassed p g e then
      let c := c.keepPub p
      let c := { c with slate := { c.slate with pub := { c.slate.pub with newest := tabIns c.slate.pub.newest p (g + 1) } } }
      match part with
      | .stats h =>
        let c := (c.statPublish h.val g).publishKeys (partKeys p) g
        c.statsAll h.val g fun i => match c.newestOf (2 + i) with | some x => genLe g x | none => false
      | .check k => c.kPublish k.val g
      | .lmon i => c.lmonPublish i.val g
      | _ => c.publishKeys (partKeys p) g
    else c

/-- What is published at the commit that ends a generation: the provisional counters (R352), and the contexts at the points LANE, JOURNAL
and DMA (R373), where no older generation of theirs still waits. -/
def commitPublish (c : Chan) : Chan :=
  (List.finRange 8).foldl (fun c k =>
    match c.nextPub (9 + k.val) with
    | some (g, _) => if [0, 1, 5, 6].contains ((c.viewIn 7 g).num (ik K.K_POINT k.val)) then c.publish (.check k) else c
    | none => c) (c.publish .strike)

/-- The Slate broadcast reaches the channel (R42, R44, R47): its staged entries become the in-flight set of generation `gen`, with the
web position at `p`. A channel in reset or in replay takes none. -/
def commit (c : Chan) (gen : Nat) (pos : Pos) (late : Int) (isLate timed : Bool) (p : Pos) : Chan :=
  if c.inReset then c
  else if c.replaying then c
  else
    let items : Store := (c.slate.staged.filter (!·.isOpen)).map fun x => (x.key, x.val)
    let old := c.n
    let c := { c with
      n := { c.n with objs := items.foldl (fun d (k, v) => storePut d k v) c.n.objs, gen := gen },
      slate := { c.slate with staged := c.slate.staged.filter (·.isOpen), started := true, marks := c.slate.marks ++ [(gen, pos)] } }
    let last := (c.slate.stage 2).sets.getLast?
    let (c, mask) := c.pushAll { gen := gen, pos := pos, firstGen := gen, entries := items }
    let c := match last with
      | some x => if bit mask 2 || bit mask 3 then c.geoFold x.pos pos else c
      | none => c
    let c := c.afterCommit old pos p
    (Chan.slateEntry (c.rushesCommit old) gen pos late isLate timed mask items).commitPublish

end Chan

end Sys2Proof.Machine
end

