-- ==== Sys2Proof/Machine/WebEngine.lean ====
section
/-!
DEFINITION. The web-position engine of chapter 03 over the encoder block and its unit: counting, motion, speed and extrapolation, failover,
deviation, divided outputs. Positions are in units of 2^-32 nm, times in 2^-16 ns.
-/

namespace Sys2Proof.Machine

/-- The encoder block with the common unit it reports through. -/
abbrev EncNode := Node × EncBlock

/-- Object `sub` of encoder `i` (R108). -/
def encKey (i sub : Nat) : Nat := 0x200000 + 4096 * i + sub
/-- Object `sub` of divided output `m` (R125). -/
def outKey (m sub : Nat) : Nat := 0x209000 + 256 * m + sub

/-- A position modulo 2^64 nm, as the accumulator of R114 holds it. -/
def wrapAcc (x : Int) : Int := toSigned 96 (toBits 96 x)

/-- POS64 of an accumulator: the integer part, rounded toward minus infinity (R114). -/
def accPos (x : Int) : Pos := x / 4294967296

namespace EncBlock
/-- Encoder `i`. -/
def enc (e : EncBlock) (i : Nat) : Encoder := e.encs.getD i {}
/-- Give encoder `i` its state. -/
def putEnc (e : EncBlock) (i : Nat) (x : Encoder) : EncBlock := { e with encs := listPut e.encs i x }
/-- Divided output `m`. -/
def out (e : EncBlock) (m : Nat) : DivOut := e.outs.getD m {}
/-- Give divided output `m` its state. -/
def putOut (e : EncBlock) (m : Nat) (x : DivOut) : EncBlock := { e with outs := listPut e.outs m x }
end EncBlock

/-- An encoder that is on and not faulty (R115). -/
def encUsable (n : Node) (i : Nat) : Bool := n.num (encKey i 1) != 0 && !n.bitOf (encKey i 0x0D) 4

/-- The primary encoder. -/
def wpPrimary (n : Node) : Option Nat := if n.num K.WP_PRIMARY < 8 then some (n.num K.WP_PRIMARY) else none
/-- The secondary encoder; one equal to the primary counts as none (R116). -/
def wpSecondary (n : Node) : Option Nat :=
  if n.num K.WP_SECONDARY < 8 ∧ n.num K.WP_SECONDARY ≠ n.num K.WP_PRIMARY then some (n.num K.WP_SECONDARY) else none

/-- The device is a member of a ring in RING or CHAIN: the web position it reports is the root's (R114, R554). -/
def ringMember (n : Node) : Bool := (n.num K.BW_STATE == 2 || n.num K.BW_STATE == 3) && !n.flag K.BW_IS_ROOT

/-- ISOLATED without BW_FALLBACK: the position holds in NO_SOURCE, whatever is usable (R558). -/
def wpHeld (n : Node) : Bool := n.num K.BW_STATE == 4 && !n.flag K.BW_FALLBACK

/-- The active encoder (R116). -/
def wpActive (n : Node) (e : EncBlock) : Option Nat :=
  match e.wp.src with
  | .onPrimary => wpPrimary n
  | .onSecondary => wpSecondary n
  | .noSource => none

/-- The other selected encoder. -/
def wpOther (n : Node) (e : EncBlock) : Option Nat :=
  match e.wp.src with
  | .onPrimary => wpSecondary n
  | .onSecondary => wpPrimary n
  | .noSource => none

/-! ## Speed and extrapolation (R111-R113) -/

/-- Ticks from the previous edge to the last one; at least 1. -/
def Encoder.interval (x : Encoder) : Nat := max 1 (since x.te x.tp)

/-- The interval the coarse speed is reported over at time `t` (R111). -/
def Encoder.coarseOver (x : Encoder) (t : Stamp) : Nat := max x.interval (since t x.te)

/-- The edge the fine speed counts from (R112): the oldest of the run within the window, else the previous one. -/
def Encoder.fineEdge (x : Encoder) (window : Nat) : Int × Stamp :=
  match x.run with
  | [] => (x.acc, x.te)
  | [_] => (x.acc, x.te)
  | _ :: prev :: more => ((prev :: more).filter fun (_, t) => decide (since x.te t ≤ window)).getLastD prev

/-- Travel at the coarse speed in `d` ticks, at the coarse speed reported after them. -/
def Encoder.coarseTravel (x : Encoder) (scale d : Nat) : Nat := scale * d / x.coarseOver (x.te + d)

/-- Travel in `d` ticks at the fine speed, bounded by the coarse speed (R112). -/
def Encoder.fineTravel (x : Encoder) (scale window d : Nat) : Nat :=
  let (p0, t0) := x.fineEdge window
  min ((x.acc - p0).natAbs * d / max 1 (since x.te t0)) (x.coarseTravel scale d)

/-- The encoder's position at time `t` (R113): the latched position, moved by the chosen speed in MOVING, clipped one nanometre short
of the next count, and never back against the motion. -/
def encPosAt (n : Node) (x : Encoder) (i : Nat) (t : Stamp) : Int :=
  match x.motion with
  | .moving =>
    let scale := n.num (encKey i 4)
    let d := since t x.te
    let go : Nat :=
      match n.num K.EXTRAP_SOURCE with
      | 0 => x.fineTravel scale (nsTicks (n.num K.FINE_WINDOW)) d
      | 1 => x.coarseTravel scale d
      | _ => 0
    let go := min go (scale - 4294967296)
    let p := if x.upstream then x.acc - go else x.acc + go
    match x.far with
    | none => p
    | some f => if x.upstream then min f p else max f p
  | _ => x.acc

/-- Coarse speed of an encoder in µm/s, rounded toward zero, with the sign of the reported direction (R111). -/
def encCoarse (n : Node) (x : Encoder) (i : Nat) : Int :=
  match x.motion with
  | .moving =>
    let v := n.num (encKey i 4) * 1000000 / (65536 * x.coarseOver n.now)
    if x.upstream then -(v : Int) else v
  | _ => 0

/-- Fine speed of an encoder in µm/s (R112). -/
def encFine (n : Node) (x : Encoder) (i : Nat) : Int :=
  match x.motion with
  | .moving =>
    let (p0, t0) := x.fineEdge (nsTicks (n.num K.FINE_WINDOW))
    let v := (x.acc - p0).natAbs * 1000000 / (65536 * max 1 (since x.te t0))
    let v := min v (encCoarse n x i).natAbs
    if x.upstream then -(v : Int) else v
  | _ => 0

/-- The web position at time `t` from the selected source, in 2^-32 nm (R113, R116, R117). -/
def wpAt (n : Node) (e : EncBlock) (t : Stamp) : Int :=
  match wpActive n e with
  | none => e.wp.held
  | some i =>
    let p := e.wp.off + encPosAt n (e.enc i) i t
    match e.wp.catchUp with
    | none => p
    | some c => if e.wp.upstream then min c p else max c p

/-- The motion state the web reports (R110, R116). -/
def wpMotion (n : Node) (e : EncBlock) : Motion :=
  match wpActive n e with
  | none => .standstill
  | some i => (e.enc i).motion

/-! ## Divided outputs (R124) -/

/-- Feed a change of the input to divided output `m`. -/
def outDelta (m : Nat) (delta : Int) (s : EncNode) : EncNode :=
  let (n, e) := s
  let den := n.num (outKey m 3)
  let num := min (n.num (outKey m 2)) den
  let a := toSigned 64 (toBits 64 ((e.out m).acc + num * delta))
  let k := a.tdiv den
  let q := n.sint 16 (outKey m 6) + k
  let beyond := (q - 255).toNat + (-255 - q).toNat
  let n := n.putI 16 (outKey m 6) (clampI (-255) 255 q)
  let n := if beyond = 0 then n else Node.setFlag (n.add 32 (outKey m 8) beyond) K.WP_FLAGS (4 + m)
  (n, e.putOut m { e.out m with acc := a - k * den })

/-- Feed a change to every divided output whose source is `src`. -/
def outFeed (src : Nat) (delta : Int) (s : EncNode) : EncNode :=
  (List.range 4).foldl (fun s m => if s.1.num (outKey m 1) = src then outDelta m delta s else s) s

/-- The pins one state step on in the positive sequence 00, 10, 11, 01, or back (R103). -/
def quadStep (a b up : Bool) : Bool × Bool :=
  if up then (match a, b with | false, false => (true, false) | true, false => (true, true) | true, true => (false, true) | false, true => (false, false))
  else (match a, b with | false, false => (false, true) | false, true => (true, true) | true, true => (true, false) | true, false => (false, false))

/-- Output `m`, `cycle` ENCCLK cycles after the last time update: once it has held its state for OUT_MIN_STATE cycles it emits one queued
count (R124). In step/direction mode the pulse ends, or the direction is set, or a pulse starts; B is high for a positive count, where R124
says only that B carries the direction (DESIGN CHOICE, unsafe: log entry 2124). -/
def outEmit (m cycle : Nat) (s : EncNode) : EncNode :=
  let (n, e) := s
  let q := n.sint 16 (outKey m 6)
  let now := e.cycles + cycle
  let o := { e.out m with last := now }
  let up : Bool := decide (0 < q)
  let count (n : Node) : Node :=
    Node.putI (n.putI 16 (outKey m 6) (if up then q - 1 else q + 1)) 64 (outKey m 7)
      (n.sint 64 (outKey m 7) + (if up then 1 else -1))
  if n.num (outKey m 1) = 0xFF ∨ now < (e.out m).last + n.num (outKey m 5) then s
  else if n.num (outKey m 4) = 0 then
    if q = 0 then s else
      let (a, b) := quadStep o.a o.b up
      (count n, e.putOut m { o with a := a, b := b })
  else if o.a then (n, e.putOut m { o with a := false })
  else if q = 0 then s
  else if o.b != up then (n, e.putOut m { o with b := up })
  else (count n, e.putOut m { o with a := true })

/-! ## Source selection (R116-R118) -/

/-- Takes a new deviation reference now (R118). -/
def devReference (s : EncNode) : EncNode :=
  let (n, e) := s
  let p (o : Option Nat) : Int := match o with | some i => encPosAt n (e.enc i) i n.now | none => 0
  (n.putI 64 K.DEVIATION 0, { e with wp := { e.wp with refA := p (wpPrimary n), refB := p (wpSecondary n) } })

/-- Every encoder's position at time `t` (R117). -/
def encSamples (n : Node) (e : EncBlock) (t : Stamp) : List Int := e.encs.mapIdx fun i x => encPosAt n x i t

/-- Samples the deviation at time `t` and flags one beyond DEVIATION_TOL (R118). The deviation is rounded down to whole nm, and it is that
value which is compared: R118 does not say how it is rounded (DESIGN CHOICE, unsafe: log entry 2118). -/
def devSample (t : Stamp) (s : EncNode) : EncNode :=
  let (n, e) := s
  match wpPrimary n, wpSecondary n with
  | some a, some b =>
    let d := (encPosAt n (e.enc b) b t - e.wp.refB) - (encPosAt n (e.enc a) a t - e.wp.refA)
    let dn := d / 4294967296
    let n := n.putI 64 K.DEVIATION dn
    let tol := n.num K.DEVIATION_TOL
    (if tol != 0 && dn.natAbs > tol then n.setFlag K.WP_FLAGS 2 else n, e)
  | _, _ => s

/-- Makes encoder `b` the active source in state `st`, the position continuous (R117). `fault`: the switch follows a fault of the
active encoder, so that the position counts on from that encoder's last edge; where none has come since it became active, `b` counts from
that switch (DEDUCED from the samples of point 2, unsafe: log entry 1117). The direction becomes that of an encoder in MOVING. -/
def wpSwitch (st : WpState) (b : Nat) (fault : Bool) (s : EncNode) : EncNode :=
  let (n, e) := s
  let pNow := wpAt n e n.now
  let (pg, bg) : Int × Int :=
    match fault, wpActive n e with
    | true, some a => (e.wp.off + (e.enc a).acc, e.wp.seen.getD b 0)
    | _, _ => (pNow, encPosAt n (e.enc b) b n.now)
  let member := ringMember n
  let turned : Bool := !member && (e.enc b).motion == .moving && (e.enc b).upstream != e.wp.upstream
  let wp := { e.wp with src := st, off := pg - bg, catchUp := some pNow, upstream := if turned then (e.enc b).upstream else e.wp.upstream }
  let e := { e with wp := wp }
  let e := if !member && decide (pNow < wpAt n e n.now) then { e with wp := { e.wp with stepped := true } } else e
  let n := n.occur (6 * b + 6)
  let n := if turned then n.occur 54 else n
  let n := if st = .onSecondary then Node.setFlag (n.inc K.FAILOVER_COUNT) K.WP_FLAGS 0 else n
  let n := n.putN K.FAILOVER_LAST (pos64 (accPos (if member then e.wp.last else wpAt n e n.now)))
  devReference (n, { e with wp := { e.wp with seen := encSamples n e n.now } })

/-- Leaves the web without a source: the position holds (R116). -/
def wpNone (s : EncNode) : EncNode :=
  let (n, e) := s
  let pNow := wpAt n e n.now
  (n.setFlag K.WP_FLAGS 1, { e with wp := { e.wp with src := .noSource, held := pNow, catchUp := none } })

/-- The source state after a change of what is usable (R116). -/
def wpSelect (fault : Bool) (s : EncNode) : EncNode :=
  let (n, e) := s
  let ok (o : Option Nat) : Bool := match o with | some i => encUsable n i | none => false
  let p := wpPrimary n
  let q := wpSecondary n
  match e.wp.src with
  | .onPrimary =>
    if ok p then s else if ok q then wpSwitch .onSecondary (q.getD 0) fault s else wpNone s
  | .onSecondary =>
    if ok q then s else if ok p then wpSwitch .onPrimary (p.getD 0) fault s else wpNone s
  | .noSource =>
    if wpHeld n then s
    else if ok p then wpSwitch .onPrimary (p.getD 0) false s else if ok q then wpSwitch .onSecondary (q.getD 0) false s else s

/-- A commit that changes the pair enters at the first state whose entry holds (R116); `before` is the web position and `was` the
state and active encoder before it. A source that stays the active one is not switched to. -/
def wpReenter (before : Int) (was : WpState × Option Nat) (s : EncNode) : EncNode :=
  let (n, e) := s
  let ok (o : Option Nat) : Bool := match o with | some i => encUsable n i | none => false
  let stay (st : WpState) (o : Option Nat) : Bool := was.1 == st && was.2 == o
  let e' := { e with wp := { e.wp with src := .noSource, held := before, catchUp := none } }
  if wpHeld n then s
  else if ok (wpPrimary n) then
    if stay .onPrimary (wpPrimary n) then devReference s else wpSwitch .onPrimary ((wpPrimary n).getD 0) false (n, e')
  else if ok (wpSecondary n) then
    if stay .onSecondary (wpSecondary n) then devReference s else wpSwitch .onSecondary ((wpSecondary n).getD 0) false (n, e')
  else (n.setFlag K.WP_FLAGS 1, e')

/-- The active encoder is usable no more after a commit, with the position at `before` (R116, R117). -/
def wpReselect (before : Int) (s : EncNode) : EncNode :=
  let (n, e) := s
  let ok (o : Option Nat) : Bool := match o with | some i => encUsable n i | none => false
  let e' := { e with wp := { e.wp with src := .noSource, held := before, catchUp := none } }
  if ok (wpPrimary n) || ok (wpSecondary n) then wpSelect false (n, e') else (n.setFlag K.WP_FLAGS 1, e')

/-- Marks an encoder faulty (R115). -/
def encFaulty (i : Nat) (s : EncNode) : EncNode :=
  wpSelect true (s.1.setFlag (encKey i 0x0D) 4, s.2)

/-! ## Edges (R103, R104, R110) -/

/-- What a change of accepted levels is. -/
inductive EdgeKind
  | none | illegal | count (d : Int)
deriving DecidableEq, Repr

/-- The place of a pair of levels in the positive sequence 00, 10, 11, 01 (R103). -/
def quadIndex (a b : Bool) : Nat :=
  match a, b with | false, false => 0 | true, false => 1 | true, true => 2 | false, true => 3

/-- The edge that levels (a0, b0) to (a1, b1) make in a mode (R103, R104). -/
def edgeKind (mode : Nat) (a0 b0 a1 b1 : Bool) : EdgeKind :=
  let i := quadIndex a0 b0
  let j := quadIndex a1 b1
  let d : Int := if (i + 1) % 4 = j then 1 else -1
  match mode with
  | 0 => .none
  | 4 => if !a0 && a1 then (if b0 != b1 then .illegal else .count (if b1 then 1 else -1)) else .none
  | 5 =>
    if !a0 && a1 && !b0 && b1 then .illegal
    else if !a0 && a1 then .count 1 else if !b0 && b1 then .count (-1) else .none
  | m =>
    if i = j then .none
    else if a0 != a1 && b0 != b1 then .illegal
    else
      let counted : Bool :=
        match m with
        | 1 => i + j == 1
        | 2 => i + j == 1 || i + j == 5
        | _ => true
      if counted then .count d else .none

/-- An illegal transition of encoder `i` at time `t` (R104, R115). -/
def encIllegal (i : Nat) (t : Stamp) (s : EncNode) : EncNode :=
  let (n, e) := s
  let x := e.enc i
  let ill := (t :: x.illegal).filter fun u => decide (since t u ≤ nsTicks 1000000)
  let n := Node.inc (n.setFlag (encKey i 0x0D) 0) (encKey i 0x0E)
  let e := e.putEnc i { x with illegal := ill }
  let lim := n.num K.ILLEGAL_FAULT_N
  if lim != 0 && ill.length > lim then encFaulty i (n, e) else (n, e)

/-- The motion state machine at an edge (R110): the encoder after it, whether MOVING was entered. -/
def motionEdge (x : Encoder) (up : Bool) (t : Stamp) : Encoder × Bool :=
  let here := (x.acc, t)
  match x.motion with
  | .standstill => ({ x with motion := .starting, startUp := up, run := [here] }, false)
  | .starting =>
    if up = x.startUp then ({ x with motion := .moving, upstream := up, run := here :: x.run }, true)
    else ({ x with startUp := up, run := [here] }, false)
  | .moving =>
    if up = x.upstream then ({ x with run := here :: x.run }, false)
    else ({ x with motion := .starting, startUp := up, run := [here] }, false)

/-- The run without edges older than the longest FINE_WINDOW, 100 ms (R112, R119). -/
def trimRun (t : Stamp) (run : List (Int × Stamp)) : List (Int × Stamp) :=
  match run with
  | a :: b :: more => a :: b :: more.filter fun (_, u) => decide (since t u ≤ nsTicks 100000000)
  | r => r

/-- A counted edge of encoder `i`, of sign `d`, stamped `t`. -/
def encCount (i : Nat) (d : Int) (t : Stamp) (s : EncNode) : EncNode :=
  let (n, e) := s
  let x := e.enc i
  let up : Bool := decide (d < 0)
  let n := n.putI 64 (encKey i 9) (n.sint 64 (encKey i 9) + d)
  let x := { x with acc := wrapAcc (x.acc + d * n.num (encKey i 4)), far := none, tp := x.te, te := t,
                    ups := if up then (t :: x.ups).take 8 else x.ups, downs := if up then x.downs else (t :: x.downs).take 8 }
  let (x, moving) := motionEdge x up t
  let x := { x with run := trimRun t x.run }
  let e := e.putEnc i x
  let s := outFeed i d (n, e)
  let (n, e) := s
  if wpActive n e = some i then
    let turned := !ringMember n && moving && e.wp.upstream != up
    let n := if turned then n.occur 54 else n
    let wp := { e.wp with seen := encSamples n e t, upstream := if turned then up else e.wp.upstream,
                          catchUp := match e.wp.catchUp with
                            | some c => if (if e.wp.upstream then e.wp.off + x.acc ≤ c else c ≤ e.wp.off + x.acc) then none else some c
                            | none => none }
    devSample t (n, { e with wp := wp })
  else (n, e)

/-- The glitch filter of encoder `i` accepts a level that `held` consecutive samples have carried (R101). -/
def filterTakes (n : Node) (i held : Nat) : Bool := decide (max 1 (n.num (encKey i 2)) ≤ held)

/-- The level an input of encoder `i` has after its own filter: that of its pin, turned by bit `b` of ENC_POLARITY, once `held` consecutive
samples have carried it, else the one it `was` (R101). -/
def encLevel (n : Node) (i b held : Nat) (pin was : Bool) : Bool :=
  if filterTakes n i held then pin != bit (n.num (encKey i 3)) b else was

/-- Levels on the pins A and B of encoder `i`, that of A carried by the last `held.1` samples and that of B by the last `held.2`, `cycle`
ENCCLK cycles after the last time update (R101-R104). Returns the counted sign too. -/
def encEdge (i : Nat) (pinA pinB : Bool) (held : Nat × Nat) (cycle : Nat) (s : EncNode) : EncNode × Option Int :=
  let (n, e) := s
  let x := e.enc i
  let pol := n.num (encKey i 3)
  let a := encLevel n i 0 held.1 pinA x.a
  let b := encLevel n i 1 held.2 pinB x.b
  let t : Stamp := (n.now + cycleTicks cycle : Nat) - (cycleTicks (n.num (encKey i 2)) : Nat)
  let e1 := e.putEnc i { x with a := a, b := b }
  match edgeKind (n.num (encKey i 1)) x.a x.b a b with
  | .none => ((n, e1), none)
  | .illegal => (encIllegal i t (n, e1), none)
  | .count d =>
    let d := if bit pol 3 then -d else d
    (encCount i d t (n, e1), some d)

/-- No edge for STANDSTILL_TIME (R110). -/
def encStandstill (i : Nat) (s : EncNode) : EncNode :=
  let (n, e) := s
  let x := e.enc i
  if x.motion ≠ .standstill ∧ nsTicks (n.num K.STANDSTILL_TIME) ≤ since n.now x.te then
    (n, e.putEnc i { x with motion := .standstill, run := [], far := none })
  else s

/-! ## Index and wire check (R105-R107) -/

/-- The expected count nearest to `c` of `r − m`, `r`, `r + m`; `r` on a tie (R106). -/
def indexNearest (r c m : Int) : Int :=
  if (c - r).natAbs ≤ (c - (r - m)).natAbs ∧ (c - r).natAbs ≤ (c - (r + m)).natAbs then r
  else if (c - (r - m)).natAbs < (c - (r + m)).natAbs then r - m else r + m

/-- The web position moves by the step of an index correction of the active encoder (R107). POS_STEP_LAST takes the step rounded down to
whole nm; R107 does not say how it is rounded (DESIGN CHOICE, unsafe: log entry 2107). -/
def posStep (step : Int) (n : Node) : Node :=
  Node.setFlag (n.putI 64 K.POS_STEP_LAST (step / 4294967296)) K.WP_FLAGS 3

/-- INDEX_ERROR takes the deviation; one that I32 does not hold leaves it free (DESIGN CHOICE, safe: log entry 1107). -/
def putIndexError (i : Nat) (d : Int) (n : Node) : Node :=
  if -2147483648 ≤ d ∧ d ≤ 2147483647 then n.putI 32 (encKey i 0x0F) d
  else
    let (v, n) := n.takeFree 32
    n.putN (encKey i 0x0F) v

/-- A level of Z that the last `held` samples have carried (R101): its rising edge is the index (R103, R106). Returns the applied
correction, in counts. -/
def encIndex (i : Nat) (pinZ : Bool) (held : Nat) (s : EncNode) : EncNode × Option Int :=
  let (n, e) := s
  let z := encLevel n i 2 held pinZ (e.enc i).z
  let rising : Bool := z && !(e.enc i).z
  let x := { e.enc i with z := z }
  let e := e.putEnc i x
  let s : EncNode := (n, e)
  if rising = false then (s, none) else
  let m : Int := n.num (encKey i 5)
  let c := n.sint 64 (encKey i 9)
  if n.num (encKey i 1) = 0 ∨ m = 0 ∨ n.bitOf (encKey i 0x11) 2 = true then (s, none) else
    match x.cref with
    | none => ((n, e.putEnc i { x with cref := some c }), none)
    | some r =>
      let ex := indexNearest r c m
      let d := c - ex
      let n := putIndexError i d n
      let policy := n.num (encKey i 7)
      if d.natAbs ≤ n.num (encKey i 6) then
        if policy = 0 then ((n, e.putEnc i { x with cref := some c }), none)
        else if d = 0 then ((n, e.putEnc i { x with cref := some ex }), none)
        else
          let step := -d * n.num (encKey i 4)
          let n := Node.setFlag (n.putI 64 (encKey i 9) ex) (encKey i 0x0D) 2
          let x := { x with acc := wrapAcc (x.acc + step), cref := some ex, far := x.far.map (· + step),
                            run := x.run.map fun (p, t) => (p + step, t) }
          let active : Bool := wpActive n e == some i && !ringMember n
          let e := e.putEnc i x
          let e := if active then
              { e with wp := { e.wp with catchUp := e.wp.catchUp.map (· + step), stepped := e.wp.stepped || decide (0 < step) } }
            else e
          ((if active then posStep step n else n, e), some d)
      else
        let n := Node.inc (n.setFlag (encKey i 0x0D) 1) (encKey i 0x10)
        let s := (n, e.putEnc i { x with cref := some c })
        (if policy = 2 then encFaulty i s else s, none)

/-- The wire check of encoder `i` runs (R105). -/
def wireRunning (n : Node) (x : Encoder) (i : Nat) : Bool :=
  n.num (encKey i 1) != 0 && (n.num (encKey i 8) == 2 || n.num (encKey i 8) == 1 && x.wireStart.isSome)

/-- A pair condition has lasted 200 ns within the check: pair 0 A, 1 B, 2 Z (R105). -/
def wireFault (i pair : Nat) (s : EncNode) : EncNode :=
  let (n, e) := s
  if wireRunning n (e.enc i) i = true ∧ (pair < 2 ∨ n.num (encKey i 5) ≠ 0) then
    let n := n.putN (encKey i 0x11) (setBit (n.num (encKey i 0x11)) pair)
    let n := n.setFlag (encKey i 0x0D) 3
    if pair < 2 then encFaulty i (n, e) else (n, e)
  else s

/-- The start-up wire check ends 10 ms after its start (R105). -/
def wireEnd (i : Nat) (s : EncNode) : EncNode :=
  let (n, e) := s
  let x := e.enc i
  match x.wireStart with
  | some t =>
    if nsTicks 10000000 ≤ since n.now t then
      (n.putN (encKey i 0x11) (clrBit (n.num (encKey i 0x11)) 3), e.putEnc i { x with wireStart := none })
    else s
  | none => s

/-! ## Position update, silence, failback, steps, commits -/

/-- Eight edges of one direction lie within the last `lim` ticks. -/
def eightWithin (lim : Nat) (now : Stamp) (l : List Stamp) : Bool :=
  match l[7]? with
  | some t => decide (since now t ≤ lim)
  | none => false

/-- FAILOVER_SILENCE without an edge of the active encoder while the other counted 8 edges in one direction (R115). -/
def failSilence (s : EncNode) : EncNode :=
  let (n, e) := s
  match wpActive n e with
  | some i =>
    let lim := n.num K.FAILOVER_SILENCE
    let counted : Bool := match wpOther n e with
      | some j => eightWithin (nsTicks lim) n.now (e.enc j).ups || eightWithin (nsTicks lim) n.now (e.enc j).downs
      | none => false
    if lim ≠ 0 ∧ nsTicks lim ≤ since n.now (e.enc i).te ∧ counted = true then encFaulty i s else s
  | none => s

/-- FAILBACK (R116): back to a usable primary. -/
def failback (s : EncNode) : EncNode :=
  let (n, e) := s
  match e.wp.src, wpPrimary n with
  | .onSecondary, some p => if encUsable n p then wpSwitch .onPrimary p false s else s
  | _, _ => s

/-- The position update of the broadcast (R20, R113): what is reported is held, and the divided outputs that follow the position take
its change. `ring`: the ring position on a member (R114). -/
def posUpdate (ring : Option Int) (s : EncNode) : EncNode :=
  let (n, e) := s
  let e := { e with encs := e.encs.mapIdx fun i x =>
    match x.motion with
    | .moving => { x with far := some (encPosAt n x i n.now) }
    | _ => x }
  let p := ring.getD (wpAt n e n.now)
  let catchUp := match e.wp.catchUp, wpActive n e with
    | some c, some i => if e.wp.off + encPosAt n (e.enc i) i n.now = p then none else some c
    | _, _ => none
  let stepped := e.wp.stepped
  let e := { e with wp := { e.wp with catchUp := catchUp, last := p, stepped := false } }
  let delta := accPos p - n.posn.pos
  let n := { n with posn := { pos := accPos p, stamp := n.now, upstream := e.wp.upstream,
                              standstill := ring.isNone && wpMotion n e == .standstill,
                              starting := ring.isNone && wpMotion n e == .starting, failover := e.wp.src == .onSecondary,
                              noSource := e.wp.src == .noSource, stepped := stepped } }
  outFeed 8 delta (n, e)

/-- A step of device time adds to every time-stamp the engine holds (R129). -/
def encTimeStep (d : Int) (e : EncBlock) : EncBlock :=
  let sh (t : Stamp) : Stamp := t + d
  { e with encs := e.encs.map fun x =>
      { x with te := sh x.te, tp := sh x.tp, run := x.run.map (fun (p, t) => (p, sh t)), illegal := x.illegal.map sh,
               ups := x.ups.map sh, downs := x.downs.map sh, wireStart := x.wireStart.map sh } }

/-- What a commit changes in encoder `i` (R105, R106, R109): it counts nothing, so that the
levels held turn with the inversion. `old` holds the values before it. One that takes a MOVING active encoder out of MOVING drops the
extrapolated part of the web position, which R109 and R113 leave open between them (DESIGN CHOICE, unsafe: log entry 2109). -/
def encCommitOne (old : Node) (i : Nat) (s : EncNode) : EncNode :=
  let (n, e) := s
  let x := e.enc i
  let changed (sub : Nat) : Bool := old.num (encKey i sub) != n.num (encKey i sub)
  let x :=
    if changed 1 || changed 3 then { x with motion := .standstill, run := [], far := none }
    else if changed 4 && x.motion == .moving then
      { x with motion := .starting, startUp := x.upstream, run := [(x.acc, x.te)], far := none }
    else x
  let flips (b : Nat) : Bool := bit (old.num (encKey i 3)) b != bit (n.num (encKey i 3)) b
  let x := { x with a := x.a != flips 0, b := x.b != flips 1, z := x.z != flips 2 }
  let x := if changed 1 || changed 5 then { x with cref := none } else x
  let starts : Bool := old.num (encKey i 1) == 0 && n.num (encKey i 1) != 0 && n.num (encKey i 8) == 1
  let n := if starts then n.putN (encKey i 0x11) (setBit (n.num (encKey i 0x11)) 3) else n
  let x := if starts then { x with wireStart := some n.now } else x
  let ends : Bool := x.wireStart.isSome && (n.num (encKey i 1) == 0 || n.num (encKey i 8) != 1)
  let n := if ends then n.putN (encKey i 0x11) (clrBit (n.num (encKey i 0x11)) 3) else n
  let x := if ends then { x with wireStart := none } else x
  (n, e.putEnc i x)

/-- What a commit changes in divided output `m` (R124). -/
def outCommitOne (old : Node) (m : Nat) (s : EncNode) : EncNode :=
  let (n, e) := s
  let changed (sub : Nat) : Bool := old.num (outKey m sub) != n.num (outKey m sub)
  let (n, e) :=
    if changed 1 || changed 2 || changed 3 then (n.putN (outKey m 6) 0, e.putOut m { e.out m with acc := 0 }) else (n, e)
  let o := e.out m
  if n.num (outKey m 1) = 0xFF ∧ (o.a || o.b) = true then (n, e.putOut m { o with a := false, b := false, last := e.cycles }) else (n, e)

/-- What a commit changes in the encoder block: `old` is the unit before the commit's values were put in force (R109, R116, R124). -/
def encCommit (old : Node) (s : EncNode) : EncNode :=
  let before := wpAt old s.2 old.now
  let was := (s.2.wp.src, wpActive old s.2)
  let s := (List.range 8).foldl (fun s i => encCommitOne old i s) s
  let s := (List.range 4).foldl (fun s m => outCommitOne old m s) s
  if old.num K.WP_PRIMARY ≠ s.1.num K.WP_PRIMARY ∨ old.num K.WP_SECONDARY ≠ s.1.num K.WP_SECONDARY then
    wpReenter before was s
  else match wpActive s.1 s.2 with
    | some i => if encUsable s.1 i then s else wpReselect before s
    | none => wpSelect false s

end Sys2Proof.Machine
end

