-- ==== Sys2Proof/Machine/BwEngine.lean ====
section
/-!
DEFINITION. Chapter 21: ring frames, link delays, roles and election, and how positions, commits and echoes reach a member.
-/

namespace Sys2Proof.Machine

/-- The common block with its ring part and its encoders. -/
structure BwNode where
  n : Node
  b : Boardwalk
  e : EncBlock

/-- The bytes of a frame (R544): TYPE, SRC, HOPS, SEQ, ACCUM in 1/16 ns, and its body of 20 bytes. -/
def ringBytes (type src hops seq accum : Nat) (body : List Nat) : List Nat :=
  let l := [type, src % 8 * 32 + hops % 16] ++ leBytes 2 seq ++ leBytes 4 accum ++ padTo 20 body
  l ++ leBytes 4 (crc32c l)

namespace BwNode

/-- Apply a function to the common block. -/
def mapN (s : BwNode) (f : Node → Node) : BwNode := { s with n := f s.n }
/-- Ring port `p`. -/
def port (s : BwNode) (p : Nat) : BwPort := s.b.ports.getD p {}
/-- Give ring port `p` its state. -/
def putPort (s : BwNode) (p : Nat) (x : BwPort) : BwNode := { s with b := { s.b with ports := listPut s.b.ports p x } }
/-- BW_RX of ring port `p` overruns (R25). -/
def rxOverrun (s : BwNode) (p : Nat) : BwNode := s.putPort p { s.port p with overrun := true }

/-- BW_STATE: 0 OFF; 1 SEARCHING; 2 RING; 3 CHAIN; 4 ISOLATED. -/
def state (s : BwNode) : Nat := s.n.num K.BW_STATE
/-- This device is the root. -/
def isRoot (s : BwNode) : Bool := s.n.flag K.BW_IS_ROOT
/-- The ring distributes to and from this device. -/
def inRing (s : BwNode) : Bool := s.state == 2 || s.state == 3
/-- A member of a ring in RING or CHAIN: its position is the root's (R554). -/
def member (s : BwNode) : Bool := ringMember s.n
/-- A member that originates no Slates, in ISOLATED as well (R556, R558). -/
def bound (s : BwNode) : Bool := s.member || s.state == 4
/-- Element 0 of UNIQUE_ID. -/
def ownId (s : BwNode) : Nat := s.n.elem K.UNIQUE_ID 0
/-- BW_PORT_STATE of port `p`. -/
def portState (s : BwNode) (p : Nat) : Nat := s.n.elem K.BW_PORT_STATE p
/-- Ports that are UP. -/
def upPorts (s : BwNode) : List Nat := (List.range 2).filter fun p => s.portState p == 2

/-- The device may be elected (R550). -/
def eligible (s : BwNode) : Bool := s.n.num K.BW_ROLE == 2 && s.e.wp.src != .noSource && s.ownId != 0

/-- Port `p` carries frames of a type: none in OFF, where it runs the lane layer only (R551), and before it is UP only HELLO and DELAY
frames (R548). -/
def carries (s : BwNode) (p type : Nat) : Bool := s.state != 0 && (s.portState p == 2 || (s.portState p == 1 && 0x35 ≤ type))

/-! ## The transmitters of the ports (R31, R546) -/

/-- The class of a TYPE: RELAY A, POSITION, SLATE and ECHO B, HELLO and DELAY C (R546). -/
def frameClass (type : Nat) : Nat := if type = 0x33 then 0 else if type = 0x31 ∨ type = 0x32 ∨ type = 0x34 then 1 else 2

/-- A frame joins those waiting: behind every one of its class or a more urgent one (R546). -/
def insFrame (f : BwFrame) : List BwFrame → List BwFrame
  | [] => [f]
  | x :: r => if frameClass f.type < frameClass x.type then f :: x :: r else x :: insFrame f r

/-- A frame goes out of port `p` at time `t`, with what is formed then (R545, R548). -/
def transmit (s : BwNode) (p : Nat) (f : BwFrame) (t : Ticks) : BwNode :=
  let now : Stamp := (s.n.now : Int) - ((s.n.mono - t : Nat) : Int)
  let ns := now.toNat / 65536
  let body := match f.stamp with
    | .none => f.body
    | .position => leBytes 8 (pos64 (accPos (wpAt s.n s.e now))) ++ f.body.drop 8
    | .request => leBytes 8 ns
    | .turnaround => f.body.take 16 ++ leBytes 4 (field f.body 16 4 + (t - f.at_) / 4096)
  let s := if f.stamp = .request then s.putPort p { s.port p with req := some (f.seq, ns) } else s
  s.mapN (·.emit (.bw p (ringBytes f.type f.src f.hops f.seq f.accum body)))

/-- The transmitter of port `p` takes the frames whose turn has come by now: each lasts 5.12 ns (R543). -/
def drainPort (p : Nat) : Nat → BwNode → BwNode
  | 0, s => s
  | fuel + 1, s =>
    match (s.port p).queue with
    | [] => s
    | f :: r =>
      let t := max (s.port p).busy f.at_
      if s.n.mono < t then s else
        let s := s.putPort p { s.port p with queue := r, busy := t + 335544 }
        drainPort p fuel (if s.carries p f.type then s.transmit p f t else s)

/-- Both transmitters go on. -/
def drain (s : BwNode) : BwNode := (List.range 2).foldl (fun s p => drainPort p (s.port p).queue.length s) s

/-- A frame is handed to the transmitter of port `p`. -/
def enqueue (s : BwNode) (p : Nat) (f : BwFrame) : BwNode :=
  let s := s.putPort p { s.port p with queue := insFrame f (s.port p).queue }
  drainPort p (s.port p).queue.length s

/-- Sends a frame of this device out of those of the ports given that carry it (R546-R549). -/
def sendStamped (s : BwNode) (stamp : BwStamp) (ports : List Nat) (type : Nat) (body : List Nat) : BwNode :=
  let seq := s.b.seqs.getD (type - 0x31) 0
  let pos := s.n.num K.BW_RING_POS
  let s := { s with b := { s.b with seqs := listPut s.b.seqs (type - 0x31) (wrap 16 (seq + 1)) } }
  let f : BwFrame := { type := type, src := if pos = 0xFF then 0 else pos, hops := 0, seq := seq, accum := 0, body := body, stamp := stamp,
                       at_ := s.n.mono }
  (ports.filter (s.carries · type)).foldl (fun s p => s.enqueue p f) s

/-- Sends a frame with a body formed now. -/
def send (s : BwNode) (ports : List Nat) (type : Nat) (body : List Nat) : BwNode := s.sendStamped .none ports type body

/-! ## The local web position (R117, R558) -/

/-- The ring position at time `t` in 2^-32 nm, from the last POSITION frame (R554). -/
def ringPos (x : BwPos) (t : Ticks) : Int :=
  let age : Int := (4096 * x.accum + (t - x.at_) : Nat)
  let p : Int := x.pos * 4294967296
  if x.status % 4 = 2 then p + x.fine * age * 65536 / 1000000 else p

/-- The position a member reports: never against the direction of motion between frames (R113, R554). -/
def reportPos (s : BwNode) : Option Int :=
  if !s.member then none else
    match s.b.pos with
    | none => some s.e.wp.last
    | some x =>
      let p := ringPos x s.n.mono
      some (if x.status % 4 = 2 then (if bit x.status 2 then min p s.e.wp.last else max p s.e.wp.last) else p)

/-- The device's own encoders take the position over from the ring, continuous from the last frame (R117, R558), and the one that
the source selection of R116 has kept becomes the active source (R126); without one, or where `hold`, the position holds in NO_SOURCE. -/
def localPos (s : BwNode) (hold : Bool) : BwNode :=
  let was := s.e.wp.last
  let pick : Option Nat := if hold then none else wpActive s.n s.e
  match pick with
  | some i =>
    let (pg, tg) : Int × Stamp :=
      match s.b.pos with | some x => (ringPos x x.at_, s.n.now - ((s.n.mono - x.at_ : Nat) : Int)) | none => (was, s.n.now)
    { s with n := s.n.occur (6 * i + 6),
             e := { s.e with wp := { s.e.wp with off := pg - encPosAt s.n (s.e.enc i) i tg, catchUp := some was } } }
  | none =>
    { s with n := s.n.setFlag K.WP_FLAGS 1, e := { s.e with wp := { s.e.wp with src := .noSource, held := was, catchUp := none } } }

/-- The device's own source selection comes back where ISOLATED held it (R116, R558). -/
def reselect (s : BwNode) : BwNode :=
  let (n, e) := wpSelect false (s.n, s.e)
  { s with n := n, e := e }

/-! ## States (R551) -/

/-- A state is entered. -/
def go (s : BwNode) (st : Nat) : BwNode :=
  if s.state = st then s else
    let s := s.mapN (·.putN K.BW_STATE st)
    match st with
    | 3 => s.mapN fun n => Node.inc ((if n.bitOf K.BW_FLAGS 0 then n else n.setFlag K.BW_FLAGS 0).alarm 98) K.BW_BREAKS
    | 4 =>
      let s := { s with b := { s.b with since := s.n.mono } }
      s.mapN fun n => (if n.bitOf K.BW_FLAGS 1 then n else n.setFlag K.BW_FLAGS 1).alarm 99
    | 1 => { s with b := { s.b with since := s.n.mono } }
    | _ => s

/-- RING or CHAIN by what reaches the device (R551). -/
def ringOrChain (s : BwNode) : BwNode :=
  let lim := nsTicks (s.n.num K.BW_ROOT_TIMEOUT)
  let fresh (p : Nat) : Bool := s.portState p == 2 && (match (s.port p).heard with | some t => decide (s.n.mono < t + lim) | none => false)
  let both : Bool := if s.isRoot then s.upPorts.length == 2 else fresh 0 && fresh 1
  s.go (if both then 2 else 3)

/-- A root is followed: the id, and ROOT_CHANGE where it is another (R562). -/
def follow (s : BwNode) (id : Nat) : BwNode :=
  if s.n.num K.BW_ROOT_ID = id then s else s.mapN fun n => (n.putN K.BW_ROOT_ID id).setFlag K.BW_FLAGS 2

/-- A member joins a root (R557): the position step comes with the first POSITION frame, the ring position with the first root frame
(R553). -/
def join (s : BwNode) (id : Nat) : BwNode :=
  let s := s.follow id
  let s := { s with b := { s.b with joining := true, pos := none } }
  let s := s.mapN fun n => Node.occur (Node.inc (n.putN K.BW_RING_POS 0xFF) K.BW_JOINS) 105
  s.ringOrChain.reselect

/-- The device becomes root (R552): ring position 0. Its encoders are its position, as since it lost the last root (R558). -/
def becomeRoot (s : BwNode) : BwNode :=
  let s := s.follow s.ownId
  let s := s.mapN fun n => ((n.putN K.BW_IS_ROOT 1).putN K.BW_RING_POS 0)
  let s := { s with b := { s.b with joining := false, pos := none } }
  s.go (if s.upPorts.length = 2 then 2 else 3)

/-- ISOLATED (R558): the local encoders with BW_FALLBACK 1, else NO_SOURCE. -/
def isolate (s : BwNode) : BwNode := (s.localPos (!s.n.flag K.BW_FALLBACK)).go 4

/-- A write of BW_ROLE (R550): back to SEARCHING, or OFF; the position is local again. -/
def roleWrite (s : BwNode) (v : Nat) : BwNode :=
  let s := if s.member then s.localPos false else s
  let s := s.mapN fun n => ((((n.putN K.BW_ROLE v).putN K.BW_IS_ROOT 0).putN K.BW_RING_POS 0xFF).putN K.BW_ROOT_ID 0).putN K.BW_MEMBERS 0
  let s := { s with b := { s.b with joining := false, pos := none, since := s.n.mono, peers := [], ports := s.b.ports.map fun (x : BwPort) => { x with heard := none } } }
  (s.go (if v = 0 then 0 else 1)).reselect

/-- A write of BW_FALLBACK (R558): in ISOLATED the position comes from the device's own encoders, or holds. -/
def fallbackWrite (s : BwNode) (v : Nat) : BwNode :=
  let s := s.mapN (·.putN K.BW_FALLBACK v)
  if s.state ≠ 4 then s else if v = 0 then s.localPos true else s.reselect

/-- A ring port's state (R551, R561): source 97; a port that leaves UP must measure its delay again. -/
def portChange (s : BwNode) (p st : Nat) : BwNode :=
  let was := s.portState p
  if was = st then s else
    let s := s.mapN fun n => (n.putE K.BW_PORT_STATE p st).occur 97
    let s := if st = 2 then s else s.putPort p { s.port p with delays := if st = 0 then [] else (s.port p).delays, req := none, heard := none,
                                                                       queue := if st = 0 then [] else (s.port p).queue }
    if s.inRing then s.ringOrChain else s

/-- No root frame for BW_ROOT_TIMEOUT (R551). -/
def rootTimeout (s : BwNode) : BwNode :=
  if !s.member then s else
    let lim := nsTicks (s.n.num K.BW_ROOT_TIMEOUT)
    let dead (p : Nat) : Bool := match (s.port p).heard with | some t => decide (t + lim ≤ s.n.mono) | none => true
    if dead 0 && dead 1 then (s.go 3).isolate else if dead 0 || dead 1 then s.go 3 else s

/-! ## Elections (R550, R552) -/

/-- `a` before `b` in an election: lower priority, then lower identifier. -/
def better (a b : Nat × Nat) : Bool := decide (a.1 < b.1) || (a.1 == b.1 && decide (a.2 < b.2))

/-- BW_ELECT_WAIT has passed without a root (R552). -/
def elect (s : BwNode) : BwNode :=
  let wait := nsTicks (s.n.num K.BW_ELECT_WAIT)
  if !(s.state == 1 || s.state == 4) || decide (s.n.mono < s.b.since + wait) || s.upPorts.isEmpty then s else
    let own := (s.n.num K.BW_PRIORITY, s.ownId)
    let rivals := s.b.peers.filter fun x => x.eligible && x.id != s.ownId && decide (s.n.mono ≤ x.last + wait)
    if s.eligible && rivals.all fun x => better own (x.prio, x.id) then s.becomeRoot else s

/-- BW_MEMBERS: the identifiers heard in the last 10 µs, with this device (R553). -/
def members (s : BwNode) : BwNode :=
  let ids := (s.ownId :: (s.b.peers.filter fun x => decide (s.n.mono ≤ x.last + nsTicks 10000)).map (·.id)).eraseDups
  s.mapN (·.putN K.BW_MEMBERS ids.length)

/-! ## Receiving (R547, R549, R553) -/

/-- ACCUM at receipt: with the link delay of the receiving port (R549). -/
def accumAt (s : BwNode) (p accum : Nat) : Nat := accum + s.n.elem K.BW_LINK_DELAY p

/-- A frame goes on out of the other port (R547). -/
def forward (s : BwNode) (p type : Nat) (f : RingFrame) (accum : Nat) : BwNode :=
  if f.hops = 7 ∨ s.carries (1 - p) type = false then s else
    s.enqueue (1 - p) { type := type, src := f.src, hops := f.hops + 1, seq := f.seq, accum := accum + 16 * s.n.num K.BW_FORWARD, body := f.body,
                        at_ := s.n.mono }

/-- The first copy of a frame is forwarded; whether it is to be acted on, with its ACCUM (R547). -/
def receive (s : BwNode) (p type : Nat) (f : RingFrame) : BwNode × Bool × Nat :=
  let acc := s.accumAt p f.accum
  let key := (f.src, type, f.seq)
  let own : Bool := s.n.num K.BW_RING_POS == f.src
  let root : Bool := f.src == 0 && (type == 0x31 || type == 0x32 || type == 0x34)
  if s.carries p type = false then (s, false, acc) else
  let s := if root then s.putPort p { s.port p with heard := some s.n.mono } else s
  if own || s.b.seen.contains key || s.state == 0 then (s, false, acc)
  else
    let s := { s with b := { s.b with seen := (key :: s.b.seen).take 256 } }
    (s.forward p type f acc, true, acc)

/-- A root frame teaches a member its ring position (R553), which is none while BW_MEMBERS does not exceed the hops; it joins an ISOLATED one,
and closes the ring again. -/
def rootFrame (s : BwNode) (p : Nat) (f : RingFrame) : BwNode :=
  if s.isRoot then s else
    let s := if s.state = 4 then s.join (s.n.num K.BW_ROOT_ID) else s
    let n := s.n.num K.BW_MEMBERS
    let pos := if p = 1 then f.hops + 1 else n - f.hops - 1
    let s := if s.n.num K.BW_RING_POS = 0xFF ∧ 0 < pos then s.mapN (·.putN K.BW_RING_POS (pos % 8)) else s
    if s.inRing then s.ringOrChain else s

/-- A POSITION frame (R554): the position of the root; the first after a join makes the step of R557. The step in nm where it was made. -/
def positionFrame (s : BwNode) (p : Nat) (f : RingFrame) : BwNode × Bool × Option Int :=
  let (s, act, acc) := s.receive p 0x31 f
  let s := if f.src = 0 ∧ s.carries p 0x31 = true then s.rootFrame p f else s
  if !act || !s.member then (s, false, none) else
    let x : BwPos := { pos := toSigned 64 (field f.body 0 8), fine := toSigned 32 (field f.body 8 4), status := f.body.getD 12 0, accum := acc,
                       at_ := s.n.mono }
    let before := accPos s.e.wp.last
    let joined := s.b.joining
    let s := { s with b := { s.b with pos := some x, joining := false } }
    let s := s.mapN (·.putN K.BW_PATH_DELAY acc)
    let jump : Bool := joined && decide (before < accPos (ringPos x s.n.mono))
    let last := if joined then ringPos x s.n.mono else s.e.wp.last
    let wp := { s.e.wp with last := last, upstream := bit x.status 2, stepped := s.e.wp.stepped || jump }
    let s := { s with e := { s.e with wp := wp } }
    (s, true, if joined then some (accPos (ringPos x s.n.mono) - before) else none)

/-- A SLATE frame (R555): the commit waits for receipt + BW_EQ_DELAY − ACCUM, or is due at once with EQ_LATE. -/
def slateFrame (s : BwNode) (p : Nat) (f : RingFrame) : BwNode :=
  let (s, act, acc) := s.receive p 0x32 f
  let s := if f.src = 0 ∧ s.carries p 0x31 = true then s.rootFrame p f else s
  if !act || !s.member then s else
    let eq := 16 * s.n.num K.BW_EQ_DELAY
    let flags := f.body.getD 12 0
    let x : BwCommit := { gen := field f.body 0 4, pos := toSigned 64 (field f.body 4 8), late := bit flags 0, timed := bit flags 1,
                          due := s.n.mono + (eq - acc) * 4096 }
    let s := s.mapN (·.putN K.BW_PATH_DELAY acc)
    let s := if eq < acc then s.mapN (·.setFlag K.BW_FLAGS 4) else s
    { s with b := { s.b with commits := s.b.commits ++ [x] } }

/-- An ECHO frame (R560). -/
def echoFrame (s : BwNode) (p : Nat) (f : RingFrame) : BwNode :=
  let (s, act, acc) := s.receive p 0x34 f
  let s := if f.src = 0 ∧ s.carries p 0x31 = true then s.rootFrame p f else s
  if !act || !s.member then s else
    let eq := 16 * s.n.num K.BW_EQ_DELAY
    let b := f.body
    let x : BwEcho := { entry := b.getD 0 0, kind := b.getD 1 0, late := bit (b.getD 2 0) 0, target := field b 4 4, arg := field b 8 4,
                        due := s.n.mono + (eq - acc) * 4096 }
    { s with b := { s.b with echoes := s.b.echoes ++ [x] } }

/-- A RELAY frame (R559): kind, source as STK_RELAY_SRC names it, CUE_ID and Y_d where it is to be acted on. -/
def relayFrame (s : BwNode) (p : Nat) (f : RingFrame) : BwNode × Option (Nat × Nat × Nat × Pos) :=
  let (s, act, _) := s.receive p 0x33 f
  if !act || !s.inRing then (s, none) else
    let b := f.body
    (s.mapN (·.addE 32 K.BW_RELAYS 1 1),
     some (b.getD 0 0, f.src * 65536 + b.getD 1 0 * 256 + b.getD 2 0, field b 4 4, toSigned 64 (field b 8 8)))

/-- A HELLO frame (R550-R553, R557). -/
def helloFrame (s : BwNode) (p : Nat) (f : RingFrame) : BwNode :=
  if s.state = 0 ∨ s.carries p 0x35 = false then s else
    let b := f.body
    let id := field b 0 8
    let flags := b.getD 9 0
    let root := field b 12 8
    let key := (f.src + 8 * id, 0x35, f.seq)
    if id = s.ownId ∧ id ≠ 0 then s
    else if s.b.seen.contains key then s
    else
      let acc := s.accumAt p f.accum
      let s := { s with b := { s.b with seen := (key :: s.b.seen).take 256 } }
      let s := s.forward p 0x35 f acc
      let peer : BwPeer := { id := id, prio := b.getD 8 0, eligible := bit flags 0, isRoot := bit flags 1, last := s.n.mono }
      let s := { s with b := { s.b with peers := peer :: s.b.peers.filter (fun x => x.id != id) } }
      let s := s.members
      let own := (s.n.num K.BW_PRIORITY, s.ownId)
      let loses : Bool := if s.eligible == peer.eligible then better (peer.prio, id) own else peer.eligible
      if s.isRoot then
        if bit flags 1 && loses then (s.mapN fun n => Node.occur (n.putN K.BW_IS_ROOT 0) 106).join id else s
      else if s.state = 1 then (if bit flags 2 then s.join root else s)
      else if s.inRing && bit flags 2 && root != s.n.num K.BW_ROOT_ID && id == s.n.num K.BW_ROOT_ID then
        s.join root
      else if s.state = 4 ∧ bit flags 1 then s.follow id
      else s

/-! ## Delay measurement (R548) -/

/-- A DELAY_REQ is answered on the same port; `turn` is the turnaround in 1/16 ns. -/
def delayReq (s : BwNode) (p : Nat) (f : RingFrame) (turn : Nat) : BwNode :=
  if s.portState p = 0 then s else
    s.sendStamped .turnaround [p] 0x37 (f.body.take 8 ++ leBytes 8 s.n.ns ++ leBytes 4 turn)

/-- A DELAY_RESP gives one link delay; with 16 of them the port is UP. -/
def delayResp (s : BwNode) (p : Nat) (f : RingFrame) : BwNode :=
  match (s.port p).req with
  | none => s
  | some (_, t1) =>
    if field f.body 0 8 ≠ t1 then s else
      let d : Int := (((s.n.now : Int) / 4096 - 16 * (t1 : Int)) - field f.body 16 4) / 2
      let ds := (d :: (s.port p).delays).take 16
      let s := s.putPort p { s.port p with delays := ds, req := none }
      let mean := (ds.foldl (· + ·) 0 / (ds.length : Int)).toNat
      let s := s.mapN (·.putE K.BW_LINK_DELAY p mean)
      let s := if 256 < mean then s.mapN (·.setFlag K.BW_FLAGS 3) else s
      if ds.length = 16 ∧ s.portState p = 1 then s.portChange p 2 else s

/-- A DELAY_REQ out of each aligned port. -/
def delayReqSend (s : BwNode) : BwNode :=
  ((List.range 2).filter fun p => s.portState p != 0).foldl (fun s p => s.sendStamped .request [p] 0x36 (zeros 8)) s

/-! ## Sending (R550, R554, R555, R559, R560) -/

/-- A HELLO out of each UP port (R550). -/
def helloSend (s : BwNode) : BwNode :=
  if s.n.num K.BW_ROLE = 0 then s else
    let root := s.n.num K.BW_ROOT_ID
    s.members.send s.upPorts 0x35 (leBytes 8 s.ownId ++
      [s.n.num K.BW_PRIORITY, b2n s.eligible + 2 * b2n s.isRoot + 4 * b2n (root != 0), s.n.num K.BW_RING_POS, 0] ++ leBytes 8 root)

/-- The root's POSITION frame (R554): fine speed and status as the broadcast has them. -/
def positionSend (s : BwNode) (fine : Int) (status : Nat) : BwNode :=
  if !(s.isRoot && s.inRing) then s else
    let u := s.b.updates
    let s : BwNode := { s with b := { s.b with updates := wrap 16 (u + 1) } }
    s.sendStamped .position [0, 1] 0x31 (zeros 8 ++ leBytes 4 (toBits 32 fine) ++ [status, 0] ++ leBytes 2 u)

/-- The root decides a Slate: its frame, and its own commit BW_EQ_DELAY later (R555). -/
def slateSend (s : BwNode) (gen : Nat) (pos : Pos) (late timed : Bool) (lateness : Int) : BwNode :=
  let s := s.send [0, 1] 0x32 (leBytes 4 gen ++ leBytes 8 (pos64 pos) ++ [b2n late + 2 * b2n timed])
  { s with b := { s.b with commits := s.b.commits ++
    [{ gen := gen, pos := pos, late := late, timed := timed, due := s.n.mono + nsTicks (s.n.num K.BW_EQ_DELAY),
       lateness := some lateness }] } }

/-- A strike relay of a channel (R346). -/
def relaySend (s : BwNode) (kind ch out cue : Nat) (y : Pos) : BwNode :=
  if !s.inRing then s else
    (s.send [0, 1] 0x33 ([kind, ch, out, 0] ++ leBytes 4 cue ++ leBytes 8 (pos64 y))).mapN (·.addE 32 K.BW_RELAYS 0 1)

/-- The echo of an executed entry (R560). -/
def echoSend (s : BwNode) (entry kind : Nat) (late : Bool) (target arg : Nat) : BwNode :=
  if !(s.isRoot && s.inRing) then s else s.send [0, 1] 0x34 ([entry, kind, b2n late, 0] ++ leBytes 4 target ++ leBytes 4 arg)

end BwNode

end Sys2Proof.Machine
end

