-- ==== Sys2Proof/Machine/LaneEngine.lean ====
section
/-!
DEFINITION. The receive lane of chapter 06 over a lane and its unit: detectors, adaptation, idle monitor, wander, trims, PRBS, and the eye
scan. `kb` is the key of the lane's index (8180h + l, 21F0h + d), `ks` of the scan engine's (8189h, 21F8h).
-/

namespace Sys2Proof.Machine

/-- A lane with the unit it reports through. -/
abbrev LaneNode := Node × Lane

/-- The coefficients in use: CTLE, then DFE taps 1-5. -/
def coefs (n : Node) (kb : Nat) : List Int := (n.num (kb + 3) : Int) :: (n.elems (kb + 4)).map (toSigned 8)

/-- Give the coefficients (R202 ranges). -/
def putCoefs (kb : Nat) (cs : List Int) (n : Node) : Node :=
  Node.put (n.putN (kb + 3) (clampI 0 15 (cs.headD 0)).toNat) (kb + 4) ((cs.drop 1).mapIdx fun i x =>
    toBits 8 (if i = 0 then clampI (-63) 63 x else clampI (-31) 31 x))

/-- The trims as coefficients. -/
def Trims.coefs (t : Trims) : List Int := t.ctle :: t.dfe

/-- A coefficient is at an end of its range (R202): 0 CTLE, 1 DFE tap 1, 2-5 the other taps. -/
def coefEnd (i : Nat) (x : Int) : Bool :=
  match i with
  | 0 => x == 0 || x == 15
  | 1 => x == -63 || x == 63
  | _ => x == -31 || x == 31

/-- The current trims are loaded as coefficients (R203, R205). -/
def loadTrims (kb : Nat) (s : LaneNode) : LaneNode := (putCoefs kb s.2.live.coefs s.1, s.2)

/-- Enters FROZEN from ADAPTING (R203, R204). -/
def laneFreeze (kb : Nat) (s : LaneNode) : LaneNode :=
  if s.2.adapt = .adapting then (s.1.inc (kb + 0x12), { s.2 with adapt := .frozen, good := 0, paused := s.1.mono }) else s

/-- Enters ADAPTING: a one-shot starts anew. Where LOS or LOL is asserted, FROZEN follows at once (R203). -/
def adaptStart (kb : Nat) (s : LaneNode) : LaneNode :=
  let s : LaneNode :=
    (s.1, { s.2 with adapt := .adapting, converged := false, entered := s.1.mono, moved := s.1.mono, ref := coefs s.1 kb, good := 0,
                     atEnd := List.replicate 6 none })
  if s.2.los || s.2.lol then laneFreeze kb s else s

/-- A one-shot has converged, at the latest 5 ms after it entered ADAPTING, in FROZEN too (R203). -/
def oneShotOver (kb : Nat) (s : LaneNode) : Bool :=
  s.2.converged || (s.1.num (kb + 2) == 2 && decide (nsTicks 5000000 ≤ s.1.mono - s.2.entered))

/-- The times at a range end go on after a pause (R203, R215). -/
def Lane.resume (x : Lane) (now : Ticks) : Lane := { x with atEnd := x.atEnd.map (·.map (· + (now - x.paused))) }

/-- Enters ADAPTING from FROZEN, in which the wander timer paused (R203). -/
def adaptResume (kb : Nat) (s : LaneNode) : LaneNode :=
  let t := adaptStart kb s
  (t.1, { t.2 with atEnd := (s.2.resume s.1.mono).atEnd })

/-- The current trims are loaded in FROZEN: a coefficient they take off its range end is at one no more, and one they put there starts its
time when the lane adapts again (R203, R205). -/
def frozenLoad (kb : Nat) (s : LaneNode) : LaneNode :=
  let (n, x) := loadTrims kb s
  (n, { x with atEnd := (coefs n kb).mapIdx fun i v => if coefEnd i v then some ((x.atEnd.getD i none).getD x.paused) else none })


/-- ADAPT_MODE written (R203). -/
def laneAdaptMode (kb v : Nat) (s : LaneNode) : LaneNode :=
  let s := loadTrims kb (s.1.putN (kb + 2) v, { s.2 with adapt := .fixed, converged := false, byWander := false, good := 0 })
  if v ≠ 0 ∧ s.2.cdr = true then adaptStart kb s else s

/-- Near-end parallel loopback, in which the detectors are forced deasserted (R209, R210). -/
def laneLoop (n : Node) (kb : Nat) : Bool := if n.chan then n.num (kb + 0x15) == 2 else n.num (kb + 0x15) == 3

/-- CDR lock (R201): the measured frequency, and ADAPTING where the mode asks for it, or where HELD waits for it (R203). -/
def laneLock (kb : Nat) (freq : Int) (s : LaneNode) : LaneNode :=
  let s : LaneNode := (s.1.putI 32 (kb + 0x13) freq, { s.2 with cdr := true })
  let waits : Bool := s.2.adapt == .fixed || (s.2.adapt == .held && !s.2.converged && !s.2.byWander)
  if waits = true ∧ s.1.num (kb + 2) ≠ 0 then adaptStart kb s else s

/-- FREQ_OFFSET lies outside ±LOL_PPM (R206). -/
def freqOut (kb : Nat) (n : Node) : Bool := decide (10 * n.num (kb + 0x0C) < (n.sint 32 (kb + 0x13)).natAbs)

/-- LOL asserts (R206). -/
def laneLol (kb : Nat) (s : LaneNode) : LaneNode :=
  if s.2.lol = true ∨ laneLoop s.1 kb = true then s
  else laneFreeze kb (Node.inc (s.1.setFlag (kb + 0x0E) 1) (kb + 0x10), { s.2 with lol := true, lolSince := s.1.mono })

/-- LOS asserts, and LOL with it (R206). -/
def laneLos (kb : Nat) (s : LaneNode) : LaneNode :=
  if s.2.los = true ∨ laneLoop s.1 kb = true then s
  else laneFreeze kb (laneLol kb (Node.inc (s.1.setFlag (kb + 0x0E) 0) (kb + 0x0F), { s.2 with los := true }))

/-- A measurement of the received signal's frequency over 10 µs, with the cycle slips of the last eight intervals of 1 µs (R201, R206). While
LOS is asserted the CDR holds its last frequency. -/
def laneMeasure (kb : Nat) (freq : Int) (slips : Nat) (s : LaneNode) : LaneNode :=
  if s.2.los then s else
    let s : LaneNode := (s.1.putI 32 (kb + 0x13) freq, s.2)
    if freqOut kb s.1 || decide (4 < slips) then laneLol kb s else s

/-- Three measurements in a row without cycle slips: LOL deasserts where all lie within ±LOL_PPM and LOS is not asserted (R206). -/
def laneRegain (kb : Nat) (freqs : List Int) (s : LaneNode) : LaneNode :=
  if s.2.los then s else
    let out : Bool := freqs.any fun f => freqOut kb (s.1.putI 32 (kb + 0x13) f)
    (s.1.putI 32 (kb + 0x13) (freqs.getLastD 0), if out then s.2 else { s.2 with lol := false })

/-- LOL lasting 10 ms (R203): a lane in HELD without lock waits there for it. -/
def laneLolReload (kb : Nat) (s : LaneNode) : LaneNode :=
  if s.2.lol = true ∧ nsTicks 10000000 ≤ s.1.mono - s.2.lolSince then
    match s.2.adapt with
    | .frozen => frozenLoad kb s
    | .held =>
      let t := loadTrims kb (s.1, { s.2 with converged := false, byWander := false })
      if t.2.cdr = true ∧ t.1.num (kb + 2) ≠ 0 then adaptStart kb t else t
    | _ => s
  else s

/-- A window of 65,536 UI (R204): bit changes, idle units of all blocks or characters, the bits of it that the checker compared in sync and
its errors (R212); `locked`: the lane has block or character lock; `scanned`: a scan runs on the lane. -/
def laneWindow (kb changes idle total compared errors : Nat) (locked scanned : Bool) (s : LaneNode) : LaneNode :=
  if s.2.standby then s else
    let (n, x) := s
    let n := if n.flag (kb + 0x18) then (n.add 64 (kb + 0x19) compared).add 64 (kb + 0x1A) errors else n
    let idle := if n.num (kb + 0x15) = 0 ∧ locked = true then idle else 0
    let good : Bool := (n.num (kb + 5) == 0 || decide (n.num (kb + 5) * 65536 ≤ changes * 256)) &&
      (n.num (kb + 6) == 0 || decide (idle * 256 ≤ n.num (kb + 6) * total))
    match x.adapt, good with
    | .adapting, false => laneFreeze kb (n, x)
    | .frozen, false => (n, { x with good := 0 })
    | .frozen, true =>
      let g := x.good + 1
      if n.num (kb + 7) ≤ g ∧ x.cdr = true ∧ x.lol = false ∧ scanned = false then
        if oneShotOver kb (n, x) then (n, { x with adapt := .held, good := 0, converged := true, byWander := false })
        else adaptResume kb (n, x)
      else (n, { x with good := g })
    | _, _ => (n, x)

/-- What follows a move of the coefficients: the convergence reference, and the time at an end. -/
def coefMoved (kb : Nat) (s : LaneNode) : LaneNode :=
  let cs := coefs s.1 kb
  let far : Bool := (cs.zip s.2.ref).any fun (a, b) => decide (1 < (a - b).natAbs)
  let ends := cs.mapIdx fun i x => if coefEnd i x then some ((s.2.atEnd.getD i none).getD s.1.mono) else none
  (s.1, { s.2 with ref := if far then cs else s.2.ref, moved := if far then s.1.mono else s.2.moved, atEnd := ends })

/-- One code up, down or none. -/
def oneCode (x : Int) : Int := clampI (-1) 1 x

/-- A DFE update (R202): the sign of each tap's step. -/
def laneDfe (kb : Nat) (steps : List Int) (s : LaneNode) : LaneNode :=
  if s.2.adapt = .adapting then
    let cs := coefs s.1 kb
    let dfe := (cs.drop 1).mapIdx fun i x => x + oneCode (steps.getD i 0)
    coefMoved kb (putCoefs kb (cs.headD 0 :: dfe) s.1, s.2)
  else s

/-- A CTLE update (R202). -/
def laneCtle (kb : Nat) (step : Int) (s : LaneNode) : LaneNode :=
  if s.2.adapt = .adapting then
    let cs := coefs s.1 kb
    coefMoved kb (putCoefs kb ((cs.headD 0 + oneCode step) :: cs.drop 1) s.1, s.2)
  else s

/-- A one-shot converges: no move by more than one code over 1 ms, or 5 ms (R203). In FROZEN, where coefficients are held, only the 5 ms
count, and the lane goes to HELD when it leaves FROZEN (DESIGN CHOICE, unsafe: log entry 2203). -/
def laneConverge (kb : Nat) (s : LaneNode) : LaneNode :=
  if s.2.adapt = .frozen ∧ oneShotOver kb s = true then (s.1, { s.2 with converged := true }) else
  if s.2.adapt = .adapting ∧ s.1.num (kb + 2) = 2 ∧
      (nsTicks 1000000 ≤ s.1.mono - s.2.moved ∨ nsTicks 5000000 ≤ s.1.mono - s.2.entered) then
    (s.1, { s.2 with adapt := .held, converged := true, byWander := false })
  else s

/-- Wander is declared and acted on (R205). `write` writes its ALARM. -/
def laneWander (kb : Nat) (write : Node → Node) (s : LaneNode) : LaneNode :=
  let (n, x) := s
  let long : Bool := n.num (kb + 8) != 0 && x.atEnd.any fun o =>
    match o with | some t => decide (nsTicks (n.num (kb + 8) * 1000000) ≤ n.mono - t) | none => false
  let far : Bool := n.num (kb + 9) != 0 && (((coefs n kb).drop 1).zip x.live.dfe).any fun (a, b) => decide (n.num (kb + 9) < (a - b).natAbs)
  if x.adapt = .adapting ∧ n.bitOf (kb + 0x0E) 2 = false ∧ (long || far) = true then
    let s : LaneNode := (write (Node.inc (n.setFlag (kb + 0x0E) 2) (kb + 0x11)), x)
    match n.num (kb + 0x0A) with
    | 1 => coefMoved kb (loadTrims kb s)
    | 2 => loadTrims kb (s.1, { s.2 with adapt := .held, byWander := true })
    | _ => s
  else s

/-- WANDER cleared while HELD was entered by wander (R203). -/
def laneWanderClear (kb : Nat) (s : LaneNode) : LaneNode :=
  if s.2.adapt = .held ∧ s.2.byWander = true then
    let s := (s.1, { s.2 with byWander := false })
    if s.2.cdr then adaptStart kb s else s
  else s

/-- New trims for the lane at a temperature (R207); `none`: no valid set, one EVENT of lane `l`. -/
def laneTrims (kb l : Nat) (temp : Int) (t : Option Trims) (s : LaneNode) : LaneNode :=
  let n := s.1.putI 16 (kb + 0x14) temp
  match t with
  | some t => (n, { s.2 with target := t, trimDefault := false })
  | none => (if s.2.trimDefault then n else n.event 0x203 l, { s.2 with target := {}, trimDefault := true })

/-- A live value moves one code toward its trim (R207). -/
def ramp (live target : Int) : Int := live + oneCode (target - live)

/-- Every trim moves by at most one code (R207); in FIXED the coefficients of a lane that is not in standby follow. -/
def laneRamp (kb : Nat) (s : LaneNode) : LaneNode :=
  let a := s.2.live
  let b := s.2.target
  let live : Trims := { ctle := ramp a.ctle b.ctle, dfe := (a.dfe.zip b.dfe).map fun (x, y) => ramp x y, cdr := ramp a.cdr b.cdr,
                        los := ramp a.los b.los }
  let s : LaneNode := (s.1, { s.2 with live := live })
  if s.2.adapt = .fixed ∧ s.2.standby = false then loadTrims kb s else s

/-- LANE_STATUS (R217). -/
def laneStatus (x : Lane) : Nat :=
  b2n x.los + 2 * b2n x.lol + 4 * b2n (x.adapt == .frozen) + 8 * b2n x.converged + 16 * b2n x.trimDefault + 32 * b2n (x.adapt == .held)

/-- PRBS_CLEAR (R212). -/
def lanePrbsClear (kb : Nat) (n : Node) : Node := ((n.putN (kb + 0x19) 0).putN (kb + 0x1A) 0).putN (kb + 0x1B) 0

/-! ## Test patterns (R209, R211) -/

/-- The degree and the inner tap of a PRBS's polynomial (R211); the user word repeats after 64 bits. -/
def prbsTaps (sel : Nat) : Nat × Nat :=
  match sel with
  | 0 => (7, 6)
  | 1 => (15, 14)
  | 2 => (23, 18)
  | 3 => (31, 28)
  | _ => (64, 64)

/-- Bit `i` of a pattern after the bits `past`, newest first, before its inversion (R211). -/
def patternBit (sel word : Nat) (past : List Bool) (i : Nat) : Bool :=
  if sel = 4 then bit word (i % 64) else
    let (a, b) := prbsTaps sel
    past.getD (a - 1) false != past.getD (b - 1) false

/-- The generator's first `k` bits from a seed, oldest first (R211). -/
def patternBits (sel word : Nat) (invert : Bool) (seed : List Bool) (k : Nat) : List Bool :=
  let all := (List.range k).foldl (fun past i => patternBit sel word past i :: past) seed.reverse
  (all.take k).reverse.map (· != invert)

/-- The checker gains sync on bits in order of reception: seeded from the first of them, it finds no error in the 64 that follow (R212). -/
def checkerSync (sel word : Nat) (invert : Bool) (bits : List Bool) : Bool :=
  let seed := (prbsTaps sel).1
  let l := bits.map (· != invert)
  l.length == seed + 64 &&
    (if sel = 4 then (List.range 64).any fun k => l == (List.range 128).map fun i => bit word ((i + k) % 64)
     else l.drop seed == patternBits sel word false (l.take seed) 64)

/-- The checker loses sync: 16 errors or more in 64 bits, `wrong` saying which (R212). `bits` and `errors`: what it counted since the last
whole window. -/
def lanePrbsLoss (kb bits errors : Nat) (wrong : List Bool) (s : LaneNode) : LaneNode :=
  if s.1.flag (kb + 0x18) = true ∧ wrong.length ≤ 64 ∧ 16 ≤ wrong.count true then
    (Node.putN ((s.1.add 64 (kb + 0x19) bits).add 64 (kb + 0x1A) errors) (kb + 0x18) 0, { s.2 with lost := true })
  else s

/-- The checker gains sync on the received bits, or regains it (R212); it runs in the test modes (R209). `word`: PAT_WORD. -/
def lanePrbsGain (kb word : Nat) (bits : List Bool) (s : LaneNode) : LaneNode :=
  if s.1.num (kb + 0x15) = 0 ∨ s.1.flag (kb + 0x18) = true ∨
      checkerSync (s.1.num (kb + 0x16)) word (s.1.flag (kb + 0x17)) bits = false then s
  else
    let n := s.1.putN (kb + 0x18) 1
    (if s.2.lost then n.inc (kb + 0x1B) else n, { s.2 with lost := false })

/-- LANE_TEST written with another value: the checker starts anew (R209, R212). -/
def lanePrbsReset (kb : Nat) (s : LaneNode) : LaneNode := (s.1.putN (kb + 0x18) 0, { s.2 with lost := false })

/-- What the transmit pins of a duplex lane carry (R209): link traffic, a pattern, electrical idle, or the received data sent on. -/
def laneTx (kb word : Nat) (n : Node) : LaneTx :=
  match n.num (kb + 0x15) with
  | 0 => .link
  | 4 => .echo
  | _ => if n.flag (kb + 0x22) then .idle else .pattern (n.num (kb + 0x16)) (n.flag (kb + 0x17)) word

/-- A lane powers down or starts anew: no lock, no detector, FIXED with the trims as coefficients (R198, R203, R532). -/
def laneOff (kb : Nat) (s : LaneNode) : LaneNode :=
  loadTrims kb (s.1, { s.2 with cdr := false, blockLock := false, los := false, lol := false, good := 0, adapt := .fixed,
                                converged := false, byWander := false, standby := false })

/-- The limits of TX_FIR (R208). -/
def txFirOk (v : List Nat) : Bool :=
  match v with
  | [pre, main, post] =>
    decide (pre ≤ 15) && decide (24 ≤ main) && decide (main ≤ 63) && decide (post ≤ 31) && decide (pre + main + post ≤ 63) &&
      decide (16 + pre + post ≤ main)
  | _ => false

/-! ## Eye scan (R213, R214) -/

/-- What SCAN_CTRL 1 answers: 0 accepted, 1 RANGE, 2 BUSY. -/
def scanCheck (n : Node) (ks : Nat) (enabled : Nat → Bool) (sc : Option Scan) : Nat :=
  if sc.isSome then 2
  else if n.sint 8 (ks + 3) < n.sint 8 (ks + 2) ∨ n.sint 8 (ks + 6) < n.sint 8 (ks + 5) ∨ n.num (ks + 4) = 0 ∨ n.num (ks + 7) = 0 ∨
      enabled (n.num (ks + 1)) = false then 1 else 0

/-- A scan starts: SCAN_RESULT is cleared. -/
def scanStart (ks : Nat) (n : Node) : Node × Option Scan :=
  (((n.put (ks + 0x0C) []).putN (ks + 0x0B) 0).putN (ks + 0x0A) 1,
   some { lane := n.num (ks + 1), phase := n.sint 8 (ks + 2), volt := n.sint 8 (ks + 5) })

/-- A scan ends with a status. -/
def scanEnd (ks status : Nat) (n : Node) : Node × Option Scan := (n.putN (ks + 0x0A) status, none)

/-- A point has been measured: 8 bytes are appended; the next point, phase inner (R213). -/
def scanPoint (ks errors : Nat) (n : Node) (sc : Scan) : Node × Option Scan :=
  let rec_ := [toBits 8 sc.phase, toBits 8 sc.volt, 0, 0] ++ leBytes 4 (satN 32 errors)
  let n := Node.add (n.put (ks + 0x0C) (n.elems (ks + 0x0C) ++ rec_)) 16 (ks + 0x0B) 1
  let ph := sc.phase + n.num (ks + 4)
  if ph ≤ n.sint 8 (ks + 3) then (n, some { sc with phase := ph })
  else
    let vo := sc.volt + n.num (ks + 7)
    if vo ≤ n.sint 8 (ks + 6) then (n, some { sc with phase := n.sint 8 (ks + 2), volt := vo }) else scanEnd ks 2 n

end Sys2Proof.Machine
end

