-- ==== Sys2Proof/Machine/CalEngine.lean ====
section
/-!
DEFINITION. Chapter 19: the calibration store and its writes, lane trims, and reference calibration runs.
-/

namespace Sys2Proof.Machine

/-- The common block with calibration. -/
abbrev CalNode := Node × CalBlock

/-! ## The store (R501-R508) -/

/-- Payload capacity of an area (R502). -/
def areaCapacity (a : Nat) : Nat := if a = 0 then 520192 else if a = 1 then 61440 else 1044480

/-- The store address and the size of slot 2a + s (R502). -/
def slotPlace (i : Nat) : Nat × Nat :=
  let s := i % 2
  if i / 2 = 0 then (0x80000 * s, 0x80000)
  else if i / 2 = 1 then (0x100000 + 0x10000 * s, 0x10000)
  else (0x200000 + 0x200000 * (i / 2 - 2) + 0x100000 * s, 0x100000)

/-- `l` cut or filled with erased bytes to `n` bytes. -/
def padErased (n : Nat) (l : List Nat) : List Nat := l.take n ++ List.replicate (n - l.length) 0xFF

/-- The 32 bytes of a commit record (R503). -/
def commitRecord (area seq time : Nat) (payload : List Nat) : List Nat :=
  let r := leBytes 4 0x4C414348 ++ [area, 1, 0, 0] ++ leBytes 4 seq ++ leBytes 4 payload.length ++ leBytes 4 (crc32c payload) ++ leBytes 8 time
  r ++ leBytes 4 (crc32c r)

namespace Slot

/-- What the bytes of a slot of area `a` say it is (R504). -/
def view (a : Nat) (x : Slot) : SlotView :=
  if (x.page.take 32).all (· == 0xFF) then .empty
  else
    let r := padErased 32 x.page
    let len := field r 12 4
    if field r 0 4 ≠ 0x4C414348 ∨ field r 4 1 ≠ a ∨ field r 5 1 ≠ 1 ∨ field r 28 4 ≠ crc32c (r.take 28) ∨ areaCapacity a < len then .bad
    else
      let p := padErased len x.data
      if field r 16 4 = crc32c p then .valid (field r 8 4) (field r 20 8) p else .bad

/-- The 64 KB blocks that hold the commit page and a payload of `len` bytes are erased (R505 step 2). -/
def erase (len : Nat) (x : Slot) : Slot :=
  let n := 65536 * ((0x1000 + len + 65535) / 65536) - 0x1000
  { page := [], data := if x.data.length ≤ n then [] else List.replicate n 0xFF ++ x.data.drop n }

/-- A payload programmed from slot offset 1000h (R505 step 3). -/
def program (p : List Nat) (x : Slot) : Slot := { x with data := p ++ x.data.drop p.length }

/-- The byte at slot offset `off` reads `v`. -/
def putByte (off v : Nat) (x : Slot) : Slot :=
  let put (l : List Nat) (i : Nat) : List Nat := padErased i l ++ v :: l.drop (i + 1)
  if off < 0x1000 then { x with page := put x.page off } else { x with data := put x.data (off - 0x1000) }

/-- Bit `r` of the commit record and the payload has turned. -/
def spoil (len r : Nat) (x : Slot) : Slot :=
  let i := r / 8 % (32 + len)
  let (l, j) := if i < 32 then (x.page, i) else (x.data, i - 32)
  x.putByte (if i < 32 then i else 0x1000 + (i - 32)) (Nat.xor (l.getD j 0xFF) (2 ^ (r % 8)))

/-- A slot whose commit record is not completed is not valid (R506, R507). -/
def unfinished (a : Nat) (x : Slot) : Slot :=
  match x.view a with
  | .valid _ _ _ => { x with page := 0xFF :: x.page.drop 1 }
  | _ => x

/-- What a store write that stops leaves of its target: the erase of the commit page has come to an open place (`stage` 0), the payload to
one (1), or some bits of the commit record are not programmed (2). `r`: 256 open bits. -/
def torn (area stage r : Nat) (record payload : List Nat) (x : Slot) : Slot :=
  unfinished area <|
    let e := x.erase payload.length
    if stage = 0 then { e with page := List.replicate (r % 4097) 0xFF ++ x.page.drop (r % 4097) }
    else if stage = 1 then e.program (payload.take (r % (payload.length + 1)))
    else { e.program payload with page := (record.zip (leBytes 32 r)).map fun (b, m) => Nat.lor b m }

end Slot

namespace CalBlock

/-- What slot 2a + s is. -/
def slot (b : CalBlock) (i : Nat) : SlotView := (b.slots.getD i {}).view (i / 2)

/-- Slot 2a + s changed. -/
def onSlot (b : CalBlock) (i : Nat) (f : Slot → Slot) : CalBlock := { b with slots := listPut b.slots i (f (b.slots.getD i {})) }

/-- The byte at a store address reads `v`; an address R502 does not name holds none of the device's. -/
def putByte (b : CalBlock) (at_ v : Nat) : CalBlock :=
  match (List.range 16).find? fun i => decide ((slotPlace i).1 ≤ at_ ∧ at_ < (slotPlace i).1 + (slotPlace i).2) with
  | some i => b.onSlot i (Slot.putByte (at_ - (slotPlace i).1) v)
  | none => b

/-- The slot in force of area `a`: its side, SEQ and payload (R504). -/
def inForce (b : CalBlock) (a : Nat) : Option (Nat × Nat × List Nat) :=
  match b.slot (2 * a), b.slot (2 * a + 1) with
  | .valid s _ p, .valid t _ q => if 0 < genOrder s t then some (1, t, q) else some (0, s, p)
  | .valid s _ p, _ => some (0, s, p)
  | _, .valid t _ q => some (1, t, q)
  | _, _ => none

end CalBlock

/-- What the store objects show of the slots (R519). -/
def storeShow (s : CalNode) : CalNode :=
  let (n, b) := s
  let st (i : Nat) : Nat := if (b.write.map (·.slot)) == some i then 3 else match b.slot i with | .empty => 0 | .valid _ _ _ => 1 | .bad => 2
  let sq (i : Nat) : Nat := if (b.write.map (·.slot)) == some i then 0 else match b.slot i with | .valid q _ _ => q | _ => 0
  let n := (n.put K.SLOT_STATE ((List.range 16).map st)).put K.SLOT_SEQ ((List.range 16).map sq)
  (n.put K.AREA_IN_FORCE ((List.range 8).map fun a => match b.inForce a with | some (x, _, _) => x | none => 0xFF), b)

/-- The SEQ in force of an area exceeds WEAR_SEQ (R507). -/
def worn (s : CalNode) : Bool :=
  let (n, b) := s
  n.num K.STORE_STATE != 0 && (List.range 8).any fun a => match b.inForce a with | some (_, q, _) => decide (n.num K.WEAR_SEQ < q) | none => false

/-- WEAR where an area is worn (R507). -/
def storeWear (s : CalNode) : CalNode := (if worn s then s.1.setFlag K.CAL_FLAGS 6 else s.1, s.2)

/-- A store write or a load runs (R505). -/
def storeBusy (n : Node) : Bool := n.num K.STORE_STATE == 2 || n.num K.STORE_STATE == 3

/-- Why a write to a store action object is turned away (R501, R505). -/
def storeReject (n : Node) : Option Status :=
  if n.num K.STORE_STATE = 0 then some .access else if storeBusy n then some .busy else none

/-- STORE_RESULT of a failed write, and its ALARM (R506). -/
def storeFail (code : Nat) (s : CalNode) : CalNode :=
  let (n, b) := s
  let n := Node.alarm ((n.putN K.STORE_RESULT code).setFlag K.CAL_FLAGS 1) 164
  (if n.num K.STORE_LAST_AREA = 0 then n.putN K.PERSIST_STATUS 3 else n, b)

/-- A store write starts (R505 step 1). A persisted set that is too large is not written (R506). -/
def storeStart (area : Nat) (payload : List Nat) (s : CalNode) : CalNode :=
  let (n, b) := s
  let n := n.putN K.STORE_LAST_AREA area
  if areaCapacity area < payload.length then storeFail 5 (n, b)
  else
    let (side, seq) := match b.inForce area with | some (x, q, _) => (1 - x, wrap 32 (q + 1)) | none => (0, 1)
    let n := n.putN K.STORE_STATE 3
    let n := if area = 0 then n.putN K.PERSIST_STATUS 1 else n
    storeShow (n, { b with write := some { area := area, slot := 2 * area + side, seq := seq, payload := payload } })

/-- The write ends: 1 in force, else failed for the cause of STORE_RESULT (R505, R506). How far the erase or program had gone is open: free
values. -/
def storeEnd (result : Nat) (s : CalNode) : CalNode :=
  let (n, b) := s
  match b.write with
  | none => s
  | some w =>
    let n := n.putN K.STORE_STATE 1
    if result = 1 then
      let b := CalBlock.onSlot { b with write := none } w.slot fun x =>
        { (x.erase w.payload.length).program w.payload with page := commitRecord w.area w.seq n.ns w.payload }
      let n := (n.putN K.STORE_RESULT 1).occur 163
      let n := if w.area = 0 then n.putN K.PERSIST_STATUS 2 else n
      storeWear (storeShow (n, b))
    else
      let (k, n) := n.takeFree 2
      let (r, n) := n.takeFree 256
      storeShow (storeFail result (n, CalBlock.onSlot { b with write := none } w.slot
        (Slot.torn w.area k r (commitRecord w.area w.seq n.ns w.payload) w.payload)))

/-- Power fails: a write under way leaves its target empty, bad or unchanged (R507), by how far it had gone: free values. -/
def storePowerFail (s : CalNode) : CalNode :=
  let (n, b) := s
  match b.write with
  | none => s
  | some w =>
    let (k, n) := n.takeFree 2
    let (r, n) := n.takeFree 256
    (n, if k = 3 then { b with write := none } else CalBlock.onSlot { b with write := none } w.slot
      (Slot.torn w.area k r (commitRecord w.area w.seq n.ns w.payload) w.payload))

/-- The store answers at PORST, or is absent (R501, R508): every commit record and payload is checked, and each bad slot is told. -/
def storeLoad (dev : Option StoreDev) (s : CalNode) : CalNode :=
  let (n, b) := s
  match dev with
  | none => (Node.setFlag (n.putN K.STORE_STATE 0) K.CAL_FLAGS 2, b)
  | some d =>
    let b := d.changed.foldl (fun b e => b.putByte e.1 e.2) b
    let n := ((n.putN K.STORE_STATE 1).putN K.STORE_JEDEC_ID d.jedec).putN K.STORE_CAPACITY d.capacity
    let bads := ((List.range 16).filter fun i => b.slot i == .bad).length
    let n := (List.range bads).foldl (fun n _ => (n.setFlag K.CAL_FLAGS 3).event 166 0) n
    storeWear (storeShow (n, b))

/-- The fuses as read at PORST (R500): 0 clean, 1 corrected, 2 uncorrectable. -/
def fuseRead (status : Nat) (n : Node) : Node :=
  let n := n.putN K.FUSE_STATUS status
  if status = 2 then
    let n := ((n.putN K.FUSE_BANDGAP 16).put K.FUSE_TSENSE (zeros 16)).putN K.FUSE_OSC 32
    let n := (n.put K.FUSE_LANE_IMP (List.replicate 54 8)).put K.UNIQUE_ID (zeros 2)
    let n := ((n.putN K.DATE_CODE 0).put K.NET_MAC [0, 0]).putN K.PTP_CLOCK_ID 0
    (n.setFlag K.CAL_FLAGS 5).alarm 169
  else
    let n := ((n.putN K.FUSE_BANDGAP Config.fuseBandgap).put K.FUSE_TSENSE ((List.range 16).map Config.fuseTsense)).putN K.FUSE_OSC Config.fuseOsc
    let n := (n.put K.FUSE_LANE_IMP ((List.range 54).map Config.fuseLaneImp)).put K.UNIQUE_ID ((List.range 2).map Config.uniqueId)
    ((n.putN K.DATE_CODE Config.dateCode).put K.NET_MAC ((List.range 2).map Config.netMac)).putN K.PTP_CLOCK_ID Config.ptpClockId

/-! ## Lane trims (R207, R509, R510) -/

/-- The nominal temperatures of TRIM_SET_TEMP, in 1/16 °C. -/
def trimTemp (k : Nat) : Int := [-640, -160, 320, 800, 1200, 1520, 1760, 2000].getD k 0

/-- A working image that no lane has a value in (R509): no set VALID, and CTLE of every lane record FFh (DESIGN CHOICE, unsafe: log entry
1509). -/
def trimBlank : List Nat := (List.range 8).flatMap fun _ => zeros 16 ++ (List.range 54).flatMap fun _ => 0xFF :: zeros 7

/-- The working image (R509): what was loaded or captured, and blank beyond it. -/
def workingImage (n : Node) : List Nat := n.elems K.TRIM_IMAGE ++ trimBlank.drop (n.elems K.TRIM_IMAGE).length

/-- The lane record of a lane in a set. -/
def laneRecord (image : List Nat) (k lane : Nat) : List Nat := slice image (448 * k + 16 + 8 * lane) 8

/-- The trims a lane record holds. -/
def recordTrims (r : List Nat) : Trims :=
  { ctle := r.getD 0 0, dfe := (slice r 1 5).map (toSigned 8), cdr := r.getD 6 0, los := toSigned 8 (r.getD 7 0) }

/-- A value between two sets (R207 step 2): halves away from zero. -/
def trimBetween (t0 t1 temp a b : Int) : Int :=
  rdivI (a * (t1 - t0) + (b - a) * (temp - t0)) (t1 - t0).toNat

/-- The trims of a lane at a temperature (R207, R509); `none`: no set holds a value for it. -/
def trimsFor (image : List Nat) (lane : Nat) (temp : Int) : Option Trims :=
  let ks := (List.range 8).filter fun k => image.getD (448 * k + 2) 0 != 0 && (laneRecord image k lane).getD 0 0xFF != 0xFF
  let get (k : Nat) : Trims := recordTrims (laneRecord image k lane)
  match ks.filter (fun k => decide (trimTemp k ≤ temp)), ks.filter (fun k => decide (temp < trimTemp k)) with
  | [], [] => none
  | [], k :: _ => some (get k)
  | lo, [] => some (get (lo.getLastD 0))
  | lo, k :: _ =>
    let j := lo.getLastD 0
    let f := trimBetween (trimTemp j) (trimTemp k) temp
    let a := get j
    let b := get k
    some { ctle := f a.ctle b.ctle, dfe := (a.dfe.zip b.dfe).map fun (x, y) => f x y, cdr := f a.cdr b.cdr, los := f a.los b.los }

/-- The temperature of the sensor nearest a lane in 1/16 °C (22 R590): camera lanes of SWc use sensor 6 + c, duplex lanes 13. -/
def laneSensor (n : Node) (lane : Nat) : Int := toSigned 16 (n.elem K.MON_TEMP (if lane < 48 then 6 + lane / 8 else 13))

/-- Why a lane is not captured, or its record (R510): 0 captured, 1 the temperature is out of its range, 2 otherwise. -/
def captureLane (n : Node) (k lane : Nat) (lanes : Nat → Option (Node × Nat × Lane)) : Nat × List Nat :=
  match lanes lane with
  | none => (2, [])
  | some (u, kb, x) =>
    let near : Bool := decide ((laneSensor n lane - trimTemp k).natAbs ≤ 128)
    let good : Bool := !x.los && !x.lol && ((x.adapt == .held && x.converged) || (x.adapt == .adapting && !u.bitOf (kb + 0x0E) 2))
    if good && near then
      let cs := coefs u kb
      (0, [(cs.headD 0).toNat] ++ (cs.drop 1).map (toBits 8) ++ [toBits 8 x.live.cdr, toBits 8 x.live.los])
    else (if near then 2 else 1, [])

/-- TRIM_CAPTURE (R510). `lanes`: the unit, object base and state of each enabled lane. -/
def trimCapture (lanes : Nat → Option (Node × Nat × Lane)) (n : Node) : Node :=
  let k := n.num K.TRIM_SET
  let rs := (List.range 54).map fun l => (l, captureLane n k l lanes)
  let got := rs.filter fun r => r.2.1 == 0
  let image := workingImage n
  let image := got.foldl (fun im r => splice im (448 * k + 16 + 8 * r.1) r.2.2) image
  let n := n.putN K.TRIM_CAPTURED (got.foldl (fun m r => setBit m r.1) 0)
  if got.isEmpty then
    let enabled := rs.filter fun r => (lanes r.1).isSome
    let cold : Bool := !enabled.isEmpty && enabled.all fun r => r.2.1 == 1
    (n.putN K.TRIM_STATUS (if cold then 2 else 3)).setFlag K.CAL_FLAGS 4
  else
    let image := splice image (448 * k) (leBytes 2 (toBits 16 (trimTemp k)) ++ [1] ++ zeros 5 ++ leBytes 8 n.ns)
    let n := (n.put K.TRIM_IMAGE image).putN K.TRIM_VALID (setBit (n.num K.TRIM_VALID) k)
    (n.putN K.TRIM_STATUS 1).occur 167

/-- The working image as area 1 gives it at the load (R508); an absent store has no valid slot (R501). -/
def trimLoad (s : CalNode) : CalNode :=
  match (if s.1.num K.STORE_STATE = 0 then none else s.2.inForce 1) with
  | some (_, _, p) =>
    let image := (p ++ trimBlank.drop p.length).take 3584
    let ok := (List.range 8).foldl (fun m k => if image.getD (448 * k + 2) 0 != 0 then setBit m k else m) 0
    ((s.1.put K.TRIM_IMAGE image).putN K.TRIM_VALID ok, s.2)
  | none => s

/-! ## Banks and traceability (R511, R517, R518) -/

/-- The bank object of bank `b`. -/
def bankKey (b : Nat) : Nat := if b = 0 then K.CORR_BANK0 else K.CORR_BANK1

/-- The working bank of a channel: the one CORR_BANK_SEL in force does not select (R511). -/
def workingBank (c : Chan) : Nat := 1 - c.n.num K.CORR_BANK_SEL

/-- The traceability records of bank `b` of channel `ch`. -/
def CalBlock.trace (s : CalBlock) (ch b : Nat) : List (List Nat) := s.traces.getD (2 * ch + b) []
/-- Give a bank its records. -/
def CalBlock.putTrace (s : CalBlock) (ch b : Nat) (t : List (List Nat)) : CalBlock := { s with traces := listPut s.traces (2 * ch + b) t }

/-- The working bank of channel `ch` is prepared. -/
def prepared (n : Node) (ch : Nat) : Bool := n.bitOf K.CAL_PREPARED ch
/-- Set or clear it. -/
def putPrepared (ch : Nat) (on : Bool) (n : Node) : Node := n.putN K.CAL_PREPARED (putBit (n.num K.CAL_PREPARED) ch on)

/-- The payload of a PIXEL area (R517). -/
def pixPayload (s : CalBlock) (ch : Nat) (c : Chan) : List Nat :=
  padTo 524288 (c.bank (c.n.num K.CORR_BANK_SEL)) ++ (s.trace ch (c.n.num K.CORR_BANK_SEL)).flatMap (padTo 128)

/-- A PIXEL payload put into bank `b` (R518). -/
def pixInto (ch b : Nat) (payload : List Nat) (s : CalBlock) (c : Chan) : CalBlock × Chan :=
  (s.putTrace ch b ((List.range 12).map fun i => slice payload (524288 + 128 * i) 128),
   c.mapN (·.put (bankKey b) (payload.take 524288)))

/-- PIX_LOAD (R518): the slot in force checked again, `turned` the bit of it that has turned since the last check. The channel, the result,
and whether anything was loaded. -/
def pixLoad (ch : Nat) (turned : Option Nat) (s : CalNode) (c : Chan) : CalNode × Chan × Bool :=
  let (n, b) := s
  let a := 2 + ch
  let put (n : Node) (r : Nat) : Node := n.putE K.PIX_LOAD_RESULT ch r
  match b.inForce a with
  | none => ((put n 2, b), c, false)
  | some (side, _, p) =>
    let b : CalBlock := match turned with | some r => b.onSlot (2 * a + side) (Slot.spoil p.length r) | none => b
    let bad : Bool := b.slot (2 * a + side) == .bad
    let n := if bad then (n.setFlag K.CAL_FLAGS 3).event 166 0 else n
    match b.inForce a with
    | none => (storeShow (put n 2, b), c, false)
    | some (_, _, q) =>
      let (b, c) := pixInto ch (workingBank c) q b c
      (storeShow (put n (if bad then 3 else 1), b), c, true)

/-! ## Calibration runs (R511-R516) -/

/-- The head's configuration that a run must not lose (R513). -/
def calCfg (v : Store) (h : Nat) : Store :=
  (K.HEAD_RATE_MAX, [v.elem K.HEAD_RATE_MAX h]) ::
  (Chan.restartKeys h ++ [K.CORR_BANK_SEL, ik K.TBL_BASE h, ik K.TBL_DECIM h]).map fun k => (k, v.elems k)

/-- The objects of 3110h a run is started with. -/
def calSet (n : Node) : Store := (List.range 0x16).map fun i => (0x311001 + i, n.elems (0x311001 + i))

/-- Why CAL_CTRL 1 is turned away (R512). `staged`: the working bank is named by a staged CORR_BANK_SEL. -/
def calReject (s : CalNode) (c : Chan) (staged : Bool) : Option Status :=
  let n := s.1
  let h := n.num K.CAL_HEAD
  if s.2.run.isSome || storeBusy n || !c.running || c.n.num K.RETAKE_STATE != 0 || c.bankInUse (workingBank c) || staged then some .busy
  else if c.rate h = 0 ∨ c.n.flag (ik K.CORR_ENABLE h) = false ∨ (n.num K.CAL_KIND = 2 ∧ n.num K.CAL_REFLECTANCE = 0) then some .range
  else none

/-- A run starts (R511, R512): the working bank is copied from the bank in force unless it is prepared. -/
def calStart (s : CalNode) (c : Chan) : CalNode × Chan :=
  let (n, b) := s
  let ch := n.num K.CAL_CHANNEL
  let h := n.num K.CAL_HEAD
  let w := workingBank c
  let (b, c) := if prepared n ch then (b, c) else (b.putTrace ch w (b.trace ch (1 - w)), c.mapN fun m => m.put (bankKey w) (c.bank (1 - w)))
  let v := c.n.objs
  let q := if Chan.trilinear v h then 3 else 1
  let dec := v.num (ik K.TBL_DECIM h)
  let cols := v.num (ik K.LINE_LENGTH h)
  let ents := if cols = 0 then 0 else ((cols - 1) / 2 ^ dec + 1) * q
  let r : CalRun := { chan := ch, head := h, set := calSet n, cfg := calCfg v h, started := n.mono, sums := zeros ents, counts := zeros ents,
                      planes := q, cols := cols }
  let n := (((n.putN K.CAL_STATE 1).putN K.CAL_REASON 0).putN K.CAL_DETAIL 0).putN K.CAL_LINES_DONE 0
  let n := ((n.putN K.CAL_MARKED 0).putN K.CAL_SKIPPED 0).putN K.CAL_APPLIED 0
  let dark : Bool := n.num K.CAL_KIND == 1 && n.flag K.CAL_LIGHT_FORCE
  let c := { c with calHead := some (h, dark) }
  let c := if dark then (c.owned h).foldl (fun c i => c.putIll i { c.ill i with lit := false }) c else c
  ((n, { b with run := some r }), c)

/-- A run ends ABORTED (R513). -/
def calAbort (code detail : Nat) (s : CalNode) : CalNode :=
  let n := ((s.1.putN K.CAL_STATE 4).putN K.CAL_REASON code).putN K.CAL_DETAIL (satN 32 detail)
  ((n.setFlag K.CAL_FLAGS 0).event 162 0, { s.2 with run := none })

/-- The checks of a line in ascending code order: the first that fails (R513). `wp` is WP_STATE. -/
def calLineCheck (r : CalRun) (wp : Nat) (v : Store) (d : Desc) (ratio : List Nat) : Option (Nat × Nat) :=
  let now := calCfg v r.head
  let moving := r.set.num K.CAL_MOTION
  let anchor := r.set.num K.CAL_ANCHOR
  let far : Bool := r.set.num K.CAL_KIND == 1 && anchor != 2 &&
    (d.tempStale || decide (r.set.num K.CAL_TEMP_TOL < (toSigned 16 d.temp - v.sintE 16 (ik K.TEMP_ANCHOR r.head) anchor).natAbs))
  match (now.zip r.cfg).find? fun p => p.1 != p.2 with
  | some (e, _) => some (3, e.1 / 256 + 0x800 * r.chan)
  | none =>
    if (moving = 0 ∧ wp ≠ 0) ∨ (moving = 1 ∧ wp ≠ 2) then some (4, wp)
    else if far then some (5, d.temp)
    else if ratio.any (· != 2 ^ 24) then some (6, d.num)
    else none

/-- A zone's sums with a plane of a line added. -/
def zoneAdd (q : Nat) (p : List Nat) (z : ZoneSums) : ZoneSums :=
  (p.mapIdx fun k w => (64 * q + zoneOf p.length k, w)).foldl (fun z e =>
    if pxInv e.2 then z else
      { sum := listPut z.sum e.1 (z.sum.getD e.1 0 + pxVal e.2), count := listPut z.count e.1 (z.count.getD e.1 0 + 1) }) z

/-- A counted line enters the sums (R512). -/
def calAdd (n : Nat) (r : CalRun) (dec : Nat) (d : Desc) (ys : Planes) : CalRun :=
  let per := (ys.mapIdx fun q p => p.mapIdx fun k w => (k / 2 ^ dec * r.planes + q, w)).flatten
  let used := per.filter fun e => !pxInv e.2
  let early : Bool := decide (2 * r.counted < n)
  let zs := ys.mapIdx fun q p => (q, p)
  let feed (z : ZoneSums) : ZoneSums := zs.foldl (fun z e => zoneAdd e.1 e.2 z) z
  { r with sums := used.foldl (fun s e => listPut s e.1 (s.getD e.1 0 + pxVal e.2)) r.sums,
           counts := used.foldl (fun s e => listPut s e.1 (s.getD e.1 0 + 1)) r.counts,
           saturated := r.saturated + (used.filter fun e => pxSat e.2).length,
           temp := r.temp + toSigned 16 d.temp, counted := r.counted + 1,
           first := if early then feed r.first else r.first, last := if early then r.last else feed r.last }

/-- The checks once the N lines are measured (R513). -/
def calEndCheck (r : CalRun) : Option (Nat × Nat) :=
  let flat : Bool := r.set.num K.CAL_KIND == 2
  let plane (l : List Nat) (q : Nat) : Nat := ((l.mapIdx fun i x => if i % r.planes = q then x else 0)).sum
  let total := r.sums.sum
  let count := r.counts.sum
  let low := (List.range r.planes).find? fun q => decide (plane r.sums q < r.set.num K.CAL_WHITE_MIN * plane r.counts q) || plane r.counts q == 0
  let zone := (List.range (64 * r.planes)).find? fun z =>
    let c1 := r.first.count.getD z 0
    let c2 := r.last.count.getD z 0
    let m1 : Int := meanOf (r.first.sum.getD z 0) c1
    let m2 : Int := meanOf (r.last.sum.getD z 0) c2
    c1 != 0 && c2 != 0 &&
      (if flat then decide ((r.set.num K.CAL_UNIF_TOL : Int) * (m1 + m2) < 131072 * (m1 - m2).natAbs)
       else decide (r.set.num K.CAL_DARK_DRIFT < (m1 - m2).natAbs))
  if !flat && decide (r.set.num K.CAL_DARK_MAX * count < total) then some (8, meanOf total count)
  else match (if flat then low else none) with
    | some q => some (9, q * 65536 + meanOf (plane r.sums q) (plane r.counts q))
    | none =>
      if r.set.num K.CAL_SAT_MAX * count < r.saturated * 65536 then some (10, r.saturated)
      else zone.map fun z => (11, z)

/-- Bytes 0-63 of the traceability record but KIND, TEMP_ANCHOR and MARKED (R517), at the end of measurement. -/
def calRecord (n : Node) (r : CalRun) (c : Chan) : List Nat :=
  let flat : Bool := r.set.num K.CAL_KIND == 2
  let h := r.head
  [0, c.globalHead h, r.planes, r.set.num K.CAL_MOTION + 2 * r.set.num K.CAL_DEFECTS + 4 * r.set.num K.CAL_LIGHT_FORCE] ++
  leBytes 4 n.gen ++ leBytes 8 n.ns ++ leBytes 8 (pos64 n.posn.pos) ++ leBytes 2 (toBits 16 (rdivI r.temp (max 1 r.counted))) ++ zeros 2 ++
  leBytes 4 r.counted ++ (if flat then leBytes 4 (r.set.num K.CAL_REFLECTANCE) ++ leBytes 2 (r.set.num K.CAL_WHITE_LEVEL) else zeros 6) ++
  zeros 2 ++ leBytes 4 (c.n.num (ik K.EXPO_NOW h)) ++ leBytes 2 (c.n.num (ik K.GAIN_NOW h)) ++ [n.num K.TB_SOURCE, n.num K.TB_STATE] ++
  leBytes 8 (n.elem K.UNIQUE_ID 0) ++ zeros 4 ++ leBytes 2 (c.n.num (ik K.TBL_BASE h)) ++ [c.n.num (ik K.TBL_DECIM h), 0]

/-- A line of the measured head reaches the front end (R512, R513): `ys` its planes after noise reduction, `ratio` its gain ratio. -/
def calLine (wp : Nat) (c : Chan) (d : Desc) (ys : Planes) (ratio : List Nat) (s : CalNode) : CalNode :=
  match s.2.run with
  | none => s
  | some r =>
    if r.computing ∨ r.chan ≠ c.num ∨ r.head ≠ d.head then s else
      let v := c.viewIn 0 d.gen
      let n := 2 ^ r.set.num K.CAL_LINES_LOG2
      let bad : Bool := d.lost || d.short || d.long || d.crcErr || d.overrun
      let r' : CalRun := if bad then { r with skipped := r.skipped + 1 } else r
      match calLineCheck r wp v d ratio with
      | some (code, detail) => calAbort code detail s
      | none =>
        if n / 64 < r'.skipped then calAbort 7 r'.skipped s
        else if bad then (s.1, { s.2 with run := some r' })
        else
          let r := calAdd n r (v.num (ik K.TBL_DECIM r.head)) d ys
          let m := s.1.putN K.CAL_LINES_DONE r.counted
          if r.counted < n then (m, { s.2 with run := some r })
          else match calEndCheck r with
            | some (code, detail) => calAbort code detail (m, s.2)
            | none => (m.putN K.CAL_STATE 2, { s.2 with run := some { r with computing := true, record := calRecord m r c } })

/-- What COMPUTING makes of an entry (R514, R515): the entry, and whether it was marked or skipped. -/
def calEntry (r : CalRun) (v : Store) (temp : Int) (full i entry : Nat) : Nat × Bool × Bool :=
  let s := r.sums.getD i 0
  let cnt := r.counts.getD i 0
  let defects := r.set.flag K.CAL_DEFECTS
  let mk (e : Nat) : Nat := e % 512 + 512 + 3 * 1024 + e / 4096 * 4096
  if cnt = 0 ∨ 2 * cnt < full then (entry, false, true)
  else if r.set.num K.CAL_KIND = 1 then
    let d := min 65535 ((4 * s + cnt / 2) / cnt)
    let a := r.set.num K.CAL_ANCHOR
    let da := if a = 0 ∨ a = 2 then d else bits entry 63 48
    let db := if a = 1 ∨ a = 2 then d else bits entry 47 32
    let e := entry % 2 ^ 32 + db * 2 ^ 32 + da * 2 ^ 48
    if defects ∧ 4 * r.set.num K.CAL_DARK_DEFECT < d then (mk e, true, false) else (e, false, false)
  else
    let (w, _) := darkWeight (v.sintE 16 (ik K.TEMP_ANCHOR r.head) 0) (v.sintE 16 (ik K.TEMP_ANCHOR r.head) 1) temp
    let dt : Nat := (bits entry 63 48 * (65536 - w) + bits entry 47 32 * w + 32768) / 65536
    let zt := (r.set.num K.CAL_WHITE_LEVEL * r.set.num K.CAL_REFLECTANCE + 32768) / 65536
    let den : Int := (4 * s : Nat) - (cnt * dt : Nat)
    let put (g : Nat) : Nat := entry % 4096 + g * 4096 + entry / 2 ^ 32 * 2 ^ 32
    if den ≤ 0 then (if defects then (mk (put 65536), true, false) else (entry, false, true))
    else
      let dn := den.toNat
      let g := min 1048575 ((zt * 262144 * cnt + dn / 2) / dn)
      if defects ∧ (g < r.set.elem K.CAL_GAIN_LIMITS 0 ∨ r.set.elem K.CAL_GAIN_LIMITS 1 < g) then (mk (put 65536), true, false)
      else (put g, false, false)

/-- The record of a run with its KIND, TEMP_ANCHOR and MARKED (R517). -/
def calTrace (r : CalRun) (kind anchor marked : Nat) : List Nat :=
  let b := splice (listPut r.record 0 kind) 26 (leBytes 2 anchor)
  splice b 56 (leBytes 4 marked) ++ padTo 32 (r.set.elems K.CAL_CERT_ID) ++ zeros 32

/-- COMPUTING ends (R514-R517): the entries and the records, or an abort for DEFECTS. Whether the result is to be staged. -/
def calDone (s : CalNode) (c : Chan) : CalNode × Chan × Bool :=
  match s.2.run with
  | none => (s, c, false)
  | some r =>
    if !r.computing then (s, c, false) else
      let v := c.n.objs
      let w := workingBank c
      let base := v.num (ik K.TBL_BASE r.head)
      let dec := v.num (ik K.TBL_DECIM r.head)
      let bank := c.bank w
      let temp := rdivI r.temp (max 1 r.counted)
      let share (i : Nat) : Nat := min (2 ^ dec) (r.cols - i / r.planes * 2 ^ dec)
      let es := (List.range r.sums.length).map fun i => calEntry r v temp (r.counted * share i) i (bankEntry bank (base + i))
      let marked := (es.filter (·.2.1)).length
      let skipped := (es.filter (·.2.2)).length
      let c := { c with calHead := none }
      if r.set.num K.CAL_DEFECT_MAX < marked then (calAbort 12 marked s, c, false)
      else
        let c := c.mapN (·.put (bankKey w) (splice bank (8 * base) (es.flatMap fun e => leBytes 8 e.1)))
        let kind := r.set.num K.CAL_KIND
        let anchor := r.set.num K.CAL_ANCHOR
        let ta (a : Nat) : Nat := v.elem (ik K.TEMP_ANCHOR r.head) a
        let recs : List (Nat × List Nat) := if kind = 2 then [(2, calTrace r 3 0 marked)]
          else (if anchor = 1 then [] else [(0, calTrace r 1 (ta 0) marked)]) ++ (if anchor = 0 then [] else [(1, calTrace r 2 (ta 1) marked)])
        let b := recs.foldl (fun b e => b.putTrace r.chan w (listPut (b.trace r.chan w) (3 * r.head + e.1) e.2)) s.2
        let n := ((s.1.putN K.CAL_STATE 3).putN K.CAL_MARKED marked).putN K.CAL_SKIPPED skipped
        let n := putPrepared r.chan true (n.occur 161)
        ((n, { b with run := none }), c, r.set.flag K.CAL_APPLY)

/-- CAL_TIMEOUT (R513). -/
def calTimeout (s : CalNode) : CalNode :=
  match s.2.run with
  | some r =>
    if r.computing = false ∧ nsTicks (1000000 * r.set.num K.CAL_TIMEOUT) ≤ s.1.mono - r.started then calAbort 2 r.counted s else s
  | none => s

end Sys2Proof.Machine
end

