-- ==== Sys2Proof/Machine/LogEngine.lean ====
section
/-!
DEFINITION. The logbook (18 R485-R499): record formats, the Sluice of one path, the paths' writers.
-/

namespace Sys2Proof.Machine

/-! ## Formats (R487, R489) -/

/-- The bytes of a TRACE, EVENT or ALARM record. -/
def recBytes (r : LogRec) (seq : Nat) : List Nat :=
  leBytes 8 r.time ++ leBytes 4 seq ++ leBytes 4 r.gen ++ [r.kind, r.origin] ++ leBytes 2 r.code ++
  leBytes 4 r.arg ++ leBytes 8 (pos64 r.pos) ++ leBytes 8 r.flagValue ++ zeros 24

/-- The bytes of a GAP record of path `path` and class `cls`, written by origin `origin`. -/
def gapBytes (path origin cls : Nat) (g : Gap) : List Nat :=
  leBytes 8 g.time ++ leBytes 4 g.seq ++ leBytes 4 g.gen ++ [3, origin] ++ zeros 2 ++
  [path, cls] ++ zeros 2 ++ leBytes 8 g.timeLast ++ leBytes 4 (satN 32 (g.drops.foldl (· + ·) 0)) ++
  g.drops.flatMap fun d => leBytes 4 (satN 32 d)

/-- The bytes of a STORM record. -/
def stormBytes (path : Nat) (x : Storm) : List Nat :=
  leBytes 8 x.time ++ leBytes 4 x.seq ++ leBytes 4 x.gen ++ [4, x.origin] ++ leBytes 2 (x.code.getD 0xFFFF) ++
  [path] ++ zeros 3 ++ leBytes 8 x.timeLast ++ leBytes 4 (satN 32 x.count) ++ leBytes 4 x.argLast ++
  leBytes 8 (pos64 x.posLast) ++ leBytes 8 x.flagLast ++ zeros 8

/-! ## The Sluice of one path (R490-R494) -/

/-- What the Sluice counts on a path in one step (R497). -/
structure PathCount where
  droppedTrace : Nat := 0
  droppedEvent : Nat := 0
  folded : Nat := 0
  gaps : Nat := 0
  storms : Nat := 0
deriving DecidableEq, Repr

/-- A path's fixed data: PATH, Q, the origins it carries in rising order, and the origin that writes its GAP records. -/
structure PathForm where
  id : Nat
  q : Nat
  origins : List Nat
  writer : Nat := 0
deriving DecidableEq, Repr

/-- The share of an origin in the reserve of Q/4 (R491). -/
def PathForm.share (f : PathForm) (o : Nat) : Nat :=
  let n := f.origins.length
  if n = 0 ∨ f.origins.contains o = false then 0 else
    f.q / 4 / n + (if f.origins.headD 0 = o then f.q / 4 % n else 0)

namespace LogPath

/-- F (R490). -/
def fill (p : LogPath) : Nat := p.queue.length
/-- The reserve use of an origin (R491). -/
def use (p : LogPath) (o : Nat) : Nat := (p.queue.filter fun e => e.reserve == some o).length

/-- A record joins the queue; `own` is the origin whose reserve it uses where F ≥ 3Q/4. -/
def enqueue (p : LogPath) (f : PathForm) (seq kind : Nat) (bytes : List Nat) (own : Option Nat) : LogPath :=
  { p with queue := p.queue ++ [{ seq := seq, bytes := bytes, kind := kind, reserve := if p.fill < 3 * f.q / 4 then none else own }] }

/-- A dropped record in the pending gap of its class (R492). -/
def gapAdd (g : Option Gap) (r : LogRec) (seq : Nat) : Gap :=
  match g with
  | none => { time := r.time, timeLast := r.time, seq := seq, gen := r.gen, drops := listPut (zeros 7) r.origin 1 }
  | some g => { g with timeLast := r.time, drops := listPut g.drops r.origin (g.drops.getD r.origin 0 + 1) }

/-- An alarm folded into its origin's storm entry for its code, or into OTHER (R493). -/
def fold (p : LogPath) (r : LogRec) (seq : Nat) : LogPath :=
  let keyed := p.storms.filter fun x => x.origin == r.origin && x.code.isSome
  let key : Option Nat := if keyed.any (fun x => x.code == some r.code) ∨ keyed.length < 15 then some r.code else none
  if p.storms.any fun x => x.origin == r.origin && x.code == key then
    { p with storms := p.storms.map fun (x : Storm) =>
        if x.origin = r.origin ∧ x.code = key then
          { x with timeLast := r.time, gen := r.gen, count := x.count + 1, argLast := r.arg, posLast := r.pos, flagLast := r.flagValue }
        else x }
  else
    { p with storms := p.storms ++ [{ origin := r.origin, code := key, time := r.time, timeLast := r.time, seq := seq, gen := r.gen,
                                      count := 1, argLast := r.arg, posLast := r.pos, flagLast := r.flagValue }] }

/-- The pending storm entry written next: ascending origin, oldest first in TIME (R493, R494). -/
def nextStorm (p : LogPath) (o : Nat) : Option Storm :=
  (p.storms.filter fun x => x.origin == o).foldl
    (fun b x => match b with | none => some x | some y => if x.time < y.time then some x else some y) none

/-- A refused record of a path: dropped or folded (R491). -/
def refuse (p : LogPath) (c : PathCount) (r : LogRec) (seq : Nat) : LogPath × PathCount :=
  if r.kind = 0 then ({ p with gapTrace := some (gapAdd p.gapTrace r seq) }, { c with droppedTrace := c.droppedTrace + 1 })
  else if r.kind = 1 then ({ p with gapEvent := some (gapAdd p.gapEvent r seq) }, { c with droppedEvent := c.droppedEvent + 1 })
  else (p.fold r seq, { c with folded := c.folded + 1 })

/-- The pending storms of one origin that may be admitted. -/
def flushStorms (f : PathForm) (o : Nat) : Nat → LogPath × PathCount → LogPath × PathCount
  | 0, x => x
  | k + 1, (p, c) =>
    match p.nextStorm o with
    | none => (p, c)
    | some x =>
      if p.fill < 3 * f.q / 4 ∨ p.use o < f.share o then
        let p := p.enqueue f x.seq 4 (stormBytes f.id x) (some o)
        flushStorms f o k ({ p with storms := p.storms.filter fun y => !(y.origin == o && y.code == x.code) },
                           { c with storms := c.storms + 1 })
      else (p, c)

/-- The pending records of a path that may be admitted, in the order of R494. -/
def flush (p : LogPath) (f : PathForm) (c : PathCount) : LogPath × PathCount :=
  let (p, c) := (List.range 7).foldl (fun x o => flushStorms f o 16 x) (p, c)
  let (p, c) := match p.gapEvent with
    | some g => if p.fill < 3 * f.q / 4 then
        ({ p.enqueue f g.seq 3 (gapBytes f.id f.writer 1 g) none with gapEvent := none }, { c with gaps := c.gaps + 1 }) else (p, c)
    | none => (p, c)
  match p.gapTrace with
  | some g => if p.fill < f.q / 2 then
      ({ p.enqueue f g.seq 3 (gapBytes f.id f.writer 0 g) none with gapTrace := none }, { c with gaps := c.gaps + 1 }) else (p, c)
  | none => (p, c)

/-- The new record is admitted (R491, R492). -/
def admits (p : LogPath) (f : PathForm) (r : LogRec) : Bool :=
  let hi : Bool := p.fill < 3 * f.q / 4
  if r.kind = 0 then p.gapTrace.isNone && decide (p.fill < f.q / 2)
  else if r.kind = 1 then p.gapEvent.isNone && hi
  else !(p.storms.any fun x => x.origin == r.origin) && (hi || decide (p.use r.origin < f.share r.origin))

/-- A record is offered to a path (R491-R494). -/
def offer (p : LogPath) (f : PathForm) (r : LogRec) (seq : Nat) : LogPath × PathCount :=
  let (p, c) := p.flush f {}
  if p.admits f r then (p.enqueue f seq r.kind (recBytes r seq) (if r.kind = 2 then some r.origin else none), c)
  else p.refuse c r seq

/-- A record that found its intake full, or was discarded by a channel reset, is refused on a path whatever F is (R486), and what then waits
may follow. -/
def turnAway (p : LogPath) (f : PathForm) (r : LogRec) (seq : Nat) : LogPath × PathCount :=
  let (p, c) := p.flush f {}
  let (p, c) := p.refuse c r seq
  p.flush f c

/-- A record comes to a path: offered, or refused before it could be. -/
def take (p : LogPath) (f : PathForm) (r : LogRec) (seq : Nat) (refused : Bool) : LogPath × PathCount :=
  if refused then p.turnAway f r seq else p.offer f r seq

/-- The oldest record leaves; what waits may follow. -/
def leave (p : LogPath) (f : PathForm) : LogPath × PathCount := LogPath.flush { p with queue := p.queue.drop 1 } f {}

end LogPath

/-! ## Counting -/

/-- The counts of a common path (R497) and its drop and storm flags. -/
def Node.pathCount (n : Node) (path : Nat) (c : PathCount) : Node :=
  let n := n.addE 32 K.DROPPED_TRACE path c.droppedTrace
  let n := n.addE 32 K.DROPPED_EVENT path c.droppedEvent
  let n := n.addE 32 K.ALARMS_FOLDED path c.folded
  let n := n.addE 32 K.GAP_RECORDS path c.gaps
  let n := n.addE 32 K.STORM_RECORDS path c.storms
  let n := if c.droppedTrace + c.droppedEvent = 0 then n else n.setFlag K.LOG_FLAGS path
  if c.folded = 0 then n else n.setFlag K.LOG_FLAGS 3

/-- The counts of a channel ring (R498) and its flags. -/
def Node.chanPathCount (n : Node) (c : PathCount) : Node :=
  let n := n.add 32 K.C_DROPPED_TRACE c.droppedTrace
  let n := n.add 32 K.C_DROPPED_EVENT c.droppedEvent
  let n := n.add 32 K.C_ALARMS_FOLDED c.folded
  let n := n.add 32 K.C_GAP_RECORDS c.gaps
  let n := n.add 32 K.C_STORM_RECORDS c.storms
  let n := if c.droppedTrace + c.droppedEvent = 0 then n else n.setFlag K.CLOG_FLAGS 0
  if c.folded = 0 then n else n.setFlag K.CLOG_FLAGS 1

/-! ## The paths of the common block -/

/-- The common block with its logbook. -/
abbrev LogNode := Node × Logbook

/-- The PF0 ring (R490). -/
def ringForm (n : Node) : PathForm := { id := 0, q := 128, origins := (List.range 7).filter fun o => bit (n.num K.LRING_ORIGINS) o }
/-- The ring of PF(c+1). -/
def chanRingForm (origin : Nat) : PathForm := { id := 0, q := 128, origins := [origin], writer := origin }
/-- The UDP stream and the buffer. -/
def udpForm : PathForm := { id := 1, q := 512, origins := List.range 7 }
def bufForm : PathForm := { id := 2, q := 1024, origins := List.range 7 }

/-- The buffer under BUF_MODE (R496): in mode 1 no threshold of R491 holds, so that what waits is written too. -/
def bufFormOf (n : Node) : PathForm := if n.num K.BUF_MODE = 1 then { bufForm with q := 4096 } else bufForm

/-- Records beyond the 1,024 that the buffer holds have been overwritten: the oldest ones, each with its advance of BUF_RD (R496). -/
def bufTrim (s : LogNode) : LogNode :=
  let k := s.2.buf.fill - 1024
  if k = 0 then s else
    (((s.1.add 32 K.BUF_OVERWRITTEN k).putN K.BUF_RD ((s.1.num K.BUF_RD + 64 * k) % 65536)).setFlag K.LOG_FLAGS 2,
     { s.2 with buf := { s.2.buf with queue := s.2.buf.queue.drop k } })

/-- The records added to the buffer's queue since it had `k` are stored at BUF_WR (R496). -/
def bufStore (s : LogNode) (k : Nat) : LogNode :=
  bufTrim ((s.2.buf.queue.drop k).foldl
    (fun (s : LogNode) e => (s.1.putN K.BUF_WR ((s.1.num K.BUF_WR + 64) % 65536),
                             { s.2 with store := tabIns s.2.store (s.1.num K.BUF_WR / 64) e.bytes })) s)

/-- BUF_HIGH is set when the buffer comes to hold BUF_HIGH_N records (R497). -/
def bufHigh (s : LogNode) (was : Nat) : LogNode :=
  let h := s.1.num K.BUF_HIGH_N
  if h ≠ 0 ∧ was < h ∧ h ≤ s.2.buf.fill then (s.1.setFlag K.LOG_FLAGS 4, s.2) else s

/-- A record offered to the buffer (R491, R496): in mode 1 it is written whatever F is, and overwrites the oldest of a full buffer. -/
def bufOffer (r : LogRec) (seq : Nat) (refused : Bool) (s : LogNode) : LogNode :=
  let (n, b) := s
  let was := b.buf.fill
  let (p, c) := b.buf.take (bufFormOf n) r seq refused
  bufHigh (bufStore (n.pathCount 2 c, { b with buf := p }) was) was

/-- The UDP queue `p` after an act: the records that were not in it are admitted now; `gone` of the oldest have left. -/
def udpPut (s : LogNode) (p : LogPath) (gone : Nat) : LogNode :=
  let ats := s.2.udpAt.drop gone
  (s.1, { s.2 with udp := p, udpAt := ats ++ List.replicate (p.fill - ats.length) s.1.mono })

/-- A record offered to the UDP stream. -/
def udpOffer (r : LogRec) (seq : Nat) (refused : Bool) (s : LogNode) : LogNode :=
  let (n, b) := s
  let (p, c) := b.udp.take udpForm r seq refused
  udpPut (n.pathCount 1 c, b) p 0

/-- A record offered to the PF0 ring. -/
def ringOffer (r : LogRec) (seq : Nat) (refused : Bool) (s : LogNode) : LogNode :=
  let (n, b) := s
  let (p, c) := b.ring.take (ringForm n) r seq refused
  (n.pathCount 0 c, { b with ring := p })

/-- A numbered record goes to the common paths it is offered to (R490); `refused`: it found its intake full (R486). -/
def commonPaths (r : LogRec) (seq : Nat) (refused : Bool) (s : LogNode) : LogNode :=
  let cls (n : Node) (i : Nat) : Bool := n.elem K.LOG_MIN_CLASS i ≤ r.kind
  let s := if cls s.1 0 ∧ bit (s.1.num K.LRING_ORIGINS) r.origin = true ∧ s.1.num K.LRING_SIZE ≠ 0 then ringOffer r seq refused s else s
  let s := if cls s.1 1 then udpOffer r seq refused s else s
  if cls s.1 2 then bufOffer r seq refused s else s

/-- The same for the ring of the record's channel: its node and path. -/
def chanPath (r : LogRec) (seq : Nat) (refused : Bool) (n : Node) (p : LogPath) : Node × LogPath :=
  if n.num K.C_LRING_SIZE = 0 ∨ r.kind < n.num K.CLOG_MIN_CLASS ∨ n.origin ≠ r.origin then (n, p) else
    let (p, c) := p.take (chanRingForm n.origin) r seq refused
    ((n.chanPathCount c).putN K.C_FILL p.fill, p)

/-- The next LOG_SEQ is taken; an accepted record is counted by class, and an accepted ALARM raises source 152 (R486, R497, R499). -/
def logNumber (n : Node) (r : LogRec) (refused : Bool) : Nat × Node :=
  let seq := n.num K.LOG_SEQ
  let n := n.inc K.LOG_SEQ
  if refused then (seq, n) else
    let n := n.addE 64 K.LOG_ACCEPTED r.kind 1
    (seq, if r.kind = 2 then n.occur 152 else n)

/-- A record leaves the PF0 ring's queue for the host (R490). -/
def ringDrain (s : LogNode) : LogNode :=
  let (n, b) := s
  match b.ring.queue with
  | [] => s
  | e :: _ =>
    if ringRoom n.fn.silent (n.num K.LRING_SIZE) (n.num K.LRING_WR) (n.num K.LRING_RD) 64 = true ∧ n.fn.busMaster = true then
      let n := (n.ringPut (n.num K.LRING_ADDR) (n.num K.LRING_SIZE) (n.num K.LRING_WB_ADDR) K.LRING_WR e.bytes).addE 64 K.WRITTEN 0 1
      let (p, c) := b.ring.leave (ringForm n)
      let n := n.pathCount 0 c
      let irq := n.num K.LRING_IRQ_N
      if irq ≠ 0 ∧ irq ≤ p.since + 1 then (n.occur 145, { b with ring := { p with since := 0 } })
      else (n, { b with ring := { p with since := p.since + 1 } })
    else s

/-- A record leaves a channel ring's queue for the host. -/
def chanDrain (n : Node) (p : LogPath) : Node × LogPath :=
  match p.queue with
  | [] => (n, p)
  | e :: _ =>
    if ringRoom n.fn.silent (n.num K.C_LRING_SIZE) (n.num K.C_LRING_WR) (n.num K.C_LRING_RD) 64 = true ∧ n.fn.busMaster = true then
      let n := (n.ringPut (n.num K.C_LRING_ADDR) (n.num K.C_LRING_SIZE) (n.num K.C_LRING_WB_ADDR) K.C_LRING_WR e.bytes).add 64
        K.C_WRITTEN 1
      let (p, c) := p.leave (chanRingForm n.origin)
      let n := (n.chanPathCount c).putN K.C_FILL p.fill
      let irq := n.num K.C_LRING_IRQ_N
      if irq ≠ 0 ∧ irq ≤ p.since + 1 then (n.occur 155, { p with since := 0 }) else (n, { p with since := p.since + 1 })
    else (n, p)

/-- The UDP stream cannot send: its port's link is down or its destination unresolved (R495). -/
def udpDown (s : LogNode) : Bool :=
  s.1.flag K.UDP_ENABLE && s.1.num K.UDP_DST_ADDR != 0 &&
  (s.1.num (K.LINK_STATUS + 0x1000 * s.1.num K.UDP_PORT_SEL) != 1 || s.2.dstMac.isNone)

/-- UDP_DOWN is set while the stream cannot send (R495). -/
def udpWatch (s : LogNode) : LogNode :=
  if udpDown s && !s.1.bitOf K.LOG_FLAGS 5 then (s.1.setFlag K.LOG_FLAGS 5, s.2) else s

/-- Some records leave the UDP queue one by one. -/
def udpLeave : Nat → LogNode → LogNode
  | 0, s => s
  | k + 1, (n, b) =>
    let (p, c) := b.udp.leave udpForm
    udpLeave k (udpPut ((n.pathCount 1 c).addE 64 K.WRITTEN 1 1, b) p 1)

/-- A datagram of 1 to 22 records (R495): sent when 22 are queued, or UDP_FLUSH after the oldest was admitted. -/
def udpSend (s : LogNode) : LogNode :=
  let (n, b) := s
  let k := min 22 b.udp.fill
  if n.flag K.UDP_ENABLE = false ∨ udpDown s = true ∨ n.num K.UDP_DST_ADDR = 0 ∨ k = 0 ∨
      (k < 22 ∧ n.mono < b.udpAt.headD 0 + nsTicks (n.num K.UDP_FLUSH)) then s
  else
    let body := leBytes 2 0x474C ++ [1, k] ++ leBytes 4 b.dgramSeq ++ leBytes 8 (n.elem K.UNIQUE_ID 0) ++
      (b.udp.queue.take k).flatMap (·.bytes)
    let p := n.num K.UDP_PORT_SEL
    let n := (n.emit (.udp p (n.elem K.NET_IPV4_ADDR p) 47811 (n.num K.UDP_DST_ADDR) (n.num K.UDP_DST_PORT)
      (body ++ leBytes 4 (crc32c body)))).inc K.UDP_DGRAMS
    udpLeave k (n, { b with dgramSeq := wrap 32 (b.dgramSeq + 1) })

/-- Records leave the buffer one by one, with what may follow them stored. -/
def bufLeave : Nat → LogNode → LogNode
  | 0, s => s
  | k + 1, (n, b) =>
    let (p, c) := b.buf.leave (bufFormOf n)
    bufLeave k (bufStore ((n.pathCount 2 c).addE 64 K.WRITTEN 2 1, { b with buf := p }) (b.buf.fill - 1))

/-- Host software writes BUF_RD (R496): the records from the old offset to the new one leave, all of them where it comes to equal BUF_WR. -/
def bufRd (v : Nat) (s : LogNode) : LogNode :=
  let k := if v = s.1.num K.BUF_WR then s.2.buf.fill else min s.2.buf.fill ((v + 65536 - s.1.num K.BUF_RD) % 65536 / 64)
  bufLeave k (s.1.putN K.BUF_RD v, s.2)

/-- The bytes of LOG_BUF (R496); a slot never written reads zero. -/
def logBufBytes (b : Logbook) : List Nat := (List.range 1024).flatMap fun i => padTo 64 (tabGet [] b.store i)

/-- FILL and RESERVE_USE as read (R497). -/
def fillView (b : Logbook) : List Nat := [b.ring.fill, b.udp.fill, b.buf.fill]
def reserveView (b : Logbook) : List Nat := [b.ring, b.udp, b.buf].flatMap fun p => (List.range 7).map p.use

end Sys2Proof.Machine
end

