-- ==== Sys2Proof/Machine/MonEngine.lean ====
section
/-!
DEFINITION. The monitors of chapter 22 and the thermal comparison of chapter 20.
-/

namespace Sys2Proof.Machine

/-- The common block with its monitors. -/
abbrev MonNode := Node × MonBlock

/-- Operating limits of rail `r` in mV; the last by MON_AUX_LEVEL (R588). -/
def railLimits (n : Node) (r : Nat) : Nat × Nat :=
  if r = 12 then (if n.num K.MON_AUX_LEVEL = 0 then (1710, 1890) else (3135, 3465))
  else (supplyLow.getD r 0, supplyHigh.getD r 0)

/-- The rails are sampled (R588, R589): readings in mV, and the core current. -/
def supplySample (mv : List Nat) (current : Nat) (s : MonNode) : MonNode :=
  let (n, b) := s
  let r13 := List.range 13
  let v (r : Nat) : Nat := mv.getD r 0 % 65536
  let bad (r : Nat) : Bool := let (lo, hi) := railLimits n r; decide (v r < lo) || decide (hi < v r)
  let outs := r13.map fun r => if bad r then min 3 (b.outs.getD r 0 + 1) else 0
  let ins := r13.map fun r => if bad r then 0 else min 3 (b.ins.getD r 0 + 1)
  let was := n.num K.MON_OUT
  let out := r13.foldl (fun m r => if outs.getD r 0 = 3 then setBit m r else if ins.getD r 0 = 3 then clrBit m r else m) was
  let n := (n.put K.MON_SUPPLY_MV (r13.map v)).putN K.MON_CORE_CURRENT (satN 32 current)
  let n := n.put K.MON_SUPPLY_MIN (r13.map fun r => min (n.elem K.MON_SUPPLY_MIN r) (v r))
  let n := n.put K.MON_SUPPLY_MAX (r13.map fun r => max (n.elem K.MON_SUPPLY_MAX r) (v r))
  let n := n.putN K.MON_OUT out
  (if andNot out was = 0 then n else n.setFlag K.PWR_FLAGS 4, { b with outs := outs, ins := ins })

/-- MON_CLEAR (R588). -/
def monClear (n : Node) : Node := (n.put K.MON_SUPPLY_MIN (List.replicate 13 65535)).put K.MON_SUPPLY_MAX (zeros 13)

/-- The 16 sensors are read (R590). -/
def tempSample (ts : List Int) (n : Node) : Node := n.put K.MON_TEMP ((List.range 16).map fun i => toBits 16 (ts.getD i 0))

/-- The hottest sensor. -/
def hottest (n : Node) : Int := ((n.elems K.MON_TEMP).map (toSigned 16)).foldl max (toSigned 16 (n.elem K.MON_TEMP 0))

/-- A limit with 2 °C hysteresis on falling (R538). -/
def thermOn (was : Bool) (t limit : Int) : Bool := decide ((if was then limit - 32 else limit) < t)

/-- The thermal comparison (R538). -/
def thermalCompare (s : MonNode) : MonNode :=
  let (n, b) := s
  let t := hottest n
  let n := n.putI 16 K.THERM_MAX t
  let n := if n.sint 16 K.THERM_PEAK < t then n.putI 16 K.THERM_PEAK t else n
  let warn := thermOn b.warn t (n.sint 16 K.THERM_WARN)
  let crit := thermOn b.crit t (n.sint 16 K.THERM_CRIT)
  let n := if warn && !n.bitOf K.PWR_FLAGS 2 then n.setFlag K.PWR_FLAGS 2 else n
  let n := if crit && !n.bitOf K.PWR_FLAGS 3 then (n.setFlag K.PWR_FLAGS 3).alarm 117 else n
  (n, { b with warn := warn, crit := crit })

end Sys2Proof.Machine
end

