-- ==== Sys2Proof/Machine/DmaEngine.lean ====
section
/-!
DEFINITION. Chapter 15: DMA threads and their instructions.
-/

namespace Sys2Proof.Machine

/-- A range cut into requests of at most `size` bytes that cross no 4 KB boundary. -/
def busCuts (size : Nat) : Nat → Nat → Nat → List (Nat × Nat)
  | 0, _, _ => []
  | k + 1, addr, len =>
    if len = 0 then [] else
      let n := min len (min size (4096 - addr % 4096))
      (addr, n) :: busCuts size k (addr + n) (len - n)

namespace Chan

/-- Thread `t`. -/
def thread (c : Chan) (t : Nat) : DmaThread := c.dma.threads.getD t {}
/-- Give thread `t` its state. -/
def putThread (c : Chan) (t : Nat) (x : DmaThread) : Chan := { c with dma := { c.dma with threads := listPut c.dma.threads t x } }
/-- THREAD_STATE. -/
def threadState (c : Chan) (t : Nat) : Nat := c.n.num (ik K.THREAD_STATE t)
/-- Give THREAD_STATE its value. -/
def threadGo (c : Chan) (t s : Nat) : Chan := c.mapN (·.putN (ik K.THREAD_STATE t) s)
/-- PC of a thread. -/
def pc (c : Chan) (t : Nat) : Nat := c.n.num (ik K.PC t)
/-- The function may make requests (16 R447, R460): it is a bus master in D0. -/
def busOk (c : Chan) : Bool := c.n.fn.busMaster && !c.n.fn.d3hot

/-- Posted writes of a thread, in ascending address (R437). -/
def busPost (c : Chan) (addr : Nat) (bytes : List Nat) : Chan :=
  let cuts := busCuts (128 * 2 ^ c.n.fn.mps) (bytes.length + 1) addr bytes.length
  cuts.foldl (fun c (p : Nat × Nat) => c.mapN (·.emit (.busWrite p.1 (slice bytes (p.1 - addr) p.2)))) c

/-- A thread may issue a bus read: the function may, and fewer than 32 are outstanding (R424). -/
def dmaMayAsk (c : Chan) (t : Nat) : Bool := c.busOk && decide ((c.thread t).reads.length < 32)

/-- The next tag from `tag` on, of 10 bits or in flit mode of 14, that no read holds (16 R447). -/
def freeTag (used : List Nat) (m : Nat) : Nat → Nat → Nat
  | 0, tag => tag % m
  | k + 1, tag => if used.contains (tag % m) then freeTag used m k (tag + 1) else tag % m

/-- A read request of a thread. -/
def busAsk (c : Chan) (t addr len : Nat) (what : DmaWhat) : Chan :=
  let m := if c.n.fn.flit then 16384 else 1024
  let used := c.dma.threads.flatMap fun x => x.reads.map (·.tag)
  let tag := freeTag used m used.length c.dma.tag
  let x := c.thread t
  let c := c.putThread t { x with reads := x.reads ++ [{ tag := tag, addr := addr, len := len, what := what }] }
  Chan.mapN { c with dma := { c.dma with tag := tag + 1 } } (·.emit (.busRead t tag addr len))

/-- The next instruction of a program in bus space is asked for (R440). -/
def fetchAhead (c : Chan) (t : Nat) : Chan :=
  if c.n.num (ik K.PROG_SPACE t) = 1 ∧ c.threadState t = 1 ∧ (c.thread t).code = none ∧ (c.thread t).reads.all (fun r => r.what != .fetch) ∧
      c.dmaMayAsk t = true then
    c.busAsk t (c.pc t) 16 .fetch
  else c

/-- A channel write of a thread, in its class (R423). -/
def dmaStore (c : Chan) (t addr : Nat) (bytes : List Nat) : Chan :=
  if bytes = [] then c else (c.memStore (c.n.num (ik K.THREAD_CLASS t) + 1) addr bytes (unitWrites + 1 + t)).1

/-- A channel write of the thread still waits at MEM_REQ (R427). -/
def dmaPending (c : Chan) (t : Nat) : Bool := c.mc.waiting.any (·.tag == unitWrites + 1 + t)

/-- Bytes moved by a thread: counted, and taken by the check-value contexts (R371). -/
def dmaMoved (c : Chan) (t : Nat) (bytes : List Nat) : Chan :=
  Chan.note (c.mapN (·.add 64 (ik K.BYTES_MOVED t) bytes.length)) (.item 6 t c.n.gen bytes)

/-- Ranges without their first `k` bytes. -/
def cutFront : Nat → List (Nat × Nat) → List (Nat × Nat)
  | _, [] => []
  | k, (a, n) :: r => if n ≤ k then cutFront (k - n) r else (a + k, n - k) :: r

/-- The bytes of channel ranges become undefined (R441, R443): free values. -/
def dmaUndefined (c : Chan) (ranges : List (Nat × Nat)) : Chan :=
  ranges.foldl (fun c (p : Nat × Nat) =>
    let n := match c.memStatus p.1 p.2 with | 0 => p.2 | 1 => c.memSize - p.1 | _ => 0
    let (v, nd) := c.n.takeFree (8 * n)
    { c with n := nd, mem := memWrite c.mem p.1 (leBytes n v) }) c

/-- A thread error (R443). Requests issued before the failing one still complete; data of later ones is not used, and the bytes of the
instruction from the failing one on are undefined. -/
def dmaError (c : Chan) (t code place addr entry done : Nat) : Chan :=
  let x := c.thread t
  let c := c.dmaUndefined (cutFront done ((x.work.map (·.dests)).getD []))
  let c := c.putThread t { x with work := none, code := none }
  c.mapN fun n =>
    let n := ((n.putN (ik K.ERR_CODE t) code).putN (ik K.ERR_WHERE t) place).putN (ik K.ERR_ADDR t) addr
    let n := ((n.putN (ik K.ERR_PC t) (n.num (ik K.PC t))).putN (ik K.ERR_ENTRY t) entry).putN (ik K.ERR_DONE t) done
    (n.putN (ik K.THREAD_STATE t) 6).setFlag K.DMA_FLAGS t

/-- A field of the instruction is not allowed (R442). -/
def badField (c : Chan) (t : Nat) : Chan := c.dmaError t 2 0 (c.pc t) 0 0

/-- The instruction is finished: PC goes on `step` bytes. A PC that leaves the 64-bit space is an error (R442). -/
def dmaFinish (c : Chan) (t : Nat) (step : Int) : Chan :=
  let x := c.thread t
  let c := c.putThread t { x with work := none, code := none }
  let pc : Int := (c.pc t : Int) + step
  let c := c.mapN (·.add 64 (ik K.INSTR_DONE t) 1)
  if pc < 0 ∨ (2 ^ 64 : Nat) ≤ pc then c.badField t
  else
    let c := c.mapN (·.putN (ik K.PC t) pc.toNat)
    if c.threadState t = 3 then c.threadGo t 4 else c.fetchAhead t

/-! ### Turns (R424) -/

/-- An instruction cannot go on now: a request of it would wait at MEM_REQ or HOST_TX, or earlier writes of the thread wait (R424, R433). -/
def dmaBlocked (c : Chan) (t b0 : Nat) : Bool :=
  let bus : Bool := bit b0 0 || bits b0 3 2 != 2
  match bits b0 7 4 with
  | 1 => c.memWaiting || (bus && !c.busOk)
  | 2 => c.memWaiting || (bus && !c.busOk)
  | 5 => c.dmaPending t || (bit b0 2 && !c.busOk)
  | 6 => c.dmaPending t
  | _ => false

/-- A thread with an instruction in progress has a request to make that need not wait. -/
def workReady (c : Chan) (t : Nat) (w : DmaWork) : Bool :=
  if 0 < w.left then (if w.dir = 1 then c.dmaMayAsk t else !c.memWaiting && (w.dir == 2 || c.busOk))
  else (c.thread t).reads.all (fun r => r.what == .fetch || r.what == .drop) &&
    (match w.sg with | some s => !s.last && (if s.bus then c.dmaMayAsk t else !c.memWaiting) | none => true)

/-- A thread can use a turn. -/
def dmaReady (c : Chan) (t : Nat) : Bool :=
  let x := c.thread t
  match x.work with
  | some w => (c.threadState t == 1 || c.threadState t == 3) && c.workReady t w
  | none =>
    c.threadState t == 1 &&
      (match x.code with
       | some bs => !c.dmaBlocked t (bs.headD 0)
       | none => c.n.num (ik K.PROG_SPACE t) == 0 && !c.memWaiting && !c.dmaBlocked t ((memRead c.mem (c.pc t) 1).headD 0))

/-- The thread after `last` among those of a list, in rotation. -/
def rotate (last : Nat) (l : List Nat) : Nat := (l.find? fun t => decide (last < t)).getD (l.headD 0)

/-- The engine's turn goes to thread `t`: what the arbiter is after it; `none` where another thread has it. Class C goes first but for the share of
Class D (R33), and threads of one class go round. -/
def dmaTurn (c : Chan) (t : Nat) : Option Chan :=
  let ready := (List.range 8).filter fun u => u == t || c.dmaReady u
  let ofClass (k : Nat) : List Nat := ready.filter fun u => c.n.num (ik K.THREAD_CLASS u) == k
  let (toD, turns) := if ofClass 0 = [] ∨ ofClass 1 = [] then ((ofClass 0).isEmpty, c.dma.turns)
    else shareTurn (c.n.num K.CD_MIN_SHARE) c.dma.turns
  let k := b2n toD
  if rotate (c.dma.last.getD k 7) (ofClass k) = t then some { c with dma := { c.dma with turns := turns, last := listPut c.dma.last k t } } else none

/-- The instruction at PC that a running thread may begin: its 16 bytes, or what its fetch came to (R440, R442). -/
def dmaCode (c : Chan) (t : Nat) : Chan × Option (List Nat) :=
  match (c.thread t).code with
  | some bs => (c, some bs)
  | none =>
    if c.n.num (ik K.PROG_SPACE t) = 1 then (c.fetchAhead t, none)
    else if c.memWaiting then (c, none)
    else
      let (c, st, bs) := c.memLoad (c.pc t) 16
      if st = 0 then (c, some bs) else (c.dmaError t 6 1 (c.pc t) 0 0, none)

/-- Begin the instruction at PC of thread `t` where its opcode is one of `ops` and the turn is the thread's. -/
def dmaBegin (c : Chan) (t : Nat) (ops : Nat → Bool) (f : Chan → List Nat → Chan) : Chan :=
  if c.threadState t ≠ 1 ∨ (c.thread t).work.isSome ∨ 8 ≤ t then c else
    match c.dmaTurn t with
    | none => c
    | some c =>
      match c.dmaCode t with
      | (c, some bs) =>
        let c := c.putThread t { c.thread t with code := some bs }
        if ops (bits (bs.headD 0) 7 4) && !c.dmaBlocked t (bs.headD 0) then f c bs else c
      | (c, none) => c

/-- The work of an instruction in progress. -/
def putWork (c : Chan) (t : Nat) (w : DmaWork) : Chan := c.putThread t { c.thread t with work := some w }

/-- Bytes reachable of a channel range, and the refused request. -/
def dmaReach (c : Chan) (addr len : Nat) : Nat × Option Nat :=
  match c.memStatus addr len with
  | 0 => (len, none)
  | 1 => (c.memSize - addr, some (max addr c.memSize))
  | _ => (0, some addr)

/-- A refused channel request is recorded by the controller (R379). -/
def dmaRefused (c : Chan) (addr : Nat) : Chan := if c.memUp then c.memBadAddr addr else c

/-- Bytes read from `addr` by an entry of a list, those that earlier entries of it have written being undefined (R436): free values. -/
def dmaStale (c : Chan) (dests : List (Nat × Nat)) (addr : Nat) (bs : List Nat) : Chan × List Nat :=
  let stale (i : Nat) : Bool := dests.any fun d => decide (d.1 ≤ addr + i) && decide (addr + i < d.1 + d.2)
  if (List.range bs.length).any stale then
    let (v, n) := c.n.takeFree (8 * bs.length)
    ({ c with n := n }, bs.mapIdx fun i b => if stale i then v / 256 ^ i % 256 else b)
  else (c, bs)

/-- A source in channel memory for a move within it is read whole before any byte is written (R436): what of it the memory answers. -/
def dmaSource (c : Chan) (dests : List (Nat × Nat)) (chan len : Nat) : Chan × List Nat :=
  let (n, _) := c.dmaReach chan len
  let (c, _, bs) := c.memLoad chan n
  c.dmaStale dests chan bs

/-- One list entry: a link is a hop (R429); a data entry's bytes are to be moved (R428). Whether the thread goes on. -/
def dmaEntry (c : Chan) (t : Nat) (w : DmaWork) (s : SgWork) (e : List Nat) : Chan × Bool :=
  let addr := field e 0 8
  let len := field e 8 4
  let ctrl := field e 12 4
  if bit ctrl 0 then
    if c.n.num (ik K.LINK_LIMIT t) < s.hops + 1 then (c.dmaError t 3 2 s.list s.entries w.done, false)
    else if addr % 16 ≠ 0 then (c.dmaError t 2 0 (c.pc t) s.entries w.done, false)
    else (c.putWork t { w with sg := some { s with list := addr, hops := s.hops + 1, entries := s.entries + 1 } }, true)
  else
    let s' : SgWork := { s with list := s.list + 16, entries := s.entries + 1, last := bit ctrl 1 }
    if len = 0 then (c.putWork t { w with sg := some s' }, true)
    else
      let (c, src) := if w.dir = 2 then c.dmaSource w.dests w.chan len else (c, [])
      let dests := match w.dir with | 0 => w.dests | 1 => w.dests ++ [(w.chan, len)] | _ => w.dests ++ [(addr, len)]
      (c.putWork t { w with far := addr, left := len, sg := some s', dests := dests, src := src }, true)

/-- The failing entry of an instruction whose data fail: the one under way (R443). -/
def entryNow (w : DmaWork) : Nat := (w.sg.map fun s => s.entries - 1).getD 0

/-- A data request of the instruction is refused at `a` (R379, R443). -/
def dmaDataError (c : Chan) (t a : Nat) (w : DmaWork) : Chan := Chan.dmaError (c.dmaRefused a) t 6 0 a (entryNow w) w.done

/-- At most `k` bytes of an instruction in progress are moved, or asked for from the bus (R424). -/
def dmaChunk (c : Chan) (t k : Nat) (w : DmaWork) : Chan × Nat :=
  if w.dir = 1 then
    let n := min (min w.left k) (min (128 * 2 ^ c.n.fn.mrrs) (4096 - w.far % 4096))
    let c := c.putWork t { w with chan := w.chan + n, far := w.far + n, left := w.left - n }
    (c.busAsk t w.far n (.data w.chan), n)
  else
    let (addr, room) := match w.ring with
      | some (base, size) => (base + w.chan % max 1 size, size - w.chan % max 1 size)
      | none => (w.chan, w.left)
    let want := min (min w.left k) room
    let (n, f) := if w.dir = 2 then (min want w.src.length, if w.src.length < want then some (w.chan + w.src.length) else none)
      else c.dmaReach addr want
    let (m, g) := if w.dir = 2 then c.dmaReach w.far n else (n, none)
    let (c, bs) := if w.dir = 2 then (c, w.src.take m) else
      let (c, _, bs) := c.memLoad addr m
      (c, bs)
    let w' : DmaWork := { w with chan := w.chan + m, far := w.far + m, left := w.left - m, done := w.done + m, src := w.src.drop m }
    let c := Chan.putWork (Chan.dmaMoved (if w.dir = 2 then c.dmaStore t w.far bs else c.busPost w.far bs) t bs) t w'
    match (if m < n then g else f) with
    | some a => (c.dmaDataError t a w', n)
    | none => (c, m)

/-- The bytes of an instruction are all moved: the thread goes on, a RING move having freed its crop (R435). -/
def dmaComplete (c : Chan) (t : Nat) (w : DmaWork) : Chan :=
  let c := match w.ring with
    | some (_, size) => c.mapN (·.putN K.CROP_RD (w.chan % max 1 size))
    | none => c
  c.dmaFinish t 16

/-- One turn of an instruction in progress: at most `room` bytes, entry after entry, until it waits, fails or is finished (R424). -/
def dmaGo (t : Nat) : Nat → Nat → Chan → Chan
  | 0, _, c => c
  | k + 1, room, c =>
    match (c.thread t).work with
    | none => c
    | some w =>
      if c.workReady t w = false then c
      else if 0 < w.left then
        (if room = 0 then c else
          let (c, n) := c.dmaChunk t room w
          dmaGo t k (room - n) c)
      else match w.sg with
        | none => c.dmaComplete t w
        | some s =>
          if s.last then c.dmaComplete t w
          else if s.bus then c.busAsk t s.list 16 .entry
          else
            let (c, st, e) := c.memLoad s.list 16
            if st ≠ 0 then c.dmaError t 6 2 s.list s.entries w.done else
              match c.dmaEntry t w s e with
              | (c, true) => dmaGo t k room c
              | (c, false) => c

/-- How many entries an instruction may still look at: a list ends at LAST, at the end of memory or at LINK_LIMIT. -/
def dmaFuel (c : Chan) (t : Nat) : Nat := (c.n.num (ik K.LINK_LIMIT t) + 1) * (c.n.num K.MEM_CAPACITY / 16 + 1) + 4100

/-- An offset added to an address, modulo 2^64 (R426). -/
def withOff (c : Chan) (a k : Nat) : Nat := (a + c.n.num k) % 2 ^ 64

/-- A turn of thread `t`'s instruction in progress, where its opcode is one of `ops` (R424). -/
def dmaResume (c : Chan) (t : Nat) (ops : Nat → Bool) : Chan :=
  let x := c.thread t
  if (c.threadState t = 1 ∨ c.threadState t = 3) ∧ t < 8 ∧ x.work.isSome = true ∧ ops ((x.code.getD []).headD 0) = true then
    match c.dmaTurn t with
    | some c => dmaGo t (c.dmaFuel t) 4096 c
    | none => c
  else c

/-- MOVE (R427), without RING: it begins, or it has its next turn. -/
def dmaMove (c : Chan) (t : Nat) : Chan :=
  if (c.thread t).work.isSome then c.dmaResume t (fun b0 => bits b0 7 4 == 1 && !bit b0 0) else
  c.dmaBegin t (· == 1) fun c bs =>
    let b0 := bs.headD 0
    let dir := bits b0 3 2
    if bit b0 0 then c else
    if dir = 3 then c.badField t
    else if bit b0 1 = true ∧ c.dmaPending t = true then c
    else
      let chan := c.withOff (field bs 1 5) (ik K.CHAN_OFF t)
      let far := c.withOff (field bs 6 7) (ik K.FAR_OFF t)
      let len := field bs 13 3
      if len = 0 then c.dmaFinish t 16
      else
        let (c, src) := if dir = 2 then c.dmaSource [] chan len else (c, [])
        let dests := match dir with | 0 => [] | 1 => [(chan, len)] | _ => [(far, len)]
        dmaGo t (c.dmaFuel t) 4096 (c.putWork t { dir := dir, chan := chan, far := far, left := len, dests := dests, src := src })

/-- MOVE with RING (R435): the next whole crop goes to the far side. -/
def dmaMoveRing (c : Chan) (t : Nat) : Chan :=
  if (c.thread t).work.isSome then c.dmaResume t (fun b0 => bits b0 7 4 == 1 && bit b0 0) else
  c.dmaBegin t (· == 1) fun c bs =>
    let b0 := bs.headD 0
    if bit b0 0 = false then c
    else if bits b0 3 2 ≠ 0 ∨ field bs 1 5 ≠ 0 then c.badField t
    else
      let base := c.n.num K.CROP_RING_ADDR
      let size := c.n.num K.CROP_RING_SIZE
      let rd := c.n.num K.CROP_RD
      if size = 0 ∨ c.n.num K.CROP_WR = rd then c.dmaFinish t 16
      else
        let (c, st, h) := c.memLoadRing base size rd 64
        if st ≠ 0 then c.dmaError t 6 3 (base + rd) 0 0 else
          let len := field h 28 4
          if field bs 13 3 < len then c.dmaError t 8 3 (base + rd) 0 0 else
            dmaGo t (c.dmaFuel t) 4096 (c.putWork t { dir := 0, chan := rd, far := c.withOff (field bs 6 7) (ik K.FAR_OFF t), left := len,
                                                      ring := some (base, size) })

/-- MOVSG (R428, R429): it begins, or it has its next turn. -/
def dmaMovsg (c : Chan) (t : Nat) : Chan :=
  if (c.thread t).work.isSome then c.dmaResume t (fun b0 => bits b0 7 4 == 2) else
  c.dmaBegin t (· == 2) fun c bs =>
    let b0 := bs.headD 0
    let dir := bits b0 3 2
    let list := c.withOff (field bs 8 8) (ik K.FAR_OFF t)
    if dir = 3 ∨ list % 16 ≠ 0 then c.badField t
    else if bit b0 1 = true ∧ c.dmaPending t = true then c
    else
      let chan := c.withOff (field bs 1 5) (ik K.CHAN_OFF t)
      dmaGo t (c.dmaFuel t) 4096 (c.putWork t { dir := dir, chan := chan, far := 0, sg := some { list := list, bus := bit b0 0 } })

/-- LOOP (R430). -/
def dmaLoop (c : Chan) (t : Nat) : Chan :=
  c.dmaBegin t (· == 3) fun c bs =>
    let b0 := bs.headD 0
    let target := toSigned 16 (field bs 4 2)
    if 0 ≤ target then c.badField t else
      let r := bits b0 3 2
      let x := c.thread t
      let chan := c.n.num (ik K.CHAN_OFF t)
      let far := c.n.num (ik K.FAR_OFF t)
      let lp := x.loops.getD r {}
      let lp : LoopReg := if lp.active then lp else { active := true, left := field bs 1 3, chan0 := chan, far0 := far }
      if bit b0 1 || decide (0 < lp.left) then
        let lp := if bit b0 1 then lp else { lp with left := lp.left - 1 }
        let c := c.putThread t { x with loops := listPut x.loops r lp }
        let c := c.mapN fun n =>
          let n := n.putN (ik K.CHAN_OFF t) (toBits 64 ((chan : Int) + toSigned 32 (field bs 8 4)))
          (n.putN (ik K.FAR_OFF t) (toBits 64 ((far : Int) + toSigned 32 (field bs 12 4)))).putE (ik K.LOOP_LEFT t) r lp.left
        c.dmaFinish t (16 * target)
      else
        let c := c.putThread t { x with loops := listPut x.loops r { lp with active := false } }
        let c := c.mapN fun n =>
          let n := if bit b0 0 then n else (n.putN (ik K.CHAN_OFF t) lp.chan0).putN (ik K.FAR_OFF t) lp.far0
          n.putE (ik K.LOOP_LEFT t) r 0
        c.dmaFinish t 16

/-- The condition of a WAIT of kind `k` holds (R431). -/
def waitHolds (c : Chan) (t k : Nat) : Bool :=
  match k with
  | 0 => decide (0 < toSigned 32 (c.n.num (ik K.DOORBELL t) + 2 ^ 32 - c.n.num (ik K.DB_TAKEN t)))
  | 1 => c.n.num (ik K.SEM t) != 0
  | _ => c.n.num K.CROP_WR != c.n.num K.CROP_RD

/-- A satisfied WAIT consumes what it waits for (R431). -/
def waitTake (c : Chan) (t k : Nat) : Chan :=
  match k with
  | 0 => c.mapN (·.add 32 (ik K.DB_TAKEN t) 1)
  | 1 => c.mapN fun n => n.putN (ik K.SEM t) (n.num (ik K.SEM t) - 1)
  | _ => c

/-- WAIT (R431). -/
def dmaWait (c : Chan) (t : Nat) : Chan :=
  c.dmaBegin t (· == 4) fun c bs =>
    let k := bits (bs.headD 0) 3 2
    if k = 3 then c.badField t
    else if c.waitHolds t k then Chan.dmaFinish (c.waitTake t k) t 16
    else Chan.threadGo (c.putThread t { c.thread t with since := c.n.mono }) t 2

/-- A waiting thread's condition has come to hold (R439). -/
def dmaSatisfied (c : Chan) (t : Nat) : Chan :=
  let k := bits (((c.thread t).code.getD []).headD 0) 3 2
  if c.threadState t = 2 ∧ c.waitHolds t k = true then Chan.dmaFinish (Chan.threadGo (c.waitTake t k) t 1) t 16 else c

/-- TIMEOUT of a WAIT expires (R431). -/
def dmaTimeout (c : Chan) (t : Nat) : Chan :=
  let bs := (c.thread t).code.getD []
  let lim := field bs 4 4
  if c.threadState t = 2 ∧ lim ≠ 0 ∧ (c.thread t).since + nsTicks lim ≤ c.n.mono ∧ c.waitHolds t (bits (bs.headD 0) 3 2) = false then
    if bit (bs.headD 0) 1 then Chan.dmaFinish (Chan.threadGo (c.mapN (·.inc (ik K.WAIT_TIMEOUTS t))) t 1) t 16
    else c.dmaError t 7 0 (c.pc t) 0 0
  else c

/-- SIGNAL (R433). -/
def dmaSignal (c : Chan) (t : Nat) : Chan :=
  c.dmaBegin t (· == 5) fun c bs =>
    let b0 := bs.headD 0
    let addr := field bs 8 8
    if bit b0 2 = true ∧ addr % 4 ≠ 0 then c.badField t
    else
      let c := if bit b0 2 then Chan.dmaMoved (c.busPost addr (slice bs 4 4)) t (slice bs 4 4) else c
      let dest := field bs 1 1 % 8
      let c := if bit b0 1 then c.mapN fun n => n.putN (ik K.SEM dest) (min (2 ^ 32 - 1) (n.num (ik K.SEM dest) + 1)) else c
      let c := if bit b0 3 then c.mapN (·.occur (137 + 2 * t)) else c
      c.dmaFinish t 16

/-- END (R434): the thread is DONE, PC staying at it. -/
def dmaEnd (c : Chan) (t : Nat) : Chan :=
  c.dmaBegin t (· == 6) fun c bs =>
    let c := if bit (bs.headD 0) 3 then c.mapN (·.occur (137 + 2 * t)) else c
    Chan.threadGo ((c.putThread t { c.thread t with code := none, work := none }).mapN (·.add 64 (ik K.INSTR_DONE t) 1)) t 5

/-- NOP (R434). -/
def dmaNop (c : Chan) (t : Nat) : Chan := c.dmaBegin t (· == 7) fun c _ => c.dmaFinish t 16

/-- An illegal opcode (R442). -/
def dmaBadOpcode (c : Chan) (t : Nat) : Chan :=
  c.dmaBegin t (fun o => o == 0 || 8 ≤ o) fun c _ => c.dmaError t 1 0 (c.pc t) 0 0

/-- An instruction in progress whose last data have come is finished; a pausing thread whose fetch alone was outstanding is paused (R439). -/
def dmaSettled (c : Chan) (t : Nat) : Chan :=
  match (c.thread t).work with
  | some w =>
    let last : Bool := match w.sg with | some s => s.last | none => true
    if w.left = 0 ∧ last = true ∧ c.workReady t { w with sg := none } = true then c.dmaComplete t w else c
  | none => if c.threadState t = 3 ∧ (c.thread t).reads.all (fun r => r.what != .fetch) = true then c.threadGo t 4 else c

/-- Data that has returned is used, in transfer order; reads of a program that was dropped stand aside. -/
def dmaDeliver (t : Nat) : Nat → Chan → Chan
  | 0, c => c
  | k + 1, c =>
    let x := c.thread t
    match x.reads.find? fun r => r.what != .drop with
    | some r =>
      match r.got with
      | none => c
      | some bs =>
        let c := c.putThread t { x with reads := x.reads.erase r }
        match r.what with
        | .drop => dmaDeliver t k c
        | .fetch => dmaDeliver t k (c.putThread t { c.thread t with code := some bs })
        | .entry =>
          match x.work with
          | some w =>
            match w.sg with
            | some s => (c.dmaEntry t w s bs).1
            | none => c
          | none => c
        | .data chan =>
          let (n, f) := c.dmaReach chan bs.length
          let got := bs.take n
          let c := if got = [] then c else Chan.dmaMoved (c.dmaStore t chan got) t got
          match x.work with
          | some w =>
            let w := { w with done := w.done + n }
            let c := c.putWork t w
            (match f with
             | none => dmaDeliver t k c
             | some a =>
               let y := c.thread t
               Chan.dmaDataError (c.putThread t { y with reads := y.reads.map fun q => { q with what := .drop } }) t a w)
          | none => dmaDeliver t k c
    | none => c

/-- The thread that waits for tag `tag`. -/
def tagThread (c : Chan) (tag : Nat) : Option Nat := (List.range 8).find? fun t => (c.thread t).reads.any (·.tag == tag)

/-- A read ends without its data: BUS_NORESP (4) or BUS_ERROR (5). Reads before it still complete, later ones are not used (R443). A read of a
program that was dropped, or of a thread already in ERROR, ends alone. -/
def busFailed (c : Chan) (t tag code : Nat) : Chan :=
  let x := c.thread t
  match x.reads.find? (·.tag == tag) with
  | none => c
  | some r =>
    let before := x.reads.takeWhile (·.tag != tag)
    let after := x.reads.drop (before.length + 1)
    if r.what = .drop ∨ (c.threadState t ≠ 1 ∧ c.threadState t ≠ 3) then c.putThread t { x with reads := before ++ after } else
      let c := c.putThread t { x with reads := before ++ after.map fun q => { q with what := .drop } }
      let place := match r.what with | .fetch => 1 | .entry => 2 | _ => 0
      let entries := (x.work.map fun w => if r.what = .entry then (w.sg.map (·.entries)).getD 0 else entryNow w).getD 0
      let ahead := (before.map fun q => match q.what with | .data _ => q.len | _ => 0).sum
      c.dmaError t code place r.addr entries ((x.work.map (·.done)).getD 0 + ahead)

/-- A completion for a read request (R455): status 0 Successful, 1 Unsupported Request, 2 Completer Abort, 3 poisoned. -/
def busCompletion (c : Chan) (t tag status : Nat) (bytes : List Nat) : Chan :=
  if status ≠ 0 then c.busFailed t tag 5 else
    let x := c.thread t
    let reads := (x.reads.filter fun r => !(r.tag == tag && r.what == .drop)).map fun r =>
      if r.tag = tag then { r with got := some (padTo r.len bytes) } else r
    let c := c.putThread t { x with reads := reads }
    Chan.dmaSettled (dmaDeliver t (x.reads.length + 1) c) t

/-- START (R440); `false` where it is BUSY. -/
def threadStart (c : Chan) (t : Nat) : Option Chan :=
  let st := c.threadState t
  if c.n.bitOf K.DMA_ENABLE t = false ∨ (1 ≤ st ∧ st ≤ 4) then none else
    let x := c.thread t
    let c := c.putThread t { reads := x.reads.map fun r => { r with what := .drop } }
    let zero := [K.CHAN_OFF, K.FAR_OFF, K.BYTES_MOVED, K.INSTR_DONE, K.ERR_CODE, K.ERR_WHERE, K.ERR_ADDR, K.ERR_PC, K.ERR_ENTRY, K.ERR_DONE]
    let c := c.mapN fun n =>
      let n := zero.foldl (fun n k => n.putN (ik k t) 0) n
      ((n.put (ik K.LOOP_LEFT t) (zeros 4)).putN (ik K.PC t) (n.num (ik K.PROG_ADDR t))).putN (ik K.THREAD_STATE t) 1
    some (c.fetchAhead t)

/-- PAUSE (R439, R440): PAUSING while an instruction, or the fetch of one, is in progress. -/
def threadPause (c : Chan) (t : Nat) : Chan :=
  let x := c.thread t
  if c.threadState t = 1 then c.threadGo t (if x.work.isSome || x.reads.any (·.what == .fetch) then 3 else 4)
  else if c.threadState t = 2 then c.threadGo t 4 else c

/-- RESUME (R439, R440). -/
def threadResume (c : Chan) (t : Nat) : Chan :=
  if c.threadState t = 4 then Chan.fetchAhead (c.threadGo t 1) t else c

/-- A thread is dropped (R441): what an instruction in progress was to write, and what the spec calls undefined, are free values. Its reads
stand no longer: a completion that still comes is an Unexpected Completion (R455). -/
def threadDrop (c : Chan) (t : Nat) : Chan :=
  let x := c.thread t
  if c.threadState t = 0 then c else
    let dests := (x.work.map (·.dests)).getD []
    let c := c.dmaUndefined dests
    let (v, nd) := c.n.takeFree 320
    let c := { c with n := nd }
    let c := c.putThread t { reads := [], loops := (List.range 4).map fun (i : Nat) => { left := v / 2 ^ (192 + 32 * i) % 2 ^ 32 } }
    c.mapN fun n =>
      let n := ((n.putN (ik K.BYTES_MOVED t) (v % 2 ^ 64)).putN (ik K.INSTR_DONE t) (v / 2 ^ 64 % 2 ^ 64)).putN (ik K.PC t) (v / 2 ^ 128 % 2 ^ 64)
      (n.put (ik K.LOOP_LEFT t) ((List.range 4).map fun i => v / 2 ^ (192 + 32 * i) % 2 ^ 32)).putN (ik K.THREAD_STATE t) 0

/-- A write of DMA_ENABLE (R441). -/
def dmaEnable (c : Chan) (v : Nat) : Chan :=
  (List.range 8).foldl (fun c t => if bit v t then c else c.threadDrop t) (c.mapN (·.putN K.DMA_ENABLE (v % 256)))

/-- Threads after a channel reset: IDLE, doorbells, credits taken and semaphores 0 (R432, R532). -/
def dmaReset (c : Chan) : Chan :=
  let c := { c with dma := { c.dma with threads := List.replicate 8 {} } }
  (List.range 8).foldl (fun c t => c.mapN fun n =>
    [K.THREAD_STATE, K.DOORBELL, K.DB_TAKEN, K.SEM].foldl (fun n k => n.putN (ik k t) 0) n) c

end Chan

end Sys2Proof.Machine
end

