-- ==== Sys2Proof/Machine/PowerEngine.lean ====
section
/-!
DEFINITION. Chapter 20, the channel's side: quiescence, the choice of a power state, entry, wakes and their races.
-/

namespace Sys2Proof.Machine

/-- What the power manager knows of the common block (R525): motion, speed, and the events to come. -/
structure PowerView where
  /-- WP_STATE, and the reported direction and source -/
  wpState : Nat
  upstream : Bool
  noSource : Bool
  /-- |WP_SPEED_FINE| in µm/s -/
  speed : Nat
  accel : Nat
  margin : Nat
  deepest : Nat
  stillDeepest : Nat
  /-- positions of the pending and the next automatic position-named Slate -/
  slates : List Pos
  /-- times of armed actions that select the channel, and of entry 63 -/
  actions : List Ticks
deriving DecidableEq, Repr

/-- The time in ns to travel `d` nm, by the prediction of R525. -/
def travelTime (p : PowerView) (d : Int) : Option Nat :=
  let d := d.toNat
  if p.accel ≠ 0 then
    some ((isqrtW ((p.speed * p.speed + 2 * p.accel * d) * 10 ^ 12) - p.speed * 10 ^ 6) / p.accel)
  else if p.speed ≠ 0 then some (d * 1000000 / p.speed)
  else none

/-- Depth, entry bound, wake bound and break-even of a state in ns (R521). -/
def stateFigures : PowerState → Nat × Nat × Nat × Nat
  | .run => (0, 0, 0, 0)
  | .hold => (1, 200, 2500, 6000)
  | .doze => (2, 8000, 100000, 600000)
  | .park => (3, 150000, 15000000, 80000000)

/-- The code of a state in PWR_STATE. -/
def PowerState.code (s : PowerState) : Nat := (stateFigures s).1

namespace Chan

/-- Change the power record. -/
def modPwr (c : Chan) (f : ChanPower → ChanPower) : Chan := { c with power := f c.power }

/-- PWR_STATE of the channel (R539). -/
def pwrState (c : Chan) : Nat :=
  match c.power.phase with
  | .steady => c.power.st.code
  | .entering _ => 4
  | .waking => 5
  | .reset => 6

/-- The channel changes phase: source 113 (R522). -/
def pwrPhase (c : Chan) (p : PowerPhase) : Chan := Chan.signal (c.modPwr fun x => { x with phase := p }) (.source 113)

/-- The time in the present state is accounted for (R539). A channel in reset is in none. -/
def pwrTime (c : Chan) : Chan :=
  let add := (c.n.mono - c.power.since) / 65536
  c.modPwr fun x =>
    if x.phase = .reset then { x with since := c.n.mono }
    else { x with since := c.n.mono, times := listPut x.times x.st.code (wrap 64 (x.times.getD x.st.code 0 + add)) }

/-- The conditions of R524 but those of PWR_WAKE and of MEM_STATE, which no channel in Doze or Park meets. -/
def idle (c : Chan) : Bool :=
  (List.range 4).all (fun h => (c.head h).lines.isEmpty) && c.geo.out.isEmpty && (c.outputLine []).geo.lastY == c.geo.lastY &&
  c.seg.queue.isEmpty && c.seg.held.isEmpty && c.input.aux.isNone && c.rushes.queue.isEmpty && c.stk.cues.isEmpty && c.stk.hand.isEmpty &&
  (List.range 8).all (fun t => c.threadState t != 1 && c.threadState t != 3) && c.cmpQuiet && c.mc.waiting.isEmpty && c.mc.opened.isEmpty &&
  c.calHead.isNone && c.n.num K.RETAKE_STATE == 0 && c.n.num K.FREEZE_STATE != 2

/-- The terms of R525: kind and time in ns. -/
def events (c : Chan) (p : PowerView) : List (Nat × Nat) :=
  let noTrig : Bool := p.wpState == 0 || (p.wpState == 2 && p.upstream) || p.noSource
  let heads := (List.range 4).filterMap fun h =>
    if !c.active h || noTrig then none
    else if p.wpState = 1 then some (2, 0)
    else
      let pitch := c.n.num (ik K.LINE_PITCH h)
      let next := gridBelow pitch (c.n.num (ik K.LINE_PHASE h)) (c.head h).w + pitch
      (travelTime p (next - c.n.posn.pos)).map fun t => (2, t)
  let slates := p.slates.filterMap fun s => (travelTime p (s - c.n.posn.pos)).map fun t => (3, t)
  let acts := p.actions.map fun t => (4, (t - c.n.now) / 65536)
  let dma := (List.range 8).filterMap fun t =>
    let lim := field ((c.thread t).code.getD []) 4 4
    if c.threadState t = 2 ∧ lim ≠ 0 then some (5, ((c.thread t).since + nsTicks lim - c.n.mono) / 65536) else none
  heads ++ slates ++ acts ++ dma

/-- E and its kind: all ones and 0 where no term exists. -/
def nextEvent (c : Chan) (p : PowerView) : Nat × Nat :=
  (c.events p).foldl (fun (e, k) x => if x.2 < e then (x.2, x.1) else (e, k)) (2 ^ 64 - 1, 0)

/-- The deepest permitted state (R523, R526). -/
def deepest (c : Chan) (p : PowerView) : Nat :=
  let d := if p.wpState = 0 then p.stillDeepest else p.deepest
  if c.n.flag K.AUX_ENABLE then min d 1 else d

/-- A lane goes to standby, its adaptation kept; its detectors report nothing, and start anew at the wake (R215; DESIGN CHOICE, unsafe: log
entry 1215). -/
def laneRest (now : Ticks) (x : Lane) : Lane :=
  { x with standby := true, los := false, lol := false, paused := match x.adapt with | .frozen => x.paused | _ => now }

/-- A lane leaves standby. -/
def laneWake (now : Ticks) (x : Lane) : Lane :=
  if x.standby then
    match x.adapt with
    | .frozen => { x with standby := false }
    | _ => { x.resume now with standby := false }
  else x

/-- The channel stands in Park: its PXCLK is stopped (R21). -/
def parked (c : Chan) : Bool := c.power.st == .park && c.power.phase == .steady

/-- Lanes and light as a state is entered (R215, R278): in Park the lanes have no lock. -/
def sleepParts (c : Chan) (s : PowerState) : Chan :=
  match s with
  | .doze => { c.pinsRest.illSleep with lanes := c.lanes.map (laneRest c.n.mono) }
  | .park =>
    let c := { c.pinsRest.illSleep with lanes := c.lanes.map fun (x : Lane) =>
      { laneRest c.n.mono x with cdr := false, blockLock := false } }
    let c := c.modPwr fun x => { x with posHeld := false, timeHeld := false }
    (List.range 8).foldl (fun c f => if c.n.elem K.LK_LINK_STATE f = 0 then c else c.mapN (·.putE K.LK_LINK_STATE f 0)) c
  | _ => c

/-- Entry to a state starts (R521): for Doze and Park the memory goes to self-refresh. -/
def pwrEnter (c : Chan) (s : PowerState) : Chan :=
  let c := c.pwrPhase (.entering s)
  if s = .hold then c else c.srCause .power

/-- A wake starts (R527). -/
def pwrWake (c : Chan) : Chan :=
  let was := c.power.st
  let c := (c.modPwr fun x => { x with after := false }).pwrPhase .waking
  if was = .doze ∨ was = .park then c.srEnd .power else c

/-- A wake cause is acted on (R527, R528). -/
def takeCause (c : Chan) : Chan :=
  if c.power.cause = false then c else
    let c := c.modPwr fun x => { x with cause := false }
    match c.power.phase with
    | .steady => if c.power.st = .run then c else c.pwrWake
    | .entering .hold => c.modPwr fun x => { x with after := true }
    | .entering _ =>
      if c.memState = 2 ∨ c.memState = 3 then c.entryAbort.srEnd .power else c.modPwr fun x => { x with after := true }
    | _ => c

/-- Entry completes (R521); a cause that came meanwhile starts a wake (R528). -/
def entryDone (c : Chan) : Chan :=
  match c.power.phase with
  | .entering s =>
    if s ≠ .hold ∧ c.memState ≠ 4 then c else
      let c := (c.pwrTime.modPwr fun x => { x with st := s }).pwrPhase .steady
      let c := c.sleepParts s
      if c.power.after then c.pwrWake else c
  | _ => c

/-- Wake completion (R522, R529): Run with memory READY and the broadcast copies current; the lines lost in sleep are told, lanes and light
start again. After Park the resamplers' history, the stores and every background and reference are gone (R296, R324). -/
def wakeDone (c : Chan) : Chan :=
  if c.power.phase ≠ .waking ∨ c.memState ≠ 2 ∨ c.power.posHeld = false ∨ c.power.timeHeld = false then c else
    let was := c.power.st
    let c := (c.pwrTime.modPwr fun x => { x with st := .run, wakes := wrap 32 (x.wakes + 1) }).pwrPhase .steady
    let c := c.mapN (·.occur 159)
    let c := { c with lanes := c.lanes.map (laneWake c.n.mono) }
    let c := if was = .park then
        (List.range 8).foldl (fun c f => c.linkStart f)
          { c with front := { c.front with heads := c.front.heads.map fun (x : HeadFront) => { x with virgin := true } },
                   geo := { c.geo with heads := List.replicate 4 {} },
                   seg := { c.seg with bg := [] },
                   stk := { c.stk with pv := c.stk.pv.map fun (x : HeadPv) => { x with refs := [] } } }
      else c
    let c := if was = .hold then c else c.illWake
    c.releaseLosses

/-- The decision of the power manager for the channel (R525, R526). -/
def pwrDecide (c : Chan) (p : PowerView) : Chan :=
  if !c.power.started || c.inReset then c else
    let free := c.idle && (c.memState == 2 || c.power.st == .doze || c.power.st == .park)
    let c := c.modPwr fun x => { x with busy := !free, woken := x.woken && !(free && x.busy) }
    let quiet := free && !c.power.woken
    let (e, kind) := c.nextEvent p
    let c := c.modPwr fun x => { x with nextEvent := e, nextKind := if quiet then kind else 1 }
    let deep := c.deepest p
    match c.power.phase with
    | .steady =>
      if c.power.st = .run then
        if !quiet then c else
          let fits (s : PowerState) : Bool :=
            let (d, ent, wake, be) := stateFigures s
            decide (d ≤ deep) && decide (ent + wake + p.margin ≤ e) && decide (be ≤ e)
          match [PowerState.park, .doze, .hold].find? fits with
          | some s => c.pwrEnter s
          | none => c
      else
        let (d, _, wake, _) := stateFigures c.power.st
        if e < wake + p.margin ∨ deep < d ∨ quiet = false then c.pwrWake else c
    | _ => c

/-- PWR_WAKE (R524, R527). -/
def pwrWakeWrite (c : Chan) : Chan := Chan.takeCause (c.modPwr fun x => { x with woken := true, cause := true })

end Chan

end Sys2Proof.Machine
end

