-- ==== Sys2Proof/Machine/RetakeEngine.lean ====
section
/-!
DEFINITION. Retake (12 R366-R370): the checks of the first entry, loading a checkpoint, feeding entries, leaving replay; and the clearing
of the pixel pipeline that it shares with a channel reset.
-/

namespace Sys2Proof.Machine

/-! ## The pipeline cleared (R368, R532) -/

namespace Chan

/-- Everything the pixel pipeline holds is dropped: lines, front end, resamplers, statistics under way, open blobs, Cue sheet. The front end
starts on the selected bank, the loops in OFF; a snapshot asked for is still taken (R303, R350). -/
def pipelineReset (c : Chan) : Chan :=
  let heads := c.input.heads.map fun (x : HeadIn) => { ({} : HeadIn) with w := x.w, num := x.num, temp := x.temp }
  { c with
    n := (List.range 4).foldl (fun n h => n.putN (ik K.LOOP_STATE h) 0) ((c.n.putN K.CUES_NOW 0).putN K.OPEN_NOW 0),
    input := { c.input with heads := heads, aux := none },
    front := { heads := List.replicate 4 { bank := c.n.num K.CORR_BANK_SEL } }, geo := {},
    expo := { c.expo with loops := c.expo.loops.map fun (x : HeadLoop) => { ({} : HeadLoop) with plan := x.plan } },
    seg := { nextNo := c.seg.nextNo, ring := c.seg.ring, ringBase := c.seg.ringBase, snapDue := c.seg.snapDue },
    stk := { pins := c.stk.pins.map fun (p : StkPin) => { p with active := false }, snapDue := c.stk.snapDue },
    slate := { c.slate with pub := { newest := c.slate.pub.newest } },
    rushes := { c.rushes with ks := List.replicate 8 {} } }

/-- As Retake starts, the trigger and strike pins take their inactive levels and the illumination outputs go dark (R344, R368). -/
def retakePins (c : Chan) : Chan :=
  let c := c.pinsRest.illSleep
  { c with stk := { c.stk with pins := c.stk.pins.map fun (p : StkPin) => { p with active := false } } }

/-- Every stage holds the values in force and no set. -/
def stagesFrom (c : Chan) (d : Store) (gen : Nat) : Chan :=
  { c with slate := { c.slate with stages := List.replicate 8 { gen := gen, base := d, sets := [] } } }

end Chan

/-! ## Reading the journal (R354, R355, R366) -/

/-- One entry as it lies in the region. -/
structure JrnRead where
  off : Nat
  kind : Nat
  flags : Nat
  head : Nat
  len : Nat
  seq : Nat
  time : Nat
  crcOk : Bool
  body : List Nat
deriving DecidableEq, Repr

/-- An item of a configuration, SLATE or DICT entry (R360). -/
structure JrnItem where
  index : Nat
  sub : Nat
  code : Nat
  val : List Nat
deriving DecidableEq, Repr

/-- The items of a byte string. -/
def jrnItems : Nat → List Nat → List JrnItem
  | 0, _ => []
  | fuel + 1, l =>
    if l.length < 8 then [] else
      let n := field l 4 4
      { index := field l 0 2, sub := field l 2 1, code := field l 3 1, val := slice l 8 n } ::
        jrnItems fuel (l.drop (8 + (n + 7) / 8 * 8))

namespace Chan

/-- Where `n` bytes of the region from an offset lie, with ring addressing: addresses and lengths. -/
def regionParts (c : Chan) (off n : Nat) : List (Nat × Nat) :=
  let size := c.n.num K.RETAKE_SIZE
  let a := c.n.num K.RETAKE_ADDR
  if size = 0 then [] else
    let o := off % size
    if o + n ≤ size then [(a + o, n)] else [(a + o, size - o), (a, n - (size - o))]

/-- Bytes of the region, read as requests to the controller (R379, R382): zeros where it refuses. -/
def regionLoad (c : Chan) (off n : Nat) : Chan × List Nat :=
  (c.regionParts off n).foldl (fun (c, l) (a, k) => let r := c.memLoad a k; (r.1, l ++ r.2.2)) (c, [])

/-- The same bytes, seen ahead of the requests that will read them. -/
def regionPeek (c : Chan) (off n : Nat) : List Nat :=
  (c.regionParts off n).flatMap fun (a, k) => if c.memStatus a k = 0 then memRead c.mem a k else zeros k

/-- The LENGTH of an entry by its header, where it can be one. -/
def entryLen (c : Chan) (h : List Nat) : Option Nat :=
  let len := field h 4 4
  if 24 ≤ len ∧ len % 8 = 0 ∧ len ≤ c.n.num K.RETAKE_SIZE then some len else none

/-- The entry with header `h` and body `body` at an offset. -/
def entryOf (c : Chan) (off : Nat) (h body : List Nat) : JrnRead :=
  { off := off, kind := field h 0 1, flags := field h 1 1, head := field h 2 1, len := field h 4 4, seq := field h 8 4, time := field h 16 8,
    crcOk := (c.entryLen h).isSome && crc32c (h.take 12 ++ h.drop 16 ++ body) == field h 12 4, body := body }

/-- The entry at an offset, seen ahead. -/
def readEntry (c : Chan) (off : Nat) : JrnRead :=
  let h := c.regionPeek off 24
  c.entryOf off h (match c.entryLen h with | some len => c.regionPeek (off + 24) (len - 24) | none => [])

/-- The entry at an offset is read from memory. -/
def loadEntry (c : Chan) (off : Nat) : Chan × JrnRead :=
  let (c, h) := c.regionLoad off 24
  let (c, b) := match c.entryLen h with | some len => c.regionLoad (off + 24) (len - 24) | none => (c, [])
  (c, c.entryOf off h b)

/-- The entries from an offset on whose SEQ follow, in the bytes left. -/
def entriesFrom (c : Chan) : Nat → Nat → Nat → Nat → List JrnRead
  | 0, _, _, _ => []
  | fuel + 1, off, seq, room =>
    let e := c.readEntry off
    if !e.crcOk || e.seq != seq || decide (room < e.len) then []
    else e :: entriesFrom c fuel ((off + e.len) % max 1 (c.n.num K.RETAKE_SIZE)) (wrap 32 (seq + 1)) (room - e.len)

/-- The key of an item that names an RW or RS object of this channel with a value that passes R59. -/
def itemKey (c : Chan) (i : JrnItem) : Option (Nat × List Nat) :=
  let base := 0x8000 + 0x800 * c.num
  if i.index < base ∨ base + 0x800 ≤ i.index then none else
    let k := (i.index - 0x800 * c.num) * 256 + i.sub
    match objInfo k with
    | some r =>
      if (r.acc = .rw ∨ r.acc = .rs) ∧ r.typeCode = i.code then
        match r.checkBytes i.val with
        | .ok vs => some (k, vs)
        | .error _ => none
      else none
    | none => none

/-- An item that fails R59: it names no object of this channel, or its TYPE or value is not one the object takes (R367). -/
def itemBad (c : Chan) (i : JrnItem) : Bool :=
  let base := 0x8000 + 0x800 * c.num
  if i.index < base ∨ base + 0x800 ≤ i.index then true else
    match objInfo ((i.index - 0x800 * c.num) * 256 + i.sub) with
    | some r => r.typeCode != i.code || (match r.checkBytes i.val with | .ok _ => false | .error _ => true)
    | none => true

/-- Retake stops with an error (R367). -/
def retakeError (c : Chan) (code off detail : Nat) : Chan :=
  c.mapN fun n => Node.occur (Node.setFlag ((((n.putN K.RETAKE_STATE 4).putN K.RETAKE_ERROR code).putN K.RETAKE_ERR_OFF off).putN
    K.RETAKE_DETAIL (wrap 32 detail)) K.RUSHES_FLAGS 4) 117

/-- Retake ends DONE or ABORTED. -/
def retakeEnd (c : Chan) (st : Nat) : Chan := c.mapN fun n => (n.putN K.RETAKE_STATE st).occur 117

end Chan

/-- Addresses of rings and snapshot areas, ring read offsets, and this Retake's own objects: they keep their values (R368). -/
def keptKeys : List Nat :=
  [K.AUX_RING_ADDR, K.AUX_RING_RD, K.ALIGN_ADDR, K.REC_RING_ADDR, K.REC_RD, K.REC_WB_ADDR, K.HIST_ADDR, K.CROP_RING_ADDR, K.CROP_RD,
   K.OPEN_SNAP_ADDR, K.CUE_SNAP_ADDR, K.PQ_RING_ADDR, K.PQ_RD, K.PQ_WB_ADDR, K.RUSHES_ADDR, K.CPL_RING_ADDR, K.CPL_RD, K.CPL_WB_ADDR,
   K.C_LRING_ADDR, K.C_LRING_RD, K.C_LRING_WB_ADDR, K.RETAKE_ADDR, K.RETAKE_SIZE, K.RETAKE_FIRST, K.RETAKE_ENTRIES]

/-- Bytes 128 of an open entry as a blob of the line before `k`, numbered `uid` (R303). -/
def blobOf (slot uid k : Nat) (b : List Nat) : Blob :=
  let st := b.getD 5 0
  let lines := max 1 (field b 16 4)
  { slot := slot, uid := uid, id := field b 0 4, piece := b.getD 4 0, dark := bit st 1, seeded := bit st 0, contIn := b.getD 4 0 != 0,
    seamLo := bit st 2, seamHi := bit st 3, ovf := bit st 4, sat := bit st 5, repl := bit st 6, gainStep := bit st 7,
    yFirst := toSigned 64 (field b 8 8), k0 := k - lines, k1 := k - 1, nMin := field b 20 4, nMax := field b 24 4, area := field b 28 4,
    perim := field b 32 4, devMin := toSigned 16 (field b 36 2), devMax := toSigned 16 (field b 38 2), sd := toSigned 64 (field b 40 8),
    sx := field b 48 8, sy := field b 56 8, sxx := field b 64 12, syy := field b 80 12, sxy := field b 96 12,
    loFirst := field b 112 4, loLast := field b 116 4, hiFirst := field b 120 4, hiLast := field b 124 4 }

/-- Elements of `n` bytes. -/
def elemsOf (n : Nat) (l : List Nat) : List Nat := (List.range (l.length / n)).map fun i => field l (n * i) n

namespace Chan

/-! ## Starting (R366, R367) -/

/-- The configuration a checkpoint or SLATE entry brings, over the values in force; or the item that fails (R367). -/
def loadItems (c : Chan) (d : Store) (kept : Bool) (items : List JrnItem) : Except Nat Store :=
  items.foldl (fun r i =>
    match r with
    | .error e => .error e
    | .ok d =>
      match c.itemKey i with
      | some (k, vs) => .ok (if kept && keptKeys.contains k then d else storePut d k vs)
      | none => .error (i.index * 256 + i.sub)) (.ok d)

/-- The first failing naming check of a configuration, as index and subindex. -/
def namingDetail (c : Chan) (d : Store) : Option Nat :=
  match namingFails d d with
  | f :: _ => some (f.keys.headD 0 + 0x800 * 256 * c.num)
  | [] => none

/-- The configuration of the checkpoint, checked (R367). -/
def ckptConfig (c : Chan) (e : JrnRead) : Except Nat Store :=
  match c.loadItems c.n.objs true (jrnItems 65536 (slice e.body 32 (field e.body 24 4))) with
  | .ok d => (match c.namingDetail d with | some x => .error x | none => .ok d)
  | .error x => .error x

/-- In LOADING the first entry is read and checked, once the memory serves (R366, R367). -/
def retakeCheck (c : Chan) : Chan :=
  let off := c.n.num K.RETAKE_FIRST
  if c.n.num K.RETAKE_STATE ≠ 1 ∨ c.rushes.retake.checked = true then c
  else if c.n.num K.RETAKE_SIZE = 0 then
    let (x, n) := c.n.takeFree 8
    Chan.retakeError { c with n := n } 1 off x
  else if c.memWaiting then c
  else
    let (c, e) := (c.modJrn fun s => { s with retake := { s.retake with checked := true } }).loadEntry off
    if !e.crcOk then c.retakeError 3 off e.seq
    else if e.kind ≠ 9 then c.retakeError 1 off e.kind
    else if e.body.getD 12 0 ≠ 0x21 ∨ field e.body 14 2 ≠ (dfltOf 0x100006).headD 0 then
      c.retakeError 2 off (e.body.getD 12 0 + 256 * field e.body 14 2)
    else match c.ckptConfig e with
      | .error x => c.retakeError 8 off x
      | .ok _ => c

/-- RETAKE_CTRL 1 (R366): turned away, or LOADING with the first entry checked, or ERROR. -/
def retakeStart (c : Chan) : Status × Chan :=
  let fs := c.n.num K.FREEZE_STATE
  if c.running = false ∨ (fs ≠ 0 ∧ fs ≠ 3) ∨ c.n.num K.RETAKE_STATE ≠ 0 then (.busy, c) else
    let c := c.modJrn fun s => { s with retake := { saved := c.n.objs, newest := c.slate.pub.newest } }
    let c := c.retakePins
    let c := c.mapN fun n => [K.RETAKE_ERROR, K.RETAKE_ERR_OFF, K.RETAKE_DETAIL, K.RETAKE_DONE_ENTRIES, K.RETAKE_COMPARED,
      K.RETAKE_MISMATCH_GEN, K.RETAKE_MISMATCH_K].foldl (fun n k => n.putN k 0) (n.putN K.RETAKE_STATE 1)
    (.ok, c.retakeCheck)

/-! ## Loading (R363, R368) -/

/-- The contents of the state blocks numbered `b`: selector and bytes. -/
def blocksAt (b : Nat) (l : List Nat) : List (Nat × List Nat) :=
  let rec go : Nat → List Nat → List (Nat × List Nat)
    | 0, _ => []
    | fuel + 1, l => if l.length < 8 then [] else (field l 2 2, slice l 8 (field l 4 4)) :: go fuel (l.drop (8 + field l 4 4))
  go 64 (blocksOf b 64 l)

/-- The planes of a head's blocks. -/
def headPlanes (h : Nat) (bs : List (Nat × List Nat)) : List (List Nat) := (bs.filter fun x => x.1 / 4 == h).map (·.2)

/-- The state section put into the channel (R363). PERIM of a blob needs the labels of two lines (R306), of which SEGPREV holds one: the line
before it is taken for the blob's own under its pixels, or for none where the blob began on the line of SEGPREV (DEDUCED, unsafe: log entry
1369). -/
def loadState (c : Chan) (gen : Nat) (st : List Nat) : Chan :=
  let v := c.n.objs
  let nr := blocksAt 1 st
  let pv := blocksAt 2 st
  let bg := blocksAt 3 st
  let cnt := ((blocksAt 7 st).headD (0, [])).2
  let bgOf (n : Nat) (l : List Nat) : List Bg := (elemsOf 8 l).map fun x => { b := x % 2 ^ 24, on := if n = 0 then x != 0 else bit x 63, learn := bits x 31 24 }
  let sel := v.num K.CORR_BANK_SEL
  let c := (List.range 4).foldl (fun c h =>
    let j := field cnt (8 + 2 * h) 2
    let c := Chan.putFront c h
      { store := (headPlanes h nr).map (elemsOf 4), virgin := (headPlanes h nr).isEmpty, prevLost := false, prevPos := none,
        cfg := (restartKeys h).map fun k => (k, v.elems k), bank := if j = 0 then sel else 1 - sel,
        fade := if j = 0 then none else some { old := 1 - sel, new := sel, log2 := v.num K.FADE_LOG2, j := j } }
    let c := if j = 0 then c else { c with front := { c.front with fading := some sel } }
    let ps := headPlanes h pv
    let hp : HeadPv :=
      { refs := ps.map (bgOf 0), fc := (elemsOf 8 (ps.headD [])).map fun x => x / 2 ^ 32,
        enabled := v.flag (ik K.PV_ENABLE h), plane := v.num (ik K.PV_PLANE h), seen := some gen }
    let c := c.modStk fun t => { t with pv := listPut t.pv h hp }
    match headPlanes h (blocksAt 6 st) with
    | [] => c
    | l :: _ =>
      let ks := statKeys h
      let size (k : Nat) : Nat := match objInfo k with | some r => r.maxBytes | none => 0
      let front := ((ks.take 3).map size).foldl (· + ·) 0
      let (c, _) := ks.foldl (fun (co : Chan × Nat) k =>
        let (c, o) := co
        let o := if o = front ∧ k ≠ ks.headD 0 then front + 1536 else o
        match objInfo k with
        | some r => (c.pubPut gen k (r.decodeVals (slice l o (size k))), o + size k)
        | none => (c, o)) (c, 0)
      let lines := (c.pubElems gen (ik K.STAT_LINES h)).headD 0
      c.putLoop h { c.loop h with stats := [(gen, { sums := elemsOf 8 (slice l front 1536), lines := lines })] }) c
  let k := 2 ^ 32
  let blobs := (((blocksAt 5 st).headD (0, [])).2)
  let bs := (List.range (blobs.length / 136)).map fun i => blobOf (field blobs (136 * i) 4) i k (slice blobs (136 * i + 8) 128)
  let prev := elemsOf 4 (((blocksAt 4 st).headD (0, [])).2)
  let lab := prev.map fun x => (bs.find? fun (b : Blob) => b.slot == x % 65536 && x % 65536 != 65535).map (·.uid)
  let fresh (b : Blob) : Bool := b.lines == 1
  let lab2 := lab.map fun o => o.filter fun u => !(bs.any fun b => b.uid == u && fresh b)
  let bs := bs.map fun b => { b with perim := if fresh b then 0 else b.perim - boundary lab lab lab b.uid }
  let c := c.modSeg fun s => { s with
    bg := bg.map fun x => bgOf 1 x.2, fc := (elemsOf 8 ((bg.headD (0, [])).2)).map fun x => bits x 62 32,
    pcand := prev.map (bit · 16), pdark := prev.map (bit · 17), enabled := v.flag K.SEG_ENABLE, plane := v.num K.SEG_PLANE, seen := some gen,
    blobs := bs, lab := lab, lab2 := lab2, k := k, nextUid := bs.length, counter := field cnt 0 4, sinceRec := field cnt 4 4 }
  c.mapN fun n => n.putFlags K.OPEN_NOW 0 bs.length

/-- What the journal says of later events, read ahead (R368, R370). -/
def preload (es : List JrnRead) (r : Retake) : Retake :=
  es.foldl (fun r e =>
    let b := e.body
    match e.kind with
    | 7 => if b.getD 24 0 = 3 ∨ b.getD 24 0 = 4 then { r with cued := r.cued ++ [(field b 20 4, b.getD 32 0)] } else r
    | 8 => { r with checks := r.checks ++ [(field b 0 4, b.getD 4 0, elemsOf 8 (slice b 8 64), elemsOf 8 (slice b 72 64))] }
    | 13 =>
      if b.getD 8 0 = 1 then { r with late := r.late ++ [(toSigned 64 (field b 0 8), e.head % 4)] }
      else { r with crops := r.crops ++ [{ id := field b 12 4, piece := b.getD 9 0, top := toSigned 64 (field b 16 8), lines := field b 24 4 }] }
    | _ => r) r

/-- The checkpoint is loaded and replay begins (R366, R368). -/
def retakeLoaded (c : Chan) : Chan :=
  let c := c.retakeCheck
  if c.n.num K.RETAKE_STATE ≠ 1 ∨ c.rushes.retake.checked = false then c else
    let off := c.n.num K.RETAKE_FIRST
    let size := c.n.num K.RETAKE_SIZE
    let e := c.readEntry off
    match c.ckptConfig e with
    | .error x => c.retakeError 8 off x
    | .ok d =>
      let gen := field e.body 8 4
      let was := c.rushes.retake
      let c := Chan.stagesFrom (Chan.pipelineReset { c with n := { c.n with objs := d, gen := gen } }) d gen
      let c := { c with slate := { c.slate with
        started := true, marks := [(gen, toSigned 64 (field e.body 0 8))], pub := { newest := (List.range 19).map fun p => (p, gen) } } }
      let c := c.loadState gen (slice e.body (32 + field e.body 24 4) (field e.body 28 4))
      let left := c.n.num K.RETAKE_ENTRIES
      let next := (off + e.len) % size
      let ahead := c.entriesFrom (size / 24) next (wrap 32 (e.seq + 1)) (size - e.len)
      let r : Retake := { saved := was.saved, newest := was.newest, checked := true, time := e.time, off := next, seq := wrap 32 (e.seq + 1), left := if left = 0 then none else some (left - 1), read := e.len,
                          pos := toSigned 64 (field e.body 0 8), gen := gen, trig := (List.range 4).map fun h => field e.body (16 + 2 * h) 2 }
      let c := c.modJrn fun s => { s with retake := preload (if left = 0 then ahead else ahead.take (left - 1)) r }
      c.mapN fun n => (n.putN K.RETAKE_STATE 2).putN K.RETAKE_DONE_ENTRIES 1

/-! ## Feeding entries (R368) -/

/-- A LINE entry's raw planes, or the error of R367: payload inflated, filter undone, checked against RAW_CRC. -/
def linePlanes (v : Store) (e : JrnRead) (d : Desc) : Except (Nat × Nat) Planes :=
  let b := e.body
  let raw := field b 36 4
  let stored := field b 40 4
  let form := b.getD 44 0
  let q := fmtPlanes (v.num (ik K.PIX_FORMAT d.head))
  if stored = 0 then .error (6, d.num) else
    let pay := slice b 48 stored
    let got : Except Nat (List Nat) := if form = 2 then inflateRaw raw pay else .ok pay
    match got with
    | .error x => .error (7, x)
    | .ok bytes =>
      let inv := bit e.flags 0
      let n := if inv then raw * 8 / 17 else raw / 2
      let codes := elemsOf 2 (bytes.take (2 * n))
      let codes := if form = 2 ∧ v.num K.RAW_FILTER = 1 then sumCodes (zeros q) codes else codes
      let bmp := bytes.drop (2 * n)
      if bytes.length ≠ raw ∨ crc32c (codes.flatMap (leBytes 2) ++ bmp) ≠ field b 32 4 then .error (7, 0xFF)
      else
        let words := codes.mapIdx fun i x => x + 65536 * b2n (inv && bit (bmp.getD (i / 8) 0) (i % 8))
        .ok ((List.range q).map fun p => (List.range (words.length / max 1 q)).map fun i => words.getD (q * i + p) pxInvalidBit)

/-- The direct writes for which `p` holds take effect in the channel's objects. -/
def dictsApply (c : Chan) (p : ReDict → Bool) : Chan :=
  (c.rushes.retake.dicts.filter p).foldl (fun c d => c.mapN (·.put d.key d.val))
    (c.modJrn fun s => { s with retake := { s.retake with dicts := s.retake.dicts.filter (!p ·) } })

/-- A direct write of an object of the inputs, lanes or front end takes effect with a head's lines, another with the output lines (R368). -/
def ReDict.input (d : ReDict) : Bool := decide (baseIndex (d.key / 256) < 0x8300)

/-- Direct writes whose first output line has come (R368). -/
def dictsByY (c : Chan) : Chan :=
  match c.nextY with
  | none => c
  | some y => c.dictsApply fun d => !ReDict.input d && decide (d.nextY ≤ y)

/-- The line `num` of head `h` comes to the front end in a replay (R368): direct writes whose first line of the head it is, or an earlier one,
take effect for the head, and in the objects once they have for every active head. -/
def dictsByTrig (c : Chan) (h num : Nat) : Chan :=
  if !c.replaying || num == 0 then c else
    let come (d : ReDict) : ReDict :=
      if ReDict.input d && decide (0 ≤ toSigned 16 (num + 65536 - d.nextTrig.getD h 0)) && !d.heads.contains h
      then { d with heads := d.heads ++ [h] } else d
    let c := c.modJrn fun s => { s with retake := { s.retake with dicts := s.retake.dicts.map come } }
    c.dictsApply fun d => ReDict.input d && c.activeHeads.all d.heads.contains

/-- The capture line of a head, and what follows it, is fed (R362, R368). -/
def begins (c : Chan) (d : Desc) : Bool :=
  let v := c.n.objs
  let pitch := v.num (ik K.LINE_PITCH d.head)
  c.rushes.retake.begun.contains d.head ||
    (d.num == c.rushes.retake.trig.getD d.head 0 &&
     decide (c.rushes.retake.pos + (headDelay v d.head pitch : Int) - ((5 + v.num K.LOST_BRIDGE) * pitch : Nat) ≤ d.pos))

/-- A LINE entry is fed; the engine inflates its payload and counts it (R368, R417, R421). -/
def feedLine (c : Chan) (e : JrnRead) : Chan :=
  let d := descOf (e.body.take 32)
  if !c.begins d then c else
    let first := !c.rushes.retake.begun.contains d.head
    let v := c.viewIn 0 d.gen
    let c := if first then
        let x := c.hfront d.head
        (c.putFront d.head { x with prevPos := some (d.pos - (v.num (ik K.LINE_PITCH d.head) : Int)) }).modJrn fun s =>
          { s with retake := { s.retake with begun := d.head :: s.retake.begun } }
      else c
    let put (c : Chan) (raw : Planes) : Chan :=
      let x := c.head d.head
      let near : Bool := x.moved
      c.putHead d.head { x with grid := true, moved := false, num := d.num,
                                lines := x.lines ++ [{ desc := d, trig := false, issued := nsTicks d.time, disturbed := near, started := !d.lost,
                                                       closed := true, raw := raw }] }
    if d.lost then put c [] else
      match linePlanes v e d with
      | .error (code, detail) => c.retakeError code e.off detail
      | .ok raw => put (if e.body.getD 44 0 = 2 then c.mapN (·.add 64 K.RECORDER_JOBS 1) else c) raw

/-- A Slate of the journal as its entry has it. -/
def slateOf (c : Chan) (e : JrnRead) : Except Nat ReSlate :=
  let b := e.body
  match c.loadItems [] false (jrnItems 65536 (b.drop 40)) with
  | .error x => .error x
  | .ok _ =>
    let items := (jrnItems 65536 (b.drop 40)).filterMap c.itemKey
    .ok { gen := field b 0 4, pos := toSigned 64 (field b 4 8), fold := b.getD 21 0, nextTrig := (List.range 4).map fun h => field b (24 + 2 * h) 2,
          items := items }

/-- The Slates that follow at once and that stage `k` folded into the one before (R45, R368). -/
def foldChain (k : Nat) : List ReSlate → InFlight → InFlight
  | [], x => x
  | r :: rest, x =>
    if bit r.fold k then foldChain k rest { gen := r.gen, pos := r.pos, firstGen := x.firstGen, entries := Store.overlay x.entries r.items } else x

/-- A SLATE entry takes effect (R368): stages hold it, with the later Slates they folded into it. -/
def feedSlate (c : Chan) (e : JrnRead) (ahead : List JrnRead) : Chan :=
  match c.slateOf e with
  | .error x => c.retakeError 8 e.off x
  | .ok r =>
    let old := c.n
    let objs := r.items.foldl (fun d (k, v) => storePut d k v) c.n.objs
    match c.namingDetail objs with
    | some x => c.retakeError 8 e.off x
    | none =>
      let later := ahead.filterMap fun x => if x.kind = 4 then (match c.slateOf x with | .ok y => some y | .error _ => none) else none
      let one : InFlight := { gen := r.gen, pos := r.pos, firstGen := r.gen, entries := r.items }
      let stages := c.slate.stages.mapIdx fun k (st : Stage) => if bit r.fold k then st else { st with sets := st.sets ++ [foldChain k later one] }
      let sl : ChanSlate := { c.slate with marks := c.slate.marks ++ [(r.gen, r.pos)], stages := stages }
      let c := (Chan.geoCommit old r.pos { c with n := { c.n with objs := objs, gen := r.gen }, slate := sl }).noteActive
      Chan.commitPublish (c.pubPut c.n.gen K.CUES_PEAK [c.stk.cues.length])

/-- A RELEASE entry: the gain notice and white balance from N_eff (R292, R368). -/
def feedRelease (c : Chan) (e : JrnRead) : Chan :=
  let b := e.body
  let h := e.head % 4
  let x := c.loop h
  let ord := x.released + 1
  let vals : StepVals :=
    { expo := field b 20 4, gain := field b 24 2, duty := (List.range 2).map fun i => field b (32 + 4 * i) 4,
      wb := (List.range 3).map fun p => field b (26 + 2 * p) 2 }
  let rel : Release := { ordinal := ord, nEff := field b 4 2, ratio := (List.range 3).map fun p => field b (8 + 4 * p) 4, vals := vals }
  c.putLoop h { x with released := ord, rels := x.rels ++ [rel] }

/-- A TIMEBASE entry of a step (R360): the last EDGE entry's time steps with device time, so that the position goes on from it (R129, R368). -/
def feedTime (c : Chan) (e : JrnRead) : Chan :=
  if e.body.getD 20 0 ≠ 1 then c else
    let step := toSigned 64 (field e.body 8 8)
    c.modJrn fun s => { s with retake := { s.retake with edge := s.retake.edge.map fun (p, t, v) => (p, t + step, v) } }

/-- The position of the Cue sheet at a journal time, from the last EDGE entry (R368). -/
def edgeMove (c : Chan) (time : Nat) : Chan :=
  match c.rushes.retake.edge with
  | none => c
  | some (p, t, v) =>
    let dt : Int := time - t
    if dt < 0 then c else c.mapN fun n => { n with posn := { n.posn with pos := p + v * dt / 1000000 } }

/-- An EDGE entry: the channel's position copy (R368). -/
def feedEdge (c : Chan) (e : JrnRead) : Chan :=
  let b := e.body
  let st := b.getD 17 0
  let up := bit st 2
  let speed : Int := match b.getD 19 0 with | 0 => toSigned 32 (field b 8 4) | 1 => toSigned 32 (field b 12 4) | _ => 0
  let p := toSigned 64 (field b 0 8)
  let still : Bool := st % 4 == 0
  let c := c.takePosition { c.n.posn with pos := p, upstream := up, standstill := still, starting := st % 4 == 1, failover := bit st 3, noSource := bit st 4 }
  c.modJrn fun s => { s with retake := { s.retake with edge := some (p, (e.time : Int), speed) } }

/-- The Cue sheet looks at the replayed position. -/
def cuesLook (c : Chan) : Chan := ((c.allCues dueHorizon).allCues dueFire).allCues dueLimit

/-- One journal entry is read and fed, or replay ends (R366-R368). -/
def retakeEntry (c : Chan) : Chan :=
  if !c.replaying || c.memWaiting then c else
    let r := c.rushes.retake
    let size := c.n.num K.RETAKE_SIZE
    if r.left = some 0 ∨ size < r.read + 24 then c.retakeEnd 3 else
      let (c, e) := c.loadEntry r.off
      if r.left = none ∧ e.seq ≠ r.seq then c.retakeEnd 3
      else if !e.crcOk then c.retakeError 3 r.off e.seq
      else if e.seq ≠ r.seq then c.retakeError 4 r.off r.seq
      else if size < r.read + e.len then c.retakeEnd 3
      else if e.kind = 12 then c.retakeError 5 r.off (field e.body 0 4)
      else
        let next := (r.off + e.len) % size
        let left := r.left.map (· - 1)
        let c := c.modJrn fun s => { s with retake := { s.retake with off := next, seq := wrap 32 (r.seq + 1), left := left, read := r.read + e.len,
                                                                      time := e.time } }
        let c := Chan.edgeMove (if e.kind = 3 then c.dictsByY.feedTime e else c.dictsByY) e.time
        let c := match e.kind with
          | 1 => c.feedEdge e
          | 2 => c.feedLine e
          | 4 =>
            let ahead := c.entriesFrom (size / 24) next (wrap 32 (r.seq + 1)) (size - r.read - e.len)
            c.feedSlate e (match left with | some k => ahead.take k | none => ahead)
          | 5 =>
            let items := jrnItems 1 (e.body.drop 16)
            if items.isEmpty ∨ items.any c.itemBad then
              let i := items.headD { index := field e.body 16 2, sub := e.body.getD 18 0, code := 0, val := [] }
              c.retakeError 8 r.off (i.index * 256 + i.sub)
            else
            (match items.filterMap c.itemKey with
             | (k, v) :: _ =>
               let d : ReDict := { nextY := toSigned 64 (field e.body 0 8), nextTrig := (List.range 4).map fun h => field e.body (8 + 2 * h) 2,
                                   key := k, val := v }
               if keptKeys.contains k then c else c.modJrn fun s => { s with retake := { s.retake with dicts := s.retake.dicts ++ [d] } }
             | [] => c)
          | 6 => c.feedRelease e
          | _ => c
        if c.replaying then c.cuesLook.mapN (·.add 64 K.RETAKE_DONE_ENTRIES 1) else c

/-! ## Leaving (R366, R368) -/

/-- RETAKE_CTRL 2. -/
def retakeAbort (c : Chan) : Chan := if c.replaying then c.retakeEnd 5 else c

/-- RETAKE_CTRL 3: the saved configuration comes back, and the channel behaves as one released from reset that keeps it. It publishes on from
where it stood. -/
def retakeExit (c : Chan) : Chan :=
  if c.n.num K.RETAKE_STATE < 3 then c else
    let saved := c.rushes.retake.saved
    let d := (chanRows.filter fun (_, r) => r.acc = .rw ∨ r.acc = .rs).foldl (fun d (k, _) =>
      if keptKeys.contains k then d else storePut d k (storeGet saved k)) c.n.objs
    let newest := c.rushes.retake.newest
    let c := Chan.stagesFrom (Chan.pipelineReset { c with n := { c.n with objs := d } }) d c.n.gen
    let c := { c with slate := { c.slate with started := false, marks := [], pub := { newest := newest } } }
    let c := c.modJrn fun s => { s with retake := {} }
    (c.mapN (·.putN K.RETAKE_STATE 0)).pinsDrive false

end Chan

end Sys2Proof.Machine
end

