-- ==== Sys2Proof/Machine/PtpFrames.lean ====
section
/-!
DEFINITION. The frames of the network ports as bytes: Ethernet with its FCS, IPv4 and UDP with their checksums, and the PTP messages the
device sends (04 R139, R141). The layouts are those of IEEE 802.3, IPv4, UDP and IEEE 1588, which the spec names (PRESUMED, unsafe: log
entry 1141).
-/

namespace Sys2Proof.Machine

/-- CRC-32 of the Ethernet FCS. -/
def crc32 (bs : List Nat) : Nat := Nat.xor (bs.foldl (crcByte 0xEDB88320) 0xFFFFFFFF) 0xFFFFFFFF

/-- An Ethernet frame: addresses, Ethertype, payload padded to 46 bytes, FCS. -/
def etherFrame (dst src type : Nat) (payload : List Nat) : List Nat :=
  let l := beBytes 6 dst ++ beBytes 6 src ++ beBytes 2 type ++ payload ++ zeros (46 - payload.length)
  l ++ leBytes 4 (crc32 l)

/-- The sum of the 16-bit words of `l`, carries not yet folded. -/
def inetSum : List Nat → Nat
  | [] => 0
  | [a] => 256 * a
  | a :: b :: l => 256 * a + b + inetSum l

/-- The Internet checksum of `l`. -/
def inetCheck (l : List Nat) : Nat :=
  let s := inetSum l
  let s := s % 65536 + s / 65536
  0xFFFF - (s % 65536 + s / 65536)

/-- A UDP datagram in IPv4; `check`: with the UDP checksum, else 0000h. -/
def udpPacket (src dst port : Nat) (check : Bool) (payload : List Nat) : List Nat :=
  let len := 8 + payload.length
  let ip (sum : Nat) : List Nat :=
    [0x45, 0] ++ beBytes 2 (20 + len) ++ [0, 0, 0, 0, 1, 17] ++ beBytes 2 sum ++ beBytes 4 src ++ beBytes 4 dst
  let udp (sum : Nat) : List Nat := beBytes 2 port ++ beBytes 2 port ++ beBytes 2 len ++ beBytes 2 sum ++ payload
  let sum := inetCheck (beBytes 4 src ++ beBytes 4 dst ++ [0, 17] ++ beBytes 2 len ++ udp 0)
  ip (inetCheck (ip 0)) ++ udp (if !check then 0 else if sum = 0 then 0xFFFF else sum)

/-- The timestamp of a PTP message: seconds and nanoseconds. -/
def ptpStamp (t : Stamp) : List Nat :=
  let ns := toBits 64 (t / 65536)
  beBytes 6 (ns / 1000000000) ++ beBytes 4 (ns % 1000000000)

/-- The fraction of a nanosecond that a timestamp leaves out, in 2^-16 ns: the correctionField carries it. -/
def ptpFraction (t : Stamp) : Int := t % 65536

/-- controlField by messageType. -/
def ptpControl (kind : Nat) : Nat :=
  match kind with
  | 0 => 0 | 1 => 1 | 9 => 3 | _ => 5

/-- A PTP message: header and body. -/
def ptpBytes (kind domain flags : Nat) (correction : Int) (source seq : Nat) (interval : Int) (body : List Nat) : List Nat :=
  [kind, 0x12] ++ beBytes 2 (34 + body.length) ++ [domain, 0] ++ beBytes 2 flags ++ beBytes 8 (toBits 64 correction) ++ zeros 4 ++
  beBytes 10 source ++ beBytes 2 seq ++ [ptpControl kind, toBits 8 interval] ++ body

/-- The frame that carries a PTP message: Ethertype 88F7h, or UDP over IPv4 (R139). -/
def ptpFrame (udp check : Bool) (mac ip kind : Nat) (message : List Nat) : List Nat :=
  let peer : Bool := kind == 2 || kind == 3
  if udp then
    etherFrame (if peer then 0x01005E00006B else 0x01005E000181) mac 0x0800
      (udpPacket ip (if peer then 0xE000006B else 0xE0000181) (if kind < 8 then 319 else 320) check message)
  else etherFrame (if peer then 0x0180C200000E else 0x011B19000000) mac 0x88F7 message

end Sys2Proof.Machine
end

