-- ==== Sys2Proof/Machine/TimeEngine.lean ====
section
/-!
DEFINITION. The timebase and PTP engines of chapter 04 over the time block and its unit: the counter, the discipline states, the servo,
the external reference, and the PTP subset. Times in 2^-16 ns.
-/

namespace Sys2Proof.Machine

/-- The time block with the common unit it reports through. -/
abbrev TimeNode := Node × TimeBlock

/-- The increment of one timebase cycle in 2^-48 ns: 2 ns · (1 + f · 10^−12), held to 48 fraction bits (R127). -/
def tbInc (f : Int) : Nat := ((2 ^ 49 : Nat) + f * (2 ^ 49 : Nat) / 1000000000000 : Int).toNat

/-- Device time on by `k` cycles of the timebase clock. -/
def tbRun (k : Nat) (s : TimeNode) : TimeNode :=
  let (n, b) := s
  let acc := (b.tb.acc + k * tbInc (n.sint 32 K.TB_FREQ_ADJ)) % 2 ^ 112
  let d := (acc + 2 ^ 112 - b.tb.acc) % 2 ^ 112
  ({ n with now := acc / 2 ^ 32, mono := n.mono + (b.tb.acc % 2 ^ 32 + d) / 2 ^ 32 },
   { b with tb := { b.tb with acc := acc, before := n.now } })

/-- The seconds of the present HOLDOVER (TB_HOLDOVER_TIME). -/
def tbHoldTime (s : TimeNode) : TimeNode :=
  match s.2.tb.state with
  | .holdover => (s.1.putN K.TB_HOLDOVER_TIME (wrap 32 ((s.1.mono - s.2.tb.holdStart) / nsTicks 1000000000)), s.2)
  | _ => s

/-- Enters a discipline state (R130): sources 65, 66 and 67; HOLDOVER runs at the holdover frequency, and PPS_OUT is low in FREE (R137). Where
LOCKED took no sample there is no holdover frequency, which R130 leaves open: HOLDOVER then runs at 0 (DESIGN CHOICE, unsafe: log entry
2130). -/
def tbEnter (st : TbState) (s : TimeNode) : TimeNode :=
  let (_, b) := s
  if b.tb.state = st then s else
    let (n, b) := tbHoldTime s
    let n := (n.putN K.TB_STATE (match st with | .free => 0 | .acquiring => 1 | .locked => 2 | .holdover => 3)).occur 65
    let b := { b with tb := { b.tb with state := st, good := 0, bad := 0, valid := 0 } }
    match st with
    | .locked => (n.occur 66, b)
    | .holdover =>
      let n := n.occur 67
      (Node.putN (n.putN K.TB_FREQ_ADJ (n.num K.TB_HOLDOVER_FREQ)) K.TB_HOLDOVER_TIME 0,
       { b with tb := { b.tb with holdStart := n.mono, feed := 0 } })
    | .free => (n, { b with tb := { b.tb with ppsOut := false } })
    | .acquiring => (n, b)

/-- The stamps of device time that a PTP engine holds, after a step by `d` ticks. -/
def PtpPort.shift (x : PtpPort) (d : Int) : PtpPort :=
  { x with waiting := x.waiting.map fun (q, t, c) => (q, t + d, c), forward := x.forward.map (· + d),
           request := x.request.map fun (q, t) => (q, t + d), pdelay := x.pdelay.map fun (q, t2, t4, c) => (q, t2, t4 + d, c) }

/-- A step of device time by `d` ticks, as the timebase records it (R128, R132, R134, R137). -/
def tbStep (d : Int) (s : TimeNode) : TimeNode :=
  let (n, b) := s
  let acc := (((b.tb.acc : Int) + d * (2 ^ 32 : Nat)) % (2 ^ 112 : Nat)).toNat
  let now := acc / 2 ^ 32
  let n := { n with now := now, posn := n.posn.step d }
  let n := n.putI 64 K.TB_STEP_LAST (rdivI d 65536)
  let n := Node.inc (n.setFlag K.TB_FLAGS 0) K.TB_STEP_COUNT
  (n, { b with ports := b.ports.map (·.shift d),
               tb := { b.tb with acc := acc, before := now, blank := n.mono + nsTicks 1000000000, ppsOut := false } })

/-- The servo at a sample (R133): `theta` in 2^-16 ns, `tau` in ns. f is held in 0.001 ppb, the integrator in 2^-32 of that. The feedforward
term of R135 is added to the servo's f. -/
def tbServo (theta : Int) (tau : Nat) (s : TimeNode) : TimeNode :=
  let (n, b) := s
  let f := n.sint 32 K.TB_FREQ_ADJ - b.tb.feed
  let term (gain : Int) : Int := gain * theta * 1000000000000 / (max 1 tau : Nat)
  let inew := b.tb.integ + term (n.sint 32 K.TB_KI)
  let want := -(rdivI (term (n.sint 32 K.TB_KP) + inew) (2 ^ 32))
  let lim : Int := n.num K.TB_FREQ_LIMIT * 1000
  let slew : Int := n.num K.TB_SLEW_RATE * tau / 1000000
  let fNew := clampI (f - slew) (f + slew) (clampI (-lim) lim want)
  let n' := n.putI 32 K.TB_FREQ_ADJ (fNew + b.tb.feed)
  if fNew = want then (n', { b with tb := { b.tb with integ := inew } }) else (n'.setFlag K.TB_FLAGS 1, b)

/-- A step is allowed in the present state (R134). -/
def tbStepAllowed (n : Node) (b : Timebase) : Bool :=
  b.state == .acquiring && (match n.num K.TB_STEP_POLICY with | 0 => b.afterFree | 1 => true | _ => false)

/-- Correct the sample: by a step, or by the servo (R133, R134). Returns the step in ticks. -/
def tbCorrect (theta : Int) (tau : Nat) (s : TimeNode) : TimeNode × Option Int :=
  let (n, b) := s
  if theta.natAbs > n.num K.TB_STEP_LIMIT * 65536 ∧ tbStepAllowed n b.tb = true then
    (tbStep (-theta) (n, { b with tb := { b.tb with integ := 0 } }), some (-theta))
  else (tbServo theta tau s, none)

/-- A valid sample of the discipline source (R130, R133, R134); `tau` in ns. Returns the step it made. -/
def tbSample (theta : Int) (tau : Nat) (s : TimeNode) : TimeNode × Option Int :=
  let (n, b) := s
  let n := n.putI 64 K.TB_OFFSET theta
  let b := { b with tb := { b.tb with lastValid := n.mono, prev := some n.mono, samples := b.tb.samples + 1 } }
  let s : TimeNode := (n, b)
  let close : Bool := decide (theta.natAbs ≤ n.num K.TB_LOCK_THRESH * 65536)
  let wide : Bool := decide (4 * n.num K.TB_LOCK_THRESH * 65536 < theta.natAbs)
  let acquire (s : TimeNode) : TimeNode × Option Int :=
    let (s, st) := tbCorrect theta tau s
    let good := if close then s.2.tb.good + 1 else 0
    let s : TimeNode := (s.1, { s.2 with tb := { s.2.tb with good := good } })
    (if 16 ≤ good then tbEnter .locked s else s, st)
  match b.tb.state with
  | .free =>
    let s := tbEnter .acquiring s
    acquire (s.1, { s.2 with tb := { s.2.tb with afterFree := true } })
  | .acquiring => acquire s
  | .locked =>
    let s := tbServo theta tau s
    let hist := (s.1.sint 32 K.TB_FREQ_ADJ :: s.2.tb.hist).take 16
    let n := s.1.putI 32 K.TB_HOLDOVER_FREQ (rdivI (hist.foldl (· + ·) 0) hist.length)
    let bad := if wide then s.2.tb.bad + 1 else 0
    let s : TimeNode := (n, { s.2 with tb := { s.2.tb with hist := hist, bad := bad } })
    if 4 ≤ bad then
      let s := tbEnter .acquiring s
      ((s.1, { s.2 with tb := { s.2.tb with afterFree := false } }), none)
    else (s, none)
  | .holdover =>
    let v := b.tb.valid + 1
    let s : TimeNode := (n, { b with tb := { b.tb with valid := v } })
    if 4 ≤ v then
      let s := tbEnter .acquiring s
      acquire (s.1, { s.2 with tb := { s.2.tb with afterFree := false } })
    else (s, none)

/-- The sample interval in ns: from the previous sample; 1 s for the first (log entry 14). -/
def tbTau (s : TimeNode) : Nat :=
  match s.2.tb.prev with
  | some t => max 1 ((s.1.mono - t) / 65536)
  | none => 1000000000

/-- No valid sample for TB_SOURCE_TIMEOUT (R130). -/
def tbTimeout (s : TimeNode) : TimeNode :=
  let (n, b) := s
  if nsTicks (n.num K.TB_SOURCE_TIMEOUT * 1000000) ≤ n.mono - b.tb.lastValid then
    match b.tb.state with
    | .acquiring => if b.tb.hist.isEmpty then tbEnter .free s else tbEnter .holdover s
    | .locked => tbEnter .holdover s
    | _ => s
  else s

/-- TB_SOURCE written (R130, R131). -/
def tbSourceWrite (v : Nat) (s : TimeNode) : TimeNode :=
  let (n, b) := s
  let n := Node.putN (n.putN K.TB_SOURCE v) K.TB_HOLDOVER_FREQ 0
  let (n, b) := tbEnter .free (n, { b with tb := { b.tb with hist := [], prev := none, feed := 0 } })
  match v with
  | 0 => (n.putN K.TB_FREQ_ADJ 0, b)
  | 3 => (n.putN K.TB_FREQ_ADJ (n.num K.TB_HOST_ADJ), b)
  | _ => (n, b)

/-- A rising edge of PPS_IN (R135). Returns the step it made. -/
def ppsEdge (s : TimeNode) : TimeNode × Option Int :=
  let (n, b) := s
  let stamp : Stamp := (n.now : Int) - n.sint 32 K.PPS_IN_LAT * 65536
  let n := Node.putN (n.putN K.PPS_IN_LAST (stamp64 stamp)) K.REF_STATUS (setBit (n.num K.REF_STATUS) 0)
  let sec := n.num K.EXT_SECONDS
  let n := n.putN K.EXT_SECONDS (wrap 64 (sec + 1))
  let off : Int := stamp % nsTicks 1000000000
  let nearS : Bool := decide (off ≤ nsTicks 1000000) || decide ((nsTicks 1000000000 : Int) - off ≤ nsTicks 1000000)
  if n.num K.TB_SOURCE = 2 ∧ (b.tb.state ≠ .locked ∨ nearS = true) then
    let b := { b with tb := { b.tb with lastPps := some n.mono } }
    tbSample (stamp - (nsTicks (sec * 1000000000) : Nat)) 1000000000 (n, b)
  else ((n, if n.num K.TB_SOURCE = 2 then b else { b with tb := { b.tb with lastPps := some n.mono } }), none)

/-- A 100 ms measurement of REF10M_IN, which is then present: its frequency error in 0.001 ppb becomes the feedforward term in ACQUIRING
and LOCKED (R130, R135, R136, R150). -/
def refMeasure (err : Int) (s : TimeNode) : TimeNode :=
  let (n, b) := s
  if n.flag K.REF10M_ENABLE = false then s else
  let n := n.putN K.REF_STATUS (setBit (n.num K.REF_STATUS) 1)
  let follows : Bool := b.tb.state == .acquiring || b.tb.state == .locked
  if n.num K.TB_SOURCE = 2 ∧ n.bitOf K.TB_FLAGS 3 = false ∧ follows = true then
    (n.putI 32 K.TB_FREQ_ADJ (n.sint 32 K.TB_FREQ_ADJ - b.tb.feed + err), { b with tb := { b.tb with feed := err } })
  else (n, b)

/-- No valid PPS_IN edge within 1.001 s of the previous one (R136). -/
def ppsMissing (s : TimeNode) : TimeNode :=
  let (n, b) := s
  match b.tb.lastPps with
  | some t =>
    if nsTicks 1001000000 ≤ n.mono - t then
      (Node.putN (n.setFlag K.TB_FLAGS 2) K.REF_STATUS (clrBit (n.num K.REF_STATUS) 0), b) else s
  | none => s

/-- REF10M_IN without edges for 1 µs (R136). -/
def refMissing (s : TimeNode) : TimeNode :=
  let (n, b) := s
  if n.flag K.REF10M_ENABLE then (Node.putN (n.setFlag K.TB_FLAGS 3) K.REF_STATUS (clrBit (n.num K.REF_STATUS) 1), b) else s

/-- PPS_OUT may be driven high (R137). -/
def ppsOutOn (s : TimeNode) : Bool :=
  s.1.num K.PPS_OUT_MODE == 1 && s.2.tb.state != .free && decide (s.2.tb.blank ≤ s.1.mono)

/-- Device time, advanced by PPS_OUT_OFFSET, has crossed a whole second within the last time update (R137). -/
def ppsRise (s : TimeNode) : TimeNode :=
  let (n, b) := s
  let second (t : Ticks) : Int := ((t : Int) + n.sint 32 K.PPS_OUT_OFFSET * 65536) / (nsTicks 1000000000 : Nat)
  if ppsOutOn s = true ∧ second b.tb.before < second n.now then
    (n, { b with tb := { b.tb with ppsOut := true, ppsRise := n.mono } })
  else s

/-- PPS_OUT_WIDTH after the rise (R137). -/
def ppsFall (s : TimeNode) : TimeNode :=
  let (n, b) := s
  if b.tb.ppsOut = true ∧ (nsTicks (n.num K.PPS_OUT_WIDTH) ≤ n.mono - b.tb.ppsRise ∨ ppsOutOn s = false) then
    (n, { b with tb := { b.tb with ppsOut := false } })
  else s

/-! ## Network ports and PTP (R138-R142) -/

/-- Object `sub` of network port `p` (R151). -/
def netKey (p sub : Nat) : Nat := 0x211000 + 0x1000 * p + sub

/-- INTERNAL_RX_LAT and INTERNAL_TX_LAT of a link mode, in ps (R140). -/
def netLat (mode : Nat) : Nat × Nat :=
  match mode with
  | 1 => (184000, 96000)
  | 2 => (58200, 41600)
  | 3 => (31000, 22800)
  | 4 => (154500, 80400)
  | _ => (0, 0)

/-- Picoseconds in ticks. -/
def psTicks (ps : Int) : Int := ps * 65536 / 1000

/-- t_rx of a PCS stamp (R140). With RS-FEC it is corrected for its place in the codeword; the spec gives no amount, a free function of the
place (DESIGN CHOICE, safe: log entry 1140). -/
def rxTime (n : Node) (p : Nat) (stamp : Ticks) (place : Nat) : Stamp :=
  (stamp : Int) - psTicks (netLat (n.num (netKey p 1))).1 - psTicks (n.sint 32 (netKey p 0x0A)) -
    (if n.num (netKey p 1) = 4 then Config.fecShift place else 0)

/-- t_tx of a departure now (R140, R141): with UDP_CSUM_MODE 1 over UDP, at the next 4 ns boundary. -/
def txTime (n : Node) (p : Nat) : Stamp :=
  let dep := if n.num (netKey p 4) = 1 ∧ n.num (netKey p 0x0F) = 1 then (n.now + 262143) / 262144 * 262144 else n.now
  (dep : Int) + psTicks (netLat (n.num (netKey p 1))).2 + psTicks (n.sint 32 (netKey p 0x0B))

/-- delayAsymmetry in ticks. -/
def asymmetry (n : Node) (p : Nat) : Int := psTicks (n.sint 32 (netKey p 0x0C))

/-- PTP runs on the port: enabled, and on an ordinary clock the lowest-numbered enabled port (R139). -/
def ptpOn (n : Node) (p : Nat) : Bool :=
  n.flag (netKey p 3) && (p == 0 || n.num K.PTP_CLOCK_TYPE == 1 || !n.flag (netKey 0 3))

/-- A port carries PTP: its link is up, and over IPv4 it has an address (R96, R139, 06 R210). -/
def ptpCarries (n : Node) (p : Nat) : Bool :=
  ptpOn n p && n.num (netKey p 2) == 1 && (n.num (netKey p 4) == 0 || n.elem K.NET_IPV4_ADDR p != 0)

/-- The identity of port `p`: the clock's with the port number (R142). -/
def ptpPortId (n : Node) (p : Nat) : Nat := n.num K.PTP_CLOCK_ID * 65536 + p + 1

/-- Sends a PTP message out of a port. -/
def ptpEmit (n : Node) (p kind flags : Nat) (correction : Int) (seq : Nat) (interval : Int) (body : List Nat) : Node :=
  n.emit (.ptp p (ptpFrame (n.num (netKey p 4) == 1) (n.num (netKey p 0x0F) == 1) (n.elem K.NET_MAC p) (n.elem K.NET_IPV4_ADDR p) kind
    (ptpBytes kind (n.num K.PTP_DOMAIN) flags correction (ptpPortId n p) seq interval body)))

/-- The announced clockClass (R142). -/
def clockClass (s : TimeNode) : Nat :=
  if s.1.num K.TB_SOURCE = 2 then
    match s.2.tb.state with
    | .locked => 6 | .acquiring => 6 | .holdover => 7 | .free => 248
  else 248

/-- The device's own rank. Accuracy FEh and variance FFFFh are the standard's "unknown" (PRESUMED, log entry 15). -/
def ownRank (s : TimeNode) : PtpRank :=
  { priority1 := s.1.num K.PTP_PRIORITY1, clockClass := clockClass s, accuracy := 0xFE, variance := 0xFFFF,
    priority2 := s.1.num K.PTP_PRIORITY2, identity := s.1.num K.PTP_CLOCK_ID, steps := 0 }

/-- The order of the default best master clock algorithm: the first is better (R139). -/
def rankBetter (a b : PtpRank) : Bool :=
  if a.identity = b.identity then a.steps < b.steps
  else if a.priority1 ≠ b.priority1 then a.priority1 < b.priority1
  else if a.clockClass ≠ b.clockClass then a.clockClass < b.clockClass
  else if a.accuracy ≠ b.accuracy then a.accuracy < b.accuracy
  else if a.variance ≠ b.variance then a.variance < b.variance
  else if a.priority2 ≠ b.priority2 then a.priority2 < b.priority2
  else a.identity < b.identity

namespace TimeBlock
/-- The PTP engine of port `p`. -/
def port (b : TimeBlock) (p : Nat) : PtpPort := b.ports.getD p {}
/-- Give port `p` its PTP engine. -/
def putPort (b : TimeBlock) (p : Nat) (x : PtpPort) : TimeBlock := { b with ports := listPut b.ports p x }
end TimeBlock

/-- 2^log seconds in ticks, for a log interval as the standard counts them. -/
def logTicks (log : Int) : Nat := if 0 ≤ log then nsTicks (1000000000 * 2 ^ log.toNat) else nsTicks (1000000000 / 2 ^ (-log).toNat)

/-- A foreign master is qualified: two Announce messages within the last four intervals (the standard's threshold and window). -/
def Foreign.qualified (f : Foreign) (interval : Nat) (now : Ticks) : Bool :=
  match f.prev with
  | some t => decide (now - t ≤ 4 * interval)
  | none => false

/-- One foreign master is better than another: by rank, and for one grandmaster as many steps away by the lower identity of the sender
(R139, the default algorithm). -/
def foreignBetter (f g : Foreign) : Bool :=
  if f.rank.identity = g.rank.identity ∧ f.rank.steps = g.rank.steps then decide (f.sender < g.sender) else rankBetter f.rank g.rank

/-- The best qualified foreign master. -/
def bestForeign (interval : Nat) (now : Ticks) (l : List Foreign) : Option Foreign :=
  l.foldl (fun b f =>
    if f.qualified interval now then
      match b with
      | none => some f
      | some g => if foreignBetter f g then some f else b
    else b) none

/-- Takes a parent (R139): a new clockIdentity is a master change, which takes LOCKED to HOLDOVER (R130). One lost by the announce timeout
and chosen again counts as new, which R139 leaves open (DESIGN CHOICE, unsafe: log entry 2139). -/
def ptpParent (p : Nat) (g : Foreign) (s : TimeNode) : TimeNode :=
  let (n, b) := s
  let x := b.port p
  let n := Node.putI (n.putN (netKey p 0x10) 9) 16 K.PTP_UTC_OFFSET_RX g.utc
  let moved := b.putPort p { x with parent := some g.sender, lastAnnounce := n.mono, forward := none, waiting := none }
  if x.parent = some g.sender then (n, b)
  else if x.parent.map (· / 65536) = some (g.sender / 65536) then (n, moved)
  else
    let n := Node.occur (n.putN (netKey p 0x11) (g.sender / 65536)) (75 + p)
    let s : TimeNode := (n, moved)
    if n.num K.TB_SOURCE = 1 ∧ b.tb.state = .locked then tbEnter .holdover s else s

/-- The port takes a portState without a parent. -/
def ptpNoParent (p st : Nat) (s : TimeNode) : TimeNode := (s.1.putN (netKey p 0x10) st, s.2.putPort p { s.2.port p with parent := none })

/-- The best qualified foreign master of a port that PTP runs on. -/
def ptpBest (p : Nat) (s : TimeNode) : Option Foreign :=
  if ptpOn s.1 p then bestForeign (logTicks (s.1.sint 16 (netKey p 7))) s.1.mono (s.2.port p).foreign else none

/-- The best master of the clock and its port; the lower port for one heard alike on both. -/
def ptpBestOf (s : TimeNode) : Option (Nat × Foreign) :=
  match ptpBest 0 s, ptpBest 1 s with
  | some f, some g => if foreignBetter g f then some (1, g) else some (0, f)
  | some f, none => some (0, f)
  | none, some g => some (1, g)
  | none, none => none

/-- The state decision of the default best master clock algorithm for a port (R139): SLAVE on the port of the best master, MASTER, PASSIVE
where a better path or a better clock serves it, LISTENING in place of those with PTP_SLAVE_ONLY. -/
def ptpDecidePort (p : Nat) (s : TimeNode) : TimeNode :=
  let own := ownRank s
  let slaveOnly := s.1.flag K.PTP_SLAVE_ONLY
  if ptpOn s.1 p = false then s
  else if own.clockClass < 128 ∧ slaveOnly = false then
    match ptpBest p s with
    | some f => if rankBetter own f.rank then ptpNoParent p 6 s else ptpNoParent p 7 s
    | none => ptpNoParent p 6 s
  else match ptpBestOf s with
    | none => if (s.2.port p).parent.isNone && !slaveOnly && s.1.num (netKey p 0x10) != 4 then ptpNoParent p 6 s else s
    | some (q, g) =>
      if slaveOnly = false ∧ rankBetter own g.rank = true then ptpNoParent p 6 s
      else if q = p then ptpParent p g s
      else if slaveOnly then ptpNoParent p 4 s
      else match ptpBest p s with
        | some f => ptpNoParent p (if f.rank.identity = g.rank.identity then 7 else 6) s
        | none => ptpNoParent p 6 s

/-- The state decisions of the clock: those of both ports. -/
def ptpDecide (s : TimeNode) : TimeNode := ptpDecidePort 1 (ptpDecidePort 0 s)

/-- An Announce of a foreign master; the default algorithm takes none of the clock's own and none of 255 steps or more (R139). -/
def ptpAnnounce (p sender : Nat) (rank : PtpRank) (utc : Int) (s : TimeNode) : TimeNode :=
  let (n, b) := s
  if sender / 65536 = n.num K.PTP_CLOCK_ID ∨ rank.identity = n.num K.PTP_CLOCK_ID ∨ 255 ≤ rank.steps then s else
  let x := b.port p
  let old := x.foreign.find? (fun f => f.sender == sender)
  let f : Foreign := { rank := rank, utc := utc, sender := sender, last := n.mono, prev := old.map (·.last) }
  let x := { x with foreign := f :: x.foreign.filter (fun g => g.sender != sender),
                    lastAnnounce := if x.parent = some sender then n.mono else x.lastAnnounce }
  ptpDecide (n, b.putPort p x)

/-- θ of a completed master-to-slave measurement, taken as a sample where PTP disciplines (R130). -/
def ptpOffset (p : Nat) (forward : Int) (s : TimeNode) : TimeNode × Option Int :=
  let (n, b) := s
  let b := b.putPort p { b.port p with forward := some forward }
  if n.num K.TB_SOURCE = 1 then
    tbSample (forward - n.sint 64 (netKey p 0x12)) (tbTau (n, b)) (n, b)
  else ((n, b), none)

/-- A received PTP message (R139-R141). Returns the step it made. -/
def ptpReceive (p : Nat) (m : PtpMsg) (s : TimeNode) : TimeNode × Option Int :=
  let (n, b) := s
  if ptpCarries n p = false then (s, none) else
  if m.body = .unsupported ∨ 127 < m.domain then ((n.inc (netKey p 0x15), b), none) else
  if m.domain ≠ n.num K.PTP_DOMAIN then (s, none) else
    let n := n.inc (netKey p 0x14)
    let s : TimeNode := (n, b)
    let x := b.port p
    let t := rxTime n p m.stamp m.place
    let fromParent : Bool := x.parent == some m.sender
    match m.body with
    | .announce r utc => (ptpAnnounce p m.sender r utc s, none)
    | .sync two origin =>
      if !fromParent then (s, none)
      else if two then ((n, b.putPort p { x with waiting := some (m.seq, t, m.correction) }), none)
      else ptpOffset p (t - origin - m.correction - asymmetry n p) s
    | .followUp origin =>
      match fromParent, x.waiting with
      | true, some (q, t2, c) =>
        if q = m.seq then
          ptpOffset p (t2 - origin - c - m.correction - asymmetry n p) (n, b.putPort p { x with waiting := none })
        else (s, none)
      | _, _ => (s, none)
    | .delayReq =>
      if n.num (netKey p 0x10) = 6 ∧ n.num (netKey p 5) = 0 then 
        ((ptpEmit n p 9 0 (m.correction - ptpFraction t) m.seq (n.sint 16 (netKey p 8)) (ptpStamp t ++ beBytes 10 m.sender), b), none)
      else (s, none)
    | .delayResp t4 by_ =>
      match x.request, x.forward with
      | some (q, t3), some fwd =>
        if q = m.seq ∧ by_ = ptpPortId n p ∧ n.num (netKey p 5) = 0 ∧ fromParent = true then
          let back := (t4 : Int) - t3 - m.correction + asymmetry n p
          ((n.putI 64 (netKey p 0x12) ((fwd + back) / 2), b.putPort p { x with request := none }), none)
        else (s, none)
      | _, _ => (s, none)
    | .pdelayReq =>
      if n.num (netKey p 5) = 1 then
        ((ptpEmit n p 3 0 (m.correction + txTime n p - t) m.seq 127 (zeros 10 ++ beBytes 10 m.sender), b), none)
      else (s, none)
    | .pdelayResp two t2 by_ =>
      match x.request with
      | some (q, t1) =>
        if q = m.seq ∧ by_ = ptpPortId n p ∧ n.num (netKey p 5) = 1 then
          if two then ((n, b.putPort p { x with pdelay := some (q, t2, t, m.correction) }), none)
          else ((n.putI 64 (netKey p 0x12) ((t - t1 - m.correction) / 2), b.putPort p { x with request := none }), none)
        else (s, none)
      | none => (s, none)
    | .pdelayRespFollowUp t3 by_ =>
      match x.request, x.pdelay with
      | some (q, t1), some (r, t2, t4, c) =>
        if q = m.seq ∧ r = m.seq ∧ by_ = ptpPortId n p then
          ((n.putI 64 (netKey p 0x12) (((t4 - t1) - ((t3 : Int) - t2) - c - m.correction) / 2),
            b.putPort p { x with request := none, pdelay := none }), none)
        else (s, none)
      | _, _ => (s, none)
    | .unsupported => (s, none)

/-- An announce receipt timeout (R139) of a port in LISTENING, PASSIVE or SLAVE: a slave loses its parent. -/
def ptpAnnTimeout (p : Nat) (s : TimeNode) : TimeNode :=
  let (n, b) := s
  let x := b.port p
  let st := n.num (netKey p 0x10)
  if ptpOn n p = true ∧ (st = 4 ∨ st = 7 ∨ st = 9) ∧ n.num (netKey p 9) * logTicks (n.sint 16 (netKey p 7)) ≤ n.mono - x.lastAnnounce then
    let n := n.setFlag K.TB_FLAGS (4 + p)
    let x := { x with foreign := x.foreign.filter (fun f => some f.sender != x.parent), lastAnnounce := n.mono }
    ptpDecide (ptpNoParent p (if n.flag K.PTP_SLAVE_ONLY then 4 else 6) (n, b.putPort p x))
  else s

/-- As master, one-step Sync with originTimestamp t_tx (R141). -/
def ptpSync (p : Nat) (s : TimeNode) : TimeNode :=
  let (n, b) := s
  let x := b.port p
  let t := txTime n p
  if ptpCarries n p = true ∧ n.num (netKey p 0x10) = 6 then
    (ptpEmit n p 0 0 (ptpFraction t) x.syncSeq (n.sint 16 (netKey p 6)) (ptpStamp t), b.putPort p { x with syncSeq := wrap 16 (x.syncSeq + 1) })
  else s

/-- What a master port announces: the device's own rank and PTP_UTC_OFFSET, or on a boundary clock with a parent the grandmaster's, one step
on (R142, R151; DEDUCED from the standard, unsafe: log entry 1142). -/
def ptpAnnounced (p : Nat) (s : TimeNode) : PtpRank × Int :=
  let q := s.2.port (1 - p)
  match q.parent with
  | none => (ownRank s, s.1.sint 16 K.PTP_UTC_OFFSET)
  | some id =>
    match q.foreign.find? (fun f => f.sender == id) with
    | none => (ownRank s, s.1.sint 16 K.PTP_UTC_OFFSET)
    | some f => ({ f.rank with steps := f.rank.steps + 1 }, f.utc)

/-- As master, an Announce (R139, R142). The flags of its time scale and its timeSource, which the spec does not give, are free (DESIGN
CHOICE, safe: log entry 1142). -/
def ptpAnnounceSend (p : Nat) (s : TimeNode) : TimeNode :=
  let s := ptpDecide s
  let (n, b) := s
  let x := b.port p
  let (r, utc) := ptpAnnounced p s
  if ptpCarries n p = true ∧ n.num (netKey p 0x10) = 6 then
    let (flags, n) := n.takeFree 8
    let (source, n) := n.takeFree 8
    (ptpEmit n p 0x0B flags 0 x.annSeq (n.sint 16 (netKey p 7))
      (zeros 10 ++ beBytes 2 (toBits 16 utc) ++ [0, r.priority1, r.clockClass, r.accuracy] ++ beBytes 2 r.variance ++ [r.priority2] ++
       beBytes 8 r.identity ++ beBytes 2 r.steps ++ [source]), b.putPort p { x with annSeq := wrap 16 (x.annSeq + 1) })
  else s

/-- A Delay_Req of a slave, or a Pdelay_Req; the departure is kept (R141). Its correctionField is 0: ASYMMETRY enters on receipt, inside the
device, where R140 leaves open which of the two carries it (DESIGN CHOICE, unsafe: log entry 2140). -/
def ptpRequest (p : Nat) (s : TimeNode) : TimeNode :=
  let (n, b) := s
  let x := b.port p
  let p2p : Bool := n.num (netKey p 5) == 1
  if ptpCarries n p = true ∧ (p2p = true ∨ n.num (netKey p 0x10) = 9) then
    (ptpEmit n p (if p2p then 2 else 1) 0 0 x.reqSeq 127 (zeros (if p2p then 20 else 10)),
     b.putPort p { x with reqSeq := wrap 16 (x.reqSeq + 1), request := some (x.reqSeq, txTime n p), pdelay := none })
  else s

/-- A change of link state (R138). -/
def netLink (p : Nat) (up : Bool) (s : TimeNode) : TimeNode :=
  let (n, b) := s
  if n.num (netKey p 2) = b2n up then s else (Node.occur (n.putN (netKey p 2) (b2n up)) (73 + p), b)

/-- A receive overrun (R25, R138). -/
def netOverrun (p : Nat) (s : TimeNode) : TimeNode := (Node.inc (s.1.setFlag K.TB_FLAGS (6 + p)) (netKey p 0x13), s.2)

end Sys2Proof.Machine
end

