-- ==== Sys2Proof/Machine/Whole.lean ====
section
/-!
DEFINITION. The block as a whole: how a command acts on the common block or a channel, and what follows every such act: the recorder takes
its events, wake causes start wakes, a channel's reports reach the common block, records that found an intake full are accounted for.
-/

namespace Sys2Proof.Machine

namespace State

/-- Channel `c`. -/
def chan (s : State) (c : Fin 6) : Chan := s.chans[c]
/-- Give channel `c` its state. -/
def putChan (s : State) (c : Fin 6) (x : Chan) : State := { s with chans := s.chans.set c x }
/-- Change the unit of the common block. -/
def mapN (s : State) (f : Node → Node) : State := { s with common := { s.common with n := f s.common.n } }

/-- Change the logbook with its unit. -/
def onLogs (s : State) (f : LogNode → LogNode) : State :=
  let r := f (s.common.n, s.common.logs)
  { s with common := { s.common with n := r.1, logs := r.2 } }

/-- A record that found its intake full takes its number and is refused on every path (R486). -/
def refuse1 (s : State) (r : LogRec) : State :=
  let (seq, n) := logNumber s.common.n r true
  State.onLogs { s with common := { s.common with n := n } } (commonPaths r seq true)

/-- The common block after an act: refused records are accounted for, UDP_DOWN follows its condition. -/
def tidy (s : State) : State :=
  let shed := s.common.n.shed
  let s := s.mapN fun n => { n with shed := [], fresh := [] }
  State.onLogs (shed.foldl refuse1 s) udpWatch

/-- An act of the common block on its unit. -/
def onN (s : State) (f : Node → Node) : State := State.tidy (s.mapN f)

/-- An act on the ring part with its unit and encoder block. -/
def onBw (s : State) (f : BwNode → BwNode) : State :=
  let r := f { n := s.common.n, b := s.common.bw, e := s.common.enc }
  State.tidy { s with common := { s.common with n := r.n, bw := r.b, enc := r.e } }

/-- A report of channel `c` reaches the common block (R539, R540, R346). -/
def report (c : Fin 6) (s : State) (x : Signal) : State :=
  match x with
  | .source k => s.onN (·.occur k)
  | .pwrFlag b => s.onN (·.setFlag K.PWR_FLAGS b)
  | .window => s.onN fun n => (n.addE 32 K.BAR4_ERRS c.val 1).setFlag K.HP_FLAGS 6
  | .relay kind out cue y => s.onBw (·.relaySend kind c.val out cue y)

/-- The path of channel `c`'s own ring is given. -/
def putChanLog (s : State) (c : Fin 6) (p : LogPath) : State :=
  { s with common := { s.common with chanLogs := listPut s.common.chanLogs c.val p } }

/-- The records channel `c` has shed are accounted for (R486). -/
def shedChan (c : Fin 6) (s : State) : State :=
  let shed := (s.chan c).n.shed
  let s := s.putChan c ((s.chan c).mapN fun n => { n with shed := [] })
  shed.foldl (fun s r =>
    let seq := s.common.n.num K.LOG_SEQ
    let s := s.refuse1 r
    let (n, p) := chanPath r seq true (s.chan c).n (s.common.chanLogs.getD c.val {})
    (s.putChan c { s.chan c with n := n }).putChanLog c p) s

/-- The records in the intake of channel `c` are discarded (R486). -/
def shedIntake (c : Fin 6) (s : State) : State :=
  shedChan c (s.putChan c ((s.chan c).mapN fun n => { n with shed := n.shed ++ n.intake, intake := [] }))

/-- Start-up training is over in every channel: STARTUP_STEP 8, and 9 where a Slate has committed (20 R533). -/
def startStep (s : State) : State :=
  let settled := (List.finRange 6).all fun c => (s.chan c).power.started || (s.chan c).n.num K.MEM_STATE == 7 || (s.chan c).n.num K.MEM_STATE == 0
  if settled ∧ s.common.n.num K.STARTUP_STEP < 8 then s.mapN fun n => n.putN K.STARTUP_STEP (if n.gen = 0 then 8 else 9) else s

/-- What follows an act of channel `c`: its new state is `x`. A channel that enters Run after its start-up training starts its lanes
(20 R533 step 8). -/
def settle (s : State) (c : Fin 6) (x : Chan) : State :=
  let x := if x.power.started && !(s.chan c).power.started then (List.range 8).foldl (fun x f => x.linkStart f) x else x
  let x := x.takeNotes.takeCause
  let x := if x.power.sleepy && !x.inReset then x else x.mapN (·.bar2Run)
  let sig := x.power.sig
  let s := s.putChan c { x with power := { x.power with sig := [] } }
  State.startStep (State.tidy (shedChan c (sig.foldl (report c) s)))

/-- An act of channel `c`. -/
def onChan (s : State) (c : Fin 6) (f : Chan → Chan) : State := s.settle c (f (s.chan c))

/-- An act of a channel that is not held in reset. -/
def onUp (s : State) (c : Fin 6) (f : Chan → Chan) : State :=
  if (s.chan c).inReset then s else s.onChan c f

/-- An act of a channel's inputs: a channel in Retake is detached from them (R368). -/
def onLive (s : State) (c : Fin 6) (f : Chan → Chan) : State :=
  if (s.chan c).n.num K.RETAKE_STATE ≠ 0 then s else s.onUp c f

/-- An act of a channel's stages past its input block: they have their clock only in Run (R521). -/
def onClocked (s : State) (c : Fin 6) (f : Chan → Chan) : State := if (s.chan c).gated then s else s.onUp c f

/-- An act of every channel in turn. -/
def onAll (s : State) (f : Chan → Chan) : State := (List.finRange 6).foldl (fun s c => s.onChan c f) s

/-- WP_STATE is STANDSTILL (R41). -/
def still (s : State) : Bool := wpMotion s.common.n s.common.enc == .standstill

/-- The ring part, as the functions of chapter 21 see it. -/
def ring (s : State) : BwNode := { n := s.common.n, b := s.common.bw, e := s.common.enc }

/-- An EDGE entry in the journal of every channel (R357): its kind, the position after the event, the fine and
the coarse speed, the motion state, the status bits above it, and WP_ACTIVE. -/
def edgeEntry (s : State) (kind : Nat) (pos : Pos) (fine coarse : Int) (motion high active : Nat) : State :=
  let n := s.common.n
  let x : Note := .edge kind n.ns pos fine coarse (motion + 4 * high) active (n.num K.EXTRAP_SOURCE)
  s.onAll fun c => if c.inReset then c else c.note x

/-- The code of a motion state in WP_STATE (R119). -/
def motionCode : Motion → Nat
  | .standstill => 0
  | .starting => 1
  | .moving => 2

/-- An EDGE entry of a device that reports its own encoders. -/
def ownEntry (s : State) (kind : Nat) : State :=
  let n := s.common.n
  let e := s.common.enc
  let (coarse, fine) := match wpActive n e with
    | some i => (encCoarse n (e.enc i) i, encFine n (e.enc i) i)
    | none => (0, 0)
  s.edgeEntry kind (accPos (wpAt n e n.now)) fine coarse (motionCode (wpMotion n e))
    (b2n e.wp.upstream + 2 * b2n (e.wp.src != .onPrimary) + 4 * b2n (e.wp.src == .noSource)) ((wpActive n e).getD 0xFF)

/-- The position frame a member follows (R554). -/
def ringFrame (s : State) : Option BwPos := if s.ring.member then s.common.bw.pos else none

/-- WP_STATE (R110, R116, R554). -/
def wpState (s : State) : Nat :=
  if s.ring.member then (match s.common.bw.pos with | some x => x.status % 4 | none => 0)
  else motionCode (wpMotion s.common.n s.common.enc)

/-- The reported direction: upstream. -/
def wpUpstream (s : State) : Bool :=
  match s.ringFrame with
  | some x => bit x.status 2
  | none => s.common.enc.wp.upstream

/-- The web position in this cycle (R113, R114, R554). -/
def webPos (s : State) : Pos :=
  accPos (if s.ring.member then s.ring.reportPos.getD s.common.enc.wp.last else wpAt s.common.n s.common.enc s.common.n.now)

/-- The web position `cycle` ENCCLK cycles after the last time update. -/
def webPosIn (s : State) (cycle : Nat) : Pos := webPos { s with common := { s.common with n := s.common.n.later cycle } }

/-- Every channel has a wake cause: WP_STATE enters STARTING (R527). -/
def wakeAll (s : State) : State := s.onAll fun c => if c.inReset then c else c.wakeCause

/-- What follows where WP_STATE was `was`: an entry to STANDSTILL raises source 52 and restarts the automatic time period (R41, R110), the
one from there to STARTING raises source 53, any to STARTING wakes every channel (R527). -/
def motionChange (was : Nat) (s : State) : State :=
  let m := s.wpState
  if m = was then s
  else if m = 0 then
    State.onN { s with common := { s.common with slate := { s.common.slate with origin := s.common.n.now } } } (·.occur 52)
  else if m = 1 then (if was = 0 then s.onN (·.occur 53) else s).wakeAll
  else s

/-- An act on the ring part, and what a change of the motion state brings. -/
def onRing (s : State) (f : BwNode → BwNode) : State := (s.onBw f).motionChange s.wpState

/-- An act on the encoder block with its unit, and what follows it beside the state `s0` before it: a change of the motion state, and
outside a ring the journal entries that `f` names by kind, with those of a source switch and of a change of the motion state after them
(R110, R357). -/
def onEncFrom (s0 s : State) (f : EncNode → EncNode × List Nat) : State :=
  let was := wpMotion s0.common.n s0.common.enc
  let code := s0.wpState
  let source := (s0.common.enc.wp.src, wpActive s0.common.n s0.common.enc)
  let (r, kinds) := f (s.common.n, s.common.enc)
  let s : State := State.tidy { s with common := { s.common with n := r.1, enc := r.2 } }
  let kinds := kinds ++ (if (r.2.wp.src, wpActive r.1 r.2) = source then [] else [2]) ++ (if wpMotion r.1 r.2 = was then [] else [3])
  let s := if s.ring.member then s else kinds.foldl ownEntry s
  s.motionChange code

/-- The same where nothing has changed before the act. -/
def onEncWith (s : State) (f : EncNode → EncNode × List Nat) : State := s.onEncFrom s f

/-- An act on the encoder block with its unit. -/
def onEnc (s : State) (f : EncNode → EncNode) : State := s.onEncWith fun x => (f x, [])

/-- An act on calibration with its unit. -/
def onCal (s : State) (f : CalNode → CalNode) : State :=
  let r := f (s.common.n, s.common.cal)
  State.tidy { s with common := { s.common with n := r.1, cal := r.2 } }

/-- An act on the monitors with their unit. -/
def onMon (s : State) (f : MonNode → MonNode) : State :=
  let r := f (s.common.n, s.common.mon)
  State.tidy { s with common := { s.common with n := r.1, mon := r.2 } }

/-- An act on the logbook. -/
def onLog (s : State) (f : LogNode → LogNode) : State := State.tidy (s.onLogs f)

end State

end Sys2Proof.Machine
end

