-- ==== Sys2Proof/Machine/SlateSeq.lean ====
section
/-!
DEFINITION. The Slate sequencer of the common block (01 R34-R43, R53, R591; 21 R555, R556): naming, automatic Slates, the commit, and the
timed-action table that starts time-named Slates (04 R143-R149).
-/

namespace Sys2Proof.Machine

namespace State

/-- Change the sequencer. -/
def modSlate (s : State) (f : Sequencer → Sequencer) : State := { s with common := { s.common with slate := f s.common.slate } }

/-- Stages that folded a set, over all channels (R45). -/
def folds (s : State) : Nat := (List.finRange 6).foldl (fun a c => a + (s.chan c).n.num K.SLATE_FOLDS) 0

/-- A Slate commits (R42): the common block's staged entries and every channel's. `lateness` is in nm or ns. -/
def commitNow (s : State) (gen : Nat) (pos : Pos) (lateness : Int) (late timed : Bool) : State :=
  let before := s
  let old := s.common.n
  let items : Store := (s.common.slate.staged.filter (!·.isOpen)).map fun x => (x.key, x.val)
  let n := { old with objs := items.foldl (fun d (k, v) => storePut d k v) old.objs, gen := gen }
  let n := ((n.putN K.SLATE_GEN gen).putN K.SLATE_POS_LAST (pos64 pos)).putN K.SLATE_TIME_LAST (time64 n.now)
  let n := n.putI 64 K.SLATE_LATENESS_LAST lateness
  let n := if late then n.inc K.SLATE_LATE_COUNT else n
  let n := if n.num K.STARTUP_STEP = 8 then n.putN K.STARTUP_STEP 9 else n
  let n := if old.num K.LRING_ADDR = n.num K.LRING_ADDR ∧ old.num K.LRING_SIZE = n.num K.LRING_SIZE then n
    else (n.putN K.LRING_WR 0).putN K.LRING_RD 0
  let s : State := { s with common := { s.common with n := n } }
  let s := s.modSlate fun q => { q with staged := q.staged.filter (·.isOpen), origin := n.now, committed := true }
  let s := onEncFrom before s fun x => (encCommit old x, [])
  let at_ := s.webPos
  let folded := s.folds
  let sel (s : State) (c : Fin 6) : Nat := (s.chan c).n.num K.CORR_BANK_SEL
  let was := (List.finRange 6).map fun c => (c, sel s c)
  let s := s.onAll fun c => c.commit gen pos lateness late timed at_
  let s := was.foldl (fun s (c, b) => if sel s c = b then s else s.mapN (putPrepared c.val false)) s
  let more := wrap 32 (s.folds + 2 ^ 35 - folded)
  let s := s.onN (·.add 32 K.SLATE_HELD_COUNT more)
  if more ≠ 0 ∧ s.ring.member = true then s.onN (·.setFlag K.BW_FLAGS 5) else s

/-- The next generation: after the last one decided (R42, R555). -/
def nextGen (s : State) : Nat :=
  wrap 32 ((match s.common.bw.commits.getLast? with | some x => x.gen | none => s.common.n.gen) + 1)

/-- The sequencer decides a commit: at once, or on the root of a ring BW_EQ_DELAY after its SLATE frame (R42, R555). -/
def decideCommit (s : State) (pos : Pos) (lateness : Int) (late timed : Bool) : State :=
  if s.ring.inRing && s.ring.isRoot then s.onBw (·.slateSend s.nextGen pos late timed lateness)
  else s.commitNow s.nextGen pos lateness late timed

/-- The broadcast position. -/
def pos (s : State) : Pos := s.common.n.posn.pos

/-- The naming checks that fail, by channel (R53, R591). -/
def namingOf (s : State) : List (Fin 6 × List NamingFail) :=
  (List.finRange 6).map fun c => (c, namingFails (s.chan c).n.objs ((s.chan c).wouldBe []))

/-- The error of the first check that fails, in the order of the channels (DEDUCED, unsafe: log entry 1591). -/
def firstFail (l : List (Fin 6 × List NamingFail)) : Option Status := (l.flatMap (·.2)).head?.map (·.status)

/-- What failing naming checks count in the channels they belong to (R53, R265). -/
def countFails (s : State) (l : List (Fin 6 × List NamingFail)) (arg : Fin 6 → Nat) : State :=
  l.foldl (fun s p => if p.2.isEmpty then s else s.onChan p.1 fun c => c.countRejects p.2 (arg p.1)) s

/-- A naming is turned away: no Slate stays pending (R38). -/
def rejectNaming (s : State) : State := s.modSlate fun q => { q with pending := .none }

/-- The naming checks run on the staged configuration: `none` where they pass (R591). -/
def nameCheck (s : State) : Option (Status × State) :=
  let l := s.namingOf
  match firstFail l with
  | some st => some (st, (s.countFails l fun _ => 0).rejectNaming)
  | none => none

/-- A position-named Slate (R38, R40): the status, whether it committed at once, the state. -/
def namePos (s : State) (p : Pos) : Status × Bool × State :=
  if s.ring.bound then (.access, false, s.rejectNaming) else
    match s.nameCheck with
    | some (st, s) => (st, false, s)
    | none =>
      if p ≤ s.pos then
        (.ok, true, (s.modSlate fun q => { q with pending := .none }).decideCommit (s.pos + 1) (s.pos - p) true false)
      else (.ok, false, s.modSlate fun q => { q with pending := .pos p })

/-- A time lies more than 2^47 − 1 ns from the present over all 64 bits (R80, R144). -/
def farTime (s : State) (t : Ticks) : Bool := decide (2 ^ 47 - 1 < ((t / 65536 : Nat) - (s.common.n.ns : Nat) : Int).natAbs)

/-- A time-named Slate (R38, R40, R80). -/
def nameTime (s : State) (t : Ticks) : Status × Bool × State :=
  if s.ring.bound then (.access, false, s.rejectNaming)
  else if s.farTime t then (.range, false, s.rejectNaming)
  else
    match s.nameCheck with
    | some (st, s) => (st, false, s)
    | none =>
      if t / 65536 ≤ s.common.n.ns then
        (.ok, true, (s.modSlate fun q => { q with pending := .none }).decideCommit (s.pos + 1)
          ((s.common.n.ns : Int) - (t / 65536 : Nat)) true true)
      else (.ok, false, s.modSlate fun q => { q with pending := .time t })

/-- The pending Slate is cancelled (R80). -/
def cancelSlate (s : State) : Status × State := if s.ring.bound then (.access, s) else (.ok, s.modSlate fun q => { q with pending := .none })

/-- Every staged and open entry of the device is discarded (R36, R71). -/
def discard (s : State) : State :=
  let s := s.modSlate fun q => { q with staged := [] }
  { s with chans := s.chans.map fun (c : Chan) => { c with slate := { c.slate with staged := [] } } }

/-! ## Automatic Slates (R41) -/

/-- The largest multiple of a period at or below a position. -/
def multipleBelow (period : Nat) (p : Pos) : Pos := p / (period : Int) * (period : Int)

/-- The automatic position-named Slate that a position update calls for. -/
def autoPos (s : State) : Option Pos :=
  let q := s.common.n.num K.AUTO_PERIOD_POS
  let m := multipleBelow q s.pos
  if q ≠ 0 ∧ s.common.slate.multiple < m then some m else none

/-- The due time of the next automatic time Slate. -/
def autoTime (s : State) : Option Ticks :=
  let q := s.common.n.num K.AUTO_PERIOD_TIME
  if q ≠ 0 ∧ s.still = true ∧ s.ring.bound = false then some (s.common.slate.origin + nsTicks q) else none

/-- The commits of a position update (R39, R41): the pending Slate whose position or time is reached and an automatic Slate make one. -/
def slatePosition (s : State) : State :=
  if s.ring.bound then s else
    let auto := s.autoPos
    let s := match auto with | some m => s.modSlate fun q => { q with multiple := m } | none => s
    match s.common.slate.pending, auto with
    | .pos p, _ =>
      if p ≤ s.pos then (s.modSlate fun q => { q with pending := .none }).decideCommit p 0 false false
      else match auto with | some m => s.decideCommit m 0 false false | none => s
    | .time t, some m =>
      if reached64 t s.common.n.now then (s.modSlate fun q => { q with pending := .none }).decideCommit (s.pos + 1) 0 false true
      else s.decideCommit m 0 false false
    | _, some m => s.decideCommit m 0 false false
    | _, none => s

/-- Entry 63 falls due (R39, R41, R147): the pending time-named Slate, the automatic one, or both in one. `late`: a step of device time
jumped over it. -/
def slateTime (s : State) (late : Bool) : State :=
  if s.ring.bound then s else
    let lateness (t : Ticks) : Int := if late then (s.common.n.ns : Int) - (t / 65536 : Nat) else 0
    match s.common.slate.pending with
    | .time t =>
      if reached64 t s.common.n.now then
        (s.modSlate fun q => { q with pending := .none }).decideCommit (s.pos + 1) (lateness t) late true
      else match s.autoTime with
        | some a => if reached64 a s.common.n.now then s.decideCommit (s.pos + 1) (lateness a) late true else s
        | none => s
    | _ => match s.autoTime with
      | some a => if reached64 a s.common.n.now then s.decideCommit (s.pos + 1) (lateness a) late true else s
      | none => s

/-- What entry 63 of the timed-action table holds: the earlier of the pending time-named and the next automatic time Slate (R143). -/
def entry63 (s : State) : Option Ticks :=
  match s.common.slate.pending, s.autoTime with
  | .time t, some a => some (min t a)
  | .time t, none => some t
  | _, a => a

/-! ## Timed actions (R143-R149) -/

/-- Key of an object of entry `e`. -/
def taKey (e sub : Nat) : Nat := 0x214000 + 256 * e + sub

/-- Change the timed-action part of the time block. -/
def modTa (s : State) (f : TimeBlock → TimeBlock) : State := { s with common := { s.common with time := f s.common.time } }

/-- The part of a target that names channel `c`, by kind (R143): heads, the channel, or monitor inputs. -/
def taPart (kind target : Nat) (c : Fin 6) : Nat :=
  match kind with
  | 1 => bits target (4 * c.val + 3) (4 * c.val)
  | 2 => bits target c.val c.val
  | 3 => bits target (2 * c.val + 1) (2 * c.val)
  | _ => 0

/-- The action of an occurrence in channel `c`: the state, and whether it was not started because the same is still busy. -/
def taChan (s : State) (c : Fin 6) (kind part arg : Nat) : State × Bool :=
  match kind with
  | 1 => (s.onLive c fun x => (List.range 4).foldl (fun x h => if bit part h then x.acquireLine h else x) x, false)
  | 2 => (s.onLive c fun x => x.exposureCycle.1, ((s.chan c).exposureCycle).2)
  | 3 => (s.onLive c fun x => (List.range 2).foldl (fun x i => if bit part i then (x.lmonBurst i arg).1 else x) x,
          (List.range 2).all fun i => !bit part i || ((s.chan c).lmonBurst i arg).2)
  | _ => (s, false)

/-- Where channel `c` stands for an occurrence (R147, R149): in reset or before its first commit, asleep or waking, or ready. -/
inductive TaReady
  | down | asleep | ready
deriving DecidableEq, Repr

/-- The readiness of a channel for a timed action. -/
def taReady (x : Chan) : TaReady :=
  if x.inReset || !x.slate.started then .down
  else if x.deep then .asleep
  else .ready

/-- What became of an occurrence in the channels it selects: it acted in one at least, one still wakes for it, one was skipped. -/
structure TaResult where
  acted : Bool := false
  waits : Bool := false
  skipped : Bool := false
deriving DecidableEq, Repr

/-- One occurrence acts in the channels it selects; those asleep wake and act then, or are skipped (R145, R147, R149). -/
def taAct (s : State) (e : Nat) (x : TaEntry) (time : Ticks) : State × TaResult :=
  (List.finRange 6).foldl (fun (a : State × TaResult) c =>
    let (s, r) := a
    let part := taPart x.kind x.target c
    if part = 0 then a else
      match taReady (s.chan c) with
      | .down => (s.onN (·.putN (taKey e 0x0A) 2), r)
      | .asleep =>
        if bit x.flags 0 then (s, { r with skipped := true }) else
          let s := s.onChan c fun y => y.wakeCause
          (s.modTa fun b => { b with waits := b.waits ++ [{ entry := e, kind := x.kind, chan := c.val, target := part, arg := x.arg,
                                                            time := time, own := true, whole := x.target, flags := x.flags }] },
           { r with waits := true })
      | .ready =>
        let (s, busy) := s.taChan c x.kind part x.arg
        (s, { r with acted := r.acted || !busy })) (s, {})

/-- `j` occurrences are not executed (R147). -/
def taMiss (s : State) (e j : Nat) : State :=
  if j = 0 then s else s.onN fun n => (n.add 32 (taKey e 0x0D) j).setFlag K.TA_SKIP_FLAGS e

/-- An occurrence of entry `e` has acted (R147, R149): TA_FIRED, its notice where asked for, and the flag of a late one. -/
def taFired (s : State) (e : Nat) (notify late : Bool) : State :=
  s.onN fun n =>
    let n := n.inc (taKey e 0x0C)
    let n := if notify then n.setFlag K.TA_NOTIFY_FLAGS e else n
    if late then n.setFlag K.TA_LATE_FLAGS e else n

/-- The echo of an occurrence of entry `e` that executes, where ARM captured ECHO (R146, R560). -/
def taSendEcho (s : State) (e kind flags target arg : Nat) (late : Bool) : State :=
  if bit flags 2 then s.onBw (·.echoSend e kind late target arg) else s

/-- An entry's occurrences that have fallen due run (R144, R145, R147): one on time, or late ones. Its ECHO goes out with it where a channel
acts at once, else with the first that acts after its wake (R146, R560: `taSettle`). A one-shot with SKIP_IF_LATE whose targets all still
wake ends as DONE and leaves TA_LATENESS: the rows of R147's table for it differ (DESIGN CHOICE, unsafe: log entry 2147). -/
def taRun (s : State) (e : Nat) (x : TaEntry) (late : Bool) : State :=
  let next := x.time + x.passed * nsTicks x.period
  let due := if x.period = 0 then 1 else (s.common.n.ns - next / 65536) / x.period + 1
  let due := if late then due else 1
  let j := if x.period ≠ 0 ∧ x.count ≠ 0 then min due (x.count - x.passed) else due
  let last := next + (j - 1) * nsTicks x.period
  let skip := bit x.flags 0
  let passed := x.passed + j
  let ended : Bool := x.period == 0 || (x.count != 0 && decide (x.count ≤ passed))
  let x' : TaEntry := { x with passed := passed }
  let s := s.modTa fun b => { b with armed := if ended then tabDel b.armed e else tabIns b.armed e x' }
  let status := if ended then (if x.period = 0 ∧ late = true ∧ skip = true then 3 else 2) else 1
  let s := s.onN fun n => (n.putN (taKey e 9) status).putN (taKey e 0x0E) (if ended then 0 else time64 (x.time + passed * nsTicks x.period))
  let s := if late then s.onN (·.putI 64 (taKey e 0x0B) ((s.common.n.ns : Int) - (last / 65536 : Nat))) else s
  if late && skip then s.taMiss e j
  else
    let s := s.taMiss e (j - 1)
    let (s, r) := s.taAct e x last
    let s := if r.skipped then s.onN (·.setFlag K.TA_SKIP_FLAGS e) else s
    let s := if r.acted then (s.taFired e (bit x.flags 1) late).modTa fun b => { b with waits := b.waits.map fun w =>
               if w.own && w.entry == e && w.time == last then { w with counted := true } else w }
             else if r.waits then s else s.taMiss e 1
    if r.acted then s.taSendEcho e x.kind x.flags x.target x.arg late else s

/-- The armed entry `e`. -/
def taEntry (s : State) (e : Nat) : Option TaEntry := (s.common.time.armed.find? (·.1 == e)).map (·.2)

/-- Device time has reached TA_NEXT of entry `e` (R145). -/
def taExecute (s : State) (e : Nat) : State :=
  if e = 63 then s.slateTime false else
    match s.taEntry e with
    | some x => if reached48 (x.time + x.passed * nsTicks x.period) s.common.n.now then s.taRun e x false else s
    | none => s

/-- ARM of an entry of 0 to 62 (R144). -/
def taArm (s : State) (e : Nat) : Status × State :=
  let n := s.common.n
  let x : TaEntry := { time := ofTime64 (n.num (taKey e 1)), kind := n.num (taKey e 2), target := n.num (taKey e 3), arg := n.num (taKey e 4),
                       period := n.num (taKey e 5), count := n.num (taKey e 6), flags := n.num (taKey e 7) }
  if 62 < e then (.access, s)
  else if x.kind = 0 ∨ (List.finRange 6).all (fun c => taPart x.kind x.target c == 0) = true ∨ s.farTime x.time = true then (.range, s)
  else
    let s := s.modTa fun b => { b with armed := tabIns b.armed e x, waits := b.waits.filter fun w => w.entry != e || !w.own }
    let s := s.onN fun n => [(9, 1), (0x0A, 0), (0x0C, 0), (0x0D, 0), (0x0E, time64 x.time)].foldl (fun n (k, v) => n.putN (taKey e k) v) n
    (.ok, if reached48 x.time n.now then s.taRun e x true else s)

/-- DISARM (R144). An occurrence that still waits for a channel to wake is missed (log 1149). -/
def taDisarm (s : State) (e : Nat) : Status × State :=
  if 62 < e then (.access, s) else
    let lost := ((s.common.time.waits.filter fun w => w.own && w.entry == e && !w.counted).map (·.time)).eraseDups.length
    let s := s.modTa fun b => { b with armed := tabDel b.armed e, waits := b.waits.filter fun w => w.entry != e || !w.own }
    let s := s.taMiss e lost
    (.ok, s.onN fun n => (n.putN (taKey e 9) 0).putN (taKey e 0x0E) 0)

/-- An occurrence that waited for channel `w.chan` is settled there: it acted or it did not. It counts as fired, and goes out as an echo, with
the first channel it acts in, by what ARM captured; it counts as missed once no channel is left (R144, R146, R149). -/
def taSettle (s : State) (w : TaWait) (acted : Bool) : State :=
  let same (v : TaWait) : Bool := v.own && v.entry == w.entry && v.time == w.time
  if !w.own then s
  else if acted then
    let s := s.onN fun n => Node.setFlag (n.putI 64 (taKey w.entry 0x0B) ((n.ns : Int) - (w.time / 65536 : Nat))) K.TA_LATE_FLAGS w.entry
    if w.counted then s else
      State.taSendEcho ((s.taFired w.entry (bit w.flags 1) true).modTa fun b =>
        { b with waits := b.waits.map fun v => if same v then { v with counted := true } else v }) w.entry w.kind w.flags w.whole w.arg true
  else if w.counted || s.common.time.waits.any same then s
  else s.taMiss w.entry 1

/-- Occurrences that waited for channel `c` execute late once it is awake (R147); in a channel reset meanwhile they do not (R149). -/
def taWoken (s : State) (c : Fin 6) : State :=
  (List.range s.common.time.waits.length).foldl (fun (s : State) _ =>
    match s.common.time.waits.find? (·.chan == c.val) with
    | none => s
    | some w =>
      let s := s.modTa fun b => { b with waits := b.waits.erase w }
      match taReady (s.chan c) with
      | .down => (if w.own then s.onN (·.putN (taKey w.entry 0x0A) 2) else s).taSettle w false
      | _ =>
        let (s, busy) := s.taChan c w.kind w.target w.arg
        s.taSettle w !busy) s

/-- An echoed occurrence of the ring's root acts in the channels of this member (R560): one asleep acts once it is awake. -/
def taEcho (s : State) (x : BwEcho) : State :=
  (List.finRange 6).foldl (fun (s : State) c =>
    let part := taPart x.kind x.target c
    if part = 0 then s else
      match taReady (s.chan c) with
      | .down => s
      | .asleep =>
        (s.onChan c fun y => y.wakeCause).modTa fun b => { b with waits := b.waits ++
          [{ entry := x.entry, kind := x.kind, chan := c.val, target := part, arg := x.arg, time := x.due, own := false }] }
      | .ready => (s.taChan c x.kind part x.arg).1) s

/-- The checks after a step of device time (R147-R149). -/
def taStepped (s : State) : State :=
  let s := s.common.time.armed.foldl (fun s (e, _) =>
    match s.taEntry e with
    | none => s
    | some x =>
      let next := x.time + x.passed * nsTicks x.period
      if s.farTime next then
        let s := s.modTa fun b => { b with armed := tabDel b.armed e }
        s.onN fun n => (((n.putN (taKey e 9) 4).putN (taKey e 0x0A) 1).putN (taKey e 0x0E) 0).setFlag K.TA_ERROR_FLAGS e
      else if reached48 next s.common.n.now then s.taRun e x true
      else s) s
  s.slateTime true

/-! ## Steps of device time -/

/-- TB_STATE (R150). -/
def tbCode : TbState → Nat
  | .free => 0 | .acquiring => 1 | .locked => 2 | .holdover => 3

/-- A TIMEBASE entry in every journal (R129, R360). -/
def timeJournal (s : State) (kind : Nat) (theta step : Int) : State :=
  let f := s.common.n.num K.TB_FREQ_ADJ
  let st := tbCode s.common.time.tb.state
  s.onAll fun c => c.timeEntry kind theta step f st

/-- What a step of device time by `d` ticks changes beyond the timebase (R129, R148, R149). -/
def stepped (s : State) (d : Int) : State :=
  let s : State := { s with common := { s.common with enc := encTimeStep d s.common.enc } }
  taStepped (s.timeJournal 1 0 (rdivI d 65536))

/-- An act on the timebase or a network port that may step device time. -/
def onTime (s : State) (f : TimeNode → TimeNode × Option Int) : State :=
  let old := s.common.time.tb
  let r := f (s.common.n, s.common.time)
  let s : State := State.tidy { s with common := { s.common with n := r.1.1, time := r.1.2 } }
  let s := match r.2 with
    | some d => s.stepped d
    | none => if r.1.2.tb.samples = old.samples then s else s.timeJournal 0 (toSigned 64 (r.1.1.num K.TB_OFFSET)) 0
  if r.1.2.tb.state = old.state then s else s.timeJournal 2 0 0

/-- The same for an act that never steps device time. -/
def onTb (s : State) (f : TimeNode → TimeNode) : State := s.onTime fun t => (f t, none)

end State

end Sys2Proof.Machine
end

