-- ==== Sys2Proof/Machine/HostEngine.lean ====
section
/-!
DEFINITION. The host port and the resets: flags that their condition sets again (02 R61), the persisted set (02 R63-R65), host-port reset
and FLR (16 R447-R460), channel reset (20 R532), and the start of the device (20 R531, R533).
-/

namespace Sys2Proof.Machine

/-! ## Flags whose condition holds (R61) -/

/-- The key of the index of duplex lane `d`. -/
def duplexKey (d : Nat) : Nat := 0x21F000 + 256 * d

/-- The index of a lane table, and the subindex of an object in it, of either kind of lane. -/
def laneSub (k : Nat) : Option (Nat × Nat) :=
  let i := k / 256
  if 0x8180 ≤ i ∧ i < 0x8188 then some (i - 0x8180, k % 256)
  else if 0x21F0 ≤ i ∧ i < 0x21F6 then some (i - 0x21F0, k % 256)
  else none

/-- LOS and LOL of a lane, as bits of its flags (R206). -/
def Lane.held (x : Lane) : Nat := b2n x.los + 2 * b2n x.lol

/-- The bits of a channel's W1C object that a written 1 does not clear, for their condition holds (R61): TABLE_FULL and CUE_FULL while the
table is full (R322, R333), the completion ring stalled (R420), the memory FAILED (R394), LOS and LOL (R206). -/
def Chan.heldFlags (c : Chan) (k : Nat) : Nat :=
  if k = K.SEG_FLAGS then (if 32768 ≤ c.n.num K.OPEN_NOW then 2 else 0)
  else if k = K.STK_FLAGS then (if 2048 ≤ c.n.num K.CUES_NOW then 2 else 0)
  else if k = K.CMP_FLAGS then 4 * b2n c.cmp.stalled
  else if k = K.MEM_FLAGS then (if c.memState = 7 then 16 else 0)
  else match laneSub k with
    | some (l, 0x0E) => (c.lane l).held
    | _ => 0

/-- Flags set again after a channel reset, whose condition still holds (R61). -/
def Chan.recheck (c : Chan) : Chan :=
  let again (n : Node) (k b : Nat) : Node := if bit (c.heldFlags k) b && !n.bitOf k b then n.setFlag k b else n
  (List.range 8).foldl (fun (d : Chan) l => d.mapN fun n => again (again n (ik K.LANE_FLAGS l) 0) (ik K.LANE_FLAGS l) 1)
    (c.mapN fun n => again (again n K.CMP_FLAGS 2) K.MEM_FLAGS 4)

/-- The bits of a W1C object of the common block that a written 1 does not clear, for their condition holds (R61). -/
def State.heldFlags (s : State) (k : Nat) : Nat :=
  let c := s.common
  let n := c.n
  if k = K.WP_FLAGS then 2 * b2n (c.enc.wp.src == .noSource)
  else if k = K.HP_FLAGS then b2n (n.num K.HP_LINK_STATE != 2 && n.num K.HP_LINK_STATE != 3)
  else if k = K.PWR_FLAGS then 4 * b2n c.mon.warn + 8 * b2n c.mon.crit + 16 * b2n (n.num K.MON_OUT != 0)
  else if k = K.CAL_FLAGS then 4 * b2n (n.num K.STORE_STATE == 0) + 64 * b2n (worn (n, c.cal))
  else if k = K.BW_FLAGS then b2n (n.num K.BW_STATE == 3) + 2 * b2n (n.num K.BW_STATE == 4)
  else match laneSub k with
    | some (d, 0x0E) => (c.lanes.getD d {}).held
    | _ => 0

/-! ## The persisted set -/

/-- Every common object. -/
def commonRows : List (Nat × ObjInfo) :=
  (List.range 0x2300).flatMap fun o => (rowsAt (baseIndex (0x1000 + o))).map fun r => ((0x1000 + o) * 256 + r.sub, r)

namespace State

/-- The items of the persisted set: every P object in ascending index, with its RW or in-force RS value (R64, R502). -/
def persistItems (s : State) : List Nat :=
  let common := (commonRows.filter (·.2.persisted)).flatMap fun (k, r) =>
    itemBytes (k / 256) (k % 256) r.typeCode (r.encodeVals (s.common.n.elems k))
  let chans := (List.finRange 6).flatMap fun c => (chanRows.filter (·.2.persisted)).flatMap fun (k, _) =>
    (s.chan c).objItem k ((s.chan c).n.elems k)
  common ++ chans

/-- The payload of the persisted set in force, where there is one. -/
def persisted (s : State) : Option (List Nat) :=
  if s.common.n.num K.STORE_STATE = 0 then none else (s.common.cal.inForce 0).map (·.2.2)

/-- The limits of a persisted object that its meaning sets beyond its row (R59): TX_FIR (R208), LINK_WIDTH (R154). -/
def persistLimit (s : State) (c : Option (Fin 6)) (k : Nat) (vs : List Nat) : Bool :=
  match c with
  | none => !(decide (0x21F0 ≤ k / 256) && decide (k / 256 < 0x21F6) && k % 256 == 0x21) || txFirOk vs
  | some c => k != K.LK_LINK_WIDTH || Chan.widthsOk vs ((s.chan c).n.elems K.LANE_ROLE)

/-- The object an item of the persisted set names: in the common block or a channel, with its row and value; `none` where R65 skips it. -/
def persistItem (s : State) (i : JrnItem) : Option (Option (Fin 6) × Nat × ObjInfo × List Nat) :=
  let place : Option (Option (Fin 6) × Nat) :=
    if i.index < 0x8000 then some (none, i.index * 256 + i.sub)
    else if h : (i.index - 0x8000) / 0x800 < 6 then some (some ⟨(i.index - 0x8000) / 0x800, h⟩, (0x8000 + i.index % 0x800) * 256 + i.sub)
    else none
  match place with
  | none => none
  | some (c, k) =>
    match objInfo k with
    | none => none
    | some r =>
      if r.persisted = true ∧ r.typeCode = i.code then
        match r.checkBytes i.val with
        | .ok vs => if s.persistLimit c k vs then some (c, k, r, vs) else none
        | .error _ => none
      else none

/-- A persisted value is applied: an RW value replaces the default, an RS value is staged (R63). -/
def persistApply (s : State) (c : Option (Fin 6)) (k : Nat) (r : ObjInfo) (vs : List Nat) : State :=
  match c with
  | none =>
    if r.acc = .rs then s.modSlate fun q => { q with staged := stagePut q.staged { key := k, val := vs } }
    else if k = K.BW_ROLE then s.onRing (·.roleWrite (vs.headD 0))
    else s.onN (·.put k vs)
  | some c =>
    let x := s.chan c
    if r.acc = .rs then s.putChan c { x with slate := { x.slate with staged := stagePut x.slate.staged { key := k, val := vs } } }
    else s.putChan c (x.mapN (·.put k vs))

/-- The persisted set is loaded at PORST (R63, R65). -/
def persistLoad (s : State) : State :=
  match s.persisted with
  | none => s.onN fun n => (n.putN K.PERSIST_LOAD_RESULT 2).alarm 0x206
  | some p =>
    let items := jrnItems p.length p
    let (s, skipped) := items.foldl (fun (a : State × Bool) i =>
      match a.1.persistItem i with
      | some (c, k, r, vs) => (a.1.persistApply c k r vs, a.2)
      | none => (a.1.onN (·.event 0x205 (i.index * 256 + i.sub)), true)) (s, false)
    let s := s.onN (·.putN K.PERSIST_LOAD_RESULT (if items.isEmpty then 1 else if skipped then 3 else 0))
    let t := s.common.n.num K.TRACE_LOG2
    let s := s.mapN fun n => { n with traceLog2 := t }
    { s with chans := s.chans.map fun (c : Chan) => c.mapN fun n => { n with traceLog2 := t } }

/-- Persisted RS values of channel `c` go back to its staging area at a channel reset (R63). -/
def persistedRs (s : State) (c : Fin 6) : List Staged :=
  match s.persisted with
  | none => []
  | some p => (jrnItems p.length p).foldl (fun l i =>
      match s.persistItem i with
      | some (some d, k, r, vs) => if d = c ∧ r.acc = .rs then stagePut l { key := k, val := vs } else l
      | _ => l) []

/-! ## Channel reset (R532) -/

/-- RO objects that are not counters and stand for what a channel reset leaves: ring offsets, the journal as written, memory training. -/
def resetKeeps : List Nat :=
  [K.AUX_RING_WR, K.REC_WR, K.CROP_WR, K.PQ_WR, K.CPL_WR, K.C_LRING_WR, K.RUSHES_HEAD, K.RUSHES_TAIL, K.RUSHES_TAIL_SEQ, K.RUSHES_SEQ,
   K.RUSHES_BYTES, K.FREEZE_STATE, K.FREEZE_CAUSE, K.FREEZE_POS, K.FREEZE_OFF, K.CKPT_OLDEST, K.CKPT_NEWEST, K.CKPT_LAST_POS,
   K.MEM_CAPACITY, K.MEM_STATE, K.ACTIVE_SET, Chan.setKey 0 5, Chan.setKey 1 5, K.REF_RATE, K.REF_DEBT, K.MR4_LAST, K.TRAIN_RESULT, K.TRAIN_DETAIL, K.READS, K.WRITES]

/-- An object keeps its value through a channel reset: RW, published, of the interrupt controller, or named above. -/
def keptAt (k : Nat) : Bool :=
  match objInfo k with
  | some r =>
    if k = K.C_IC_FLAGS then true
    else match r.acc with
      | .rw => true
      | .ro => r.published || resetKeeps.contains k || k / 256 == 0x8780
      | _ => false
  | none => false

/-- The channel's side of a channel reset; `rs`: the persisted RS values that go to its staging area. -/
def chanClear (c : Chan) (rs : List Staged) : Chan :=
  let c := (c.pwrTime.modPwr fun p => { p with cause := false, after := false, woken := false }).pwrPhase .reset
  let c := Chan.journalReset (c.cmpReset.dmaReset)
  let c := (c.pipelineReset).srCause .reset
  let n := { c.n with objs := c.n.objs.filter fun (k, _) => keptAt k, shed := c.n.shed ++ c.n.intake, intake := [] }
  let off := (List.range 8).foldl (fun (a : Node × List Lane) l =>
    let x := laneOff (0x818000 + 256 * l) (a.1, c.lanes.getD l {})
    (x.1, a.2 ++ [x.2])) (n, [])
  let c : Chan := { c with
    n := off.1, lanes := off.2,
    slate := { staged := rs, stages := List.replicate 8 { gen := n.gen }, pub := { newest := c.slate.pub.newest } },
    input := { heads := c.input.heads.map fun (x : HeadIn) => { ({} : HeadIn) with temp := x.temp } },
    scan := none,
    expo := {},
    stk := {}, calHead := none,
    seg := {},
    rushes := { c.rushes with retake := {} },
    notes := [] }
  c.recheck

/-- A channel goes into reset (R532): a calibration run on it aborts with reason 3 (R513). -/
def chanReset (s : State) (c : Fin 6) : State :=
  if (s.chan c).inReset then s else
    let rs := s.persistedRs c
    let s := (shedIntake c s).onChan c fun x => chanClear x rs
    let s := s.taWoken c
    match s.common.cal.run with
    | some r => if r.chan = c.val then s.onCal (calAbort 3 0) else s
    | none => s

/-- The cause of a channel reset has gone: Run, its lanes start, its memory leaves self-refresh (R532). -/
def chanRelease (s : State) (c : Fin 6) : State :=
  if !(s.chan c).inReset || s.common.n.elem K.CH_RESET c.val == 1 || ((s.chan c).n.fn.flr && (s.chan c).n.fn.flrHolds)
  then s
  else s.onChan c fun x =>
    let x := (x.modPwr fun p => { p with st := .run, since := x.n.mono, busy := true }).pwrPhase .steady
    let x := (List.range 8).foldl (fun x f => x.linkStart f) ((x.srEnd .power).srEnd .reset)
    if x.power.started then x.signal (.source 120) else x

/-! ## Host port (16) -/

end State

/-- Configuration space and writers of a function at a reset that reaches it (R458, R459). -/
def Function.configReset (f : Function) : Function :=
  { f with busMaster := false, memEnable := false, d3hot := false, mps := 0, mrrs := 2, noTimeout := false, cplRange := 0, aerUncorr := 0,
           aerCorr := 0, aerUncorrMask := 0x400000, aerSeverity := 0x462030, aerCorrMask := 0xE000, errEnable := 0, held := true, msix := [],
           msixEnable := false, msixMask := false, waiting := [] }

/-- A function's part of a host-port reset or FLR: configuration space, MSI-X, interrupt controller (R458, R476). -/
def Node.functionReset (n : Node) : Node := Node.icReset { n with fn := n.fn.configReset }

namespace State

/-- Function `f`'s unit: the common block's, or channel f − 1's. -/
def fnNode (s : State) (f : Fin 7) : Node :=
  if h : f.val - 1 < 6 ∧ f.val ≠ 0 then (s.chan ⟨f.val - 1, h.1⟩).n else s.common.n

/-- An act on function `f`'s unit. -/
def onFn (s : State) (f : Fin 7) (g : Node → Node) : State :=
  if h : f.val - 1 < 6 ∧ f.val ≠ 0 then s.onChan ⟨f.val - 1, h.1⟩ fun x => x.mapN g else s.onN g

/-- Change the host port's own state. -/
def modHost (s : State) (f : HostPort → HostPort) : State := { s with common := { s.common with host := f s.common.host } }

/-- The limits that the host port advertises from Detect on (R449). -/
def takeLimits (s : State) : State :=
  s.modHost fun h => { h with maxRate := s.common.n.num K.MAX_RATE, maxWidth := s.common.n.num K.MAX_WIDTH }

/-- The link leaves L0 (or L1, Recovery) for a state below (R450). -/
def linkExit (s : State) (st : Nat) : State :=
  let was := s.common.n.num K.HP_LINK_STATE
  let s := s.takeLimits
  let s := s.onN fun n =>
    ((((n.putN K.HP_LINK_STATE st).putN K.LINK_RATE 0).putN K.HP_LINK_WIDTH 0).putN K.LINK_FLIT 0).putN K.LANE_REVERSED 0
  if was = 2 ∨ was = 3 ∨ was = 4 then s.onN fun n => Node.alarm (Node.inc (n.setFlag K.HP_FLAGS 0) K.LINK_DOWNS) 130 else s

/-- An FLR of function `f` is over: a channel reset it held ends (R458). -/
def flrEnd (s : State) (f : Fin 7) : State :=
  let s := s.onFn f fun n => { n with fn := { n.fn with flr := false } }
  if h : f.val - 1 < 6 ∧ f.val ≠ 0 then s.chanRelease ⟨f.val - 1, h.1⟩ else s

/-- The mailbox of PF0 is cleared (R458). -/
def mailboxClear (s : State) : State :=
  { s with common := { s.common with server := { s.common.server with
      mbRequest := [], mbResponse := [], mbBusy := false, mbDone := false, mbOverrun := false, mbAnswer := [], mbDiscard := false } } }

/-- A host-port reset (R458). -/
def hostReset (s : State) : State :=
  let s := s.onN Node.functionReset
  let s := s.onAll fun x => Chan.dmaEnable (x.mapN Node.functionReset) 0
  let s := (List.finRange 7).foldl (fun s f => if (s.fnNode f).fn.flr then s.flrEnd f else s) s
  let win := s.common.n.elems K.CHMEM_WIN_SIZE
  s.modHost fun h => { h with winSize := win, bars := List.replicate 7 (zeros 3) }

/-- An FLR of function `f` (R458). -/
def flr (s : State) (f : Fin 7) : State :=
  let s := s.onN (·.addE 32 K.FLR_COUNT f.val 1)
  let holds := f.val ≠ 0 ∧ s.common.n.elem K.FLR_SCOPE f.val = 1
  let s := s.onFn f fun n => Node.functionReset { n.bar2Run with fn := { n.bar2Run.fn with flr := true, flrHolds := decide holds } }
  let s := s.modHost fun h => { h with bars := listPut h.bars f.val (zeros 3) }
  if h : f.val - 1 < 6 ∧ f.val ≠ 0 then
    let c : Fin 6 := ⟨f.val - 1, h.1⟩
    let s := s.onChan c fun x => x.dmaEnable 0
    if holds then s.chanReset c else s
  else if s.common.server.mbBusy then
    { s with common := { s.common with server := { s.common.server with mbDiscard := true } } }
  else s.mailboxClear

/-! ## The device (R531, R533) -/

/-- Every part of the device at its reset value; the store, what has left the device and the count of free values stay. -/
def cleared (s : State) (held : Held) (cause : Nat) : State :=
  let keep (old n : Node) : Node := { n with out := old.out, free := old.free }
  let n : Node := keep s.common.n { chan := false, origin := 0, objs := [(K.RESET_CAUSE, [cause])] }
  { common := { n := n, held := held, cal := { slots := s.common.cal.slots },
                host := { started := s.common.host.started } },
    chans := Vector.ofFn fun (c : Fin 6) =>
      { Chan.reset c with n := keep (s.chan c).n (Chan.reset c).n, cmp := { saved := (s.chan c).cmp.saved } },
    pending := s.pending }

/-- PORST#, a thermal trip or a device reset begins (R531): a store write loses its power (R507). -/
def deviceDown (s : State) (held : Held) (cause : Nat) : State :=
  let s := s.onCal storePowerFail
  State.mapN (s.cleared held cause) fun n => n.putN K.STARTUP_STEP 1

/-- The start-up up to step 5 (R533): fuses, store, persisted set, bank 0 of the channels PIX_AUTOLOAD names, host port ready. -/
def startUp (s : State) (cause fuse : Nat) (dev : Option StoreDev) : State :=
  let s := (s.cleared .none cause).onN (fuseRead fuse)
  let s := s.onCal fun c => trimLoad (storeLoad dev c)
  let s := if dev.isSome then s.persistLoad else s.onN fun n => (n.putN K.PERSIST_LOAD_RESULT 2).alarm 0x206
  let auto := s.common.n.num K.PIX_AUTOLOAD
  let s := (List.finRange 6).foldl (fun s c =>
    if bit auto c.val then
      match (if dev.isSome then s.common.cal.inForce (2 + c.val) else none) with
      | some (_, _, p) =>
        let (b, x) := pixInto c.val 0 p s.common.cal (s.chan c)
        State.onN ({ s with common := { s.common with cal := b } }.putChan c x) (·.putE K.PIX_LOAD_RESULT c.val 1)
      | none => s.onN (·.putE K.PIX_LOAD_RESULT c.val 2)
    else s) s
  let vid := s.common.n.num K.SUBSYS_VID
  let sid := s.common.n.num K.SUBSYS_ID
  let win := s.common.n.elems K.CHMEM_WIN_SIZE
  let on := s.common.host.started.isSome
  let s := s.modHost fun h => { h with subVid := vid, subId := sid, winSize := win, started := if on then some 0 else none }
  let s := if on then (s.onN (·.putN K.HP_LINK_STATE 1)).takeLimits else s
  s.onAll fun x => (x.memGo 1).trainStart

end State

end Sys2Proof.Machine
end

