-- ==== Sys2Proof/Machine/Views.lean ====
section
/-!
DEFINITION. The dictionary as it reads (02 R56, R57, R60, R69): where an index and subindex lie, and the value of every object. Most values
stand in the object stores; those here are formed from what the blocks hold when they are read.
-/

namespace Sys2Proof.Machine

/-! ## Places (R56, R57) -/

/-- Where an object lies: the common block or a channel, its key, its row. -/
structure Place where
  chan : Option (Fin 6)
  key : Nat
  row : ObjInfo
deriving DecidableEq, Repr

/-- The object at an index and subindex; `none` answers NO_OBJECT. -/
def place (index sub : Nat) : Option Place :=
  let i := index % 65536
  let b := sub % 256
  if i < 0x8000 then (objInfo (256 * i + b)).map fun r => ⟨none, 256 * i + b, r⟩
  else if h : (i - 0x8000) / 0x800 < 6 then
    let k := 256 * (0x8000 + i % 0x800) + b
    (objInfo k).map fun r => ⟨some ⟨(i - 0x8000) / 0x800, h⟩, k, r⟩
  else none

/-- The index of a place as a host names it. -/
def Place.index (p : Place) : Nat :=
  match p.chan with
  | none => p.key / 256
  | some c => p.key / 256 + 0x800 * c.val

namespace Chan

/-- Codes of a head's values in force over all stages: what a live object of the configuration is formed from. -/
def cfg (c : Chan) : Store := c.n.objs

/-- FADE_POS, BANK_IN_USE, and the other objects of a channel that are formed when they are read. -/
def formed (c : Chan) (k : Nat) : Option (List Nat) :=
  let i := k / 256
  let b := baseIndex i
  let v := c.cfg
  let u := i - b
  let l := c.lane u
  let g := geoSizes v
  if b = 0x8000 then
    (if k = K.BUDGET_INFORCE then some [rateBudget v]
     else if k = K.BUDGET_STAGED then some [min (2 ^ 32 - 1) (rateBudget (c.wouldBe []))]
     else if k = K.BUDGET_USED then some [cdiv (rateBudget v * 10000) 1250000000] else none)
  else if k = K.CXP_CTRL_RX then
    some (match c.input.cxp with | (f, p) :: _ => [f, 0, 0, 0, 0, 0, 0, 0] ++ p | [] => [])
  else if b = 0x8120 then
    (if k % 256 = 7 then some [match (c.head u).temp with | some (t, _) => t | none => 0]
     else if k % 256 = 8 then
       some [match (c.head u).temp with | some (_, t) => min (2 ^ 32 - 1) ((c.n.mono - t) / nsTicks 1000000) | none => 2 ^ 32 - 1]
     else if k % 256 = 9 then some [(c.head u).outstanding] else none)
  else if b = 0x8180 ∧ k % 256 = 0x0D then some [laneStatus l]
  else if k = K.FADE_POS then some ((List.range 4).map c.fadeCount)
  else if k = K.BANK_IN_USE then some [b2n (c.bankInUse 0) + 2 * b2n (c.bankInUse 1)]
  else if b = 0x8300 then
    (if k = K.ALIGN_NEED then some [g.need]
     else if k = K.ALIGN_BW_NEED then some [g.traffic]
     else if k = K.SWATH_BUDGET then some [g.budget]
     else if k = K.SWATH_PLANES then some [g.planes]
     else if k = K.OUT_LATENCY_POS then some [g.latency]
     else if k = K.XW_EDGE then some [toBits 32 (xw32 v 0), toBits 32 (xw32 v (v.num K.SWATH_WIDTH - 1))] else none)
  else if b = 0x8310 then
    (if k % 256 = 1 then some [g.cover.getD u 0]
     else if k % 256 = 2 then some [g.hold.getD u 0]
     else if k % 256 = 8 then some [(c.hgeo u).settleLeft] else none)
  else if b = 0x8398 ∧ k % 256 = 0x0B then some [expoMaxEff v u]
  else if k = K.HIST_STRIDE then some [if v.num K.HIST_LINES = 0 then 0 else histStride v]
  else if k = K.RAW_BW_NEED then
    some [((List.range 4).filter fun h => bit (v.num K.RAW_HEADS) h).foldl (fun s h => s + 2 * samplesOf v h * v.elem K.HEAD_RATE_MAX h) 0]
  else if k = K.BW_NOW then
    (let ms := c.n.mono / nsTicks 1000000
     some [(if c.mc.ms = ms then c.mc.lastBytes else if c.mc.ms + 1 = ms then c.mc.msBytes else 0) / 1000])
  else if k = K.CMP_STATE then
    some [if c.rushes.queue.any (·.pack.isSome) || c.n.num K.RETAKE_STATE == 2 then 2
          else if c.cmp.job.isSome then 1 else if c.cmp.stalled then 3 else 0]
  else if k = K.DMA_ACTIVE then
    some [(List.range 8).foldl (fun s t => s + b2n (1 ≤ c.threadState t && c.threadState t ≤ 3) * 2 ^ t) 0]
  else none

end Chan

/-- The objects of an interrupt controller that are formed when they are read (R480). -/
def Node.icFormed (n : Node) (sub : Nat) : Option (List Nat) :=
  match sub with
  | 2 => some ((List.range (n.sources + 1)).map n.srcCfg)
  | 3 => some ((List.range 8).map n.pendingWord)
  | 4 => some ((List.range 8).map n.activeWord)
  | 5 => some ((List.range 64).map n.vstatus)
  | _ => none

namespace State

/-- WP_SPEED_COARSE and WP_SPEED_FINE in µm/s (R111, R112; of a member the frame's speed). -/
def wpSpeeds (s : State) : Int × Int :=
  match s.ringFrame with
  | some x => (x.fine, x.fine)
  | none =>
    if s.ring.member then (0, 0) else
      match wpActive s.common.n s.common.enc with
      | some i => (encCoarse s.common.n (s.common.enc.enc i) i, encFine s.common.n (s.common.enc.enc i) i)
      | none => (0, 0)

/-- WP_ACTIVE (R114, R116). -/
def wpActiveCode (s : State) : Nat :=
  if s.ring.member then 0x80 else (wpActive s.common.n s.common.enc).getD 0xFF

/-- The power manager's figures of the channels as arrays (R539). -/
def ofChans (s : State) (f : Chan → Nat) : List Nat := (List.finRange 6).map fun c => f (s.chan c)

/-- The traceability set of bank `b` of channel `ch` (R517). -/
def traceBytes (s : State) (ch b : Nat) : List Nat :=
  (List.range 12).flatMap fun i =>
    let r := (s.common.cal.trace ch b).getD i []
    r ++ zeros (128 - r.length)

/-- The object of an entry of the timed-action table that is formed when it is read: those of entry 63 (R143). -/
def entry63Formed (s : State) (sub : Nat) : Option (List Nat) :=
  let t := match s.entry63 with | some t => time64 t | none => 0
  match sub with
  | 1 => some [t]
  | 2 => some [4]
  | 9 => some [b2n s.entry63.isSome]
  | 0x0E => some [t]
  | _ => none

/-- The objects of the encoder and web-position tables that are formed when they are read. -/
def webFormed (s : State) (k : Nat) : Option (List Nat) :=
  let n := s.common.n
  if k / 256 < 0x2080 then
    let i := (k / 256 - 0x2000) / 16
    let x := s.common.enc.enc i
    match k % 256 with
    | 0x0A => some [pos64 (accPos (encPosAt n x i n.now))]
    | 0x0B => some [toBits 32 (encFine n x i)]
    | 0x0C => some [match x.motion with | .standstill => 0 | .starting => 1 | .moving => 2]
    | _ => none
  else if k = K.WP_POSITION then some [pos64 n.posn.pos]
  else if k = K.WP_TIME then some [stamp64 n.posn.stamp]
  else if k = K.WP_SPEED_COARSE then some [toBits 32 s.wpSpeeds.1]
  else if k = K.WP_SPEED_FINE then some [toBits 32 s.wpSpeeds.2]
  else if k = K.WP_STATE then some [s.wpState]
  else if k = K.WP_DIRECTION then some [b2n s.wpUpstream]
  else if k = K.WP_ACTIVE then some [s.wpActiveCode]
  else none

/-- The dictionary-service and Slate objects that are formed when they are read. -/
def dictFormed (s : State) (k : Nat) : Option (List Nat) :=
  let q := s.common.slate
  if k = K.KDP_SESSIONS then some [s.common.server.sessions.length]
  else if k = K.PERSIST_SEQ then some [if s.common.n.num K.STORE_STATE = 0 then 0 else match s.common.cal.inForce 0 with | some (_, seq, _) => seq | none => 0]
  else if k = K.PERSIST_COUNT then some [match s.persisted with | some p => (jrnItems p.length p).length | none => 0]
  else if k = K.SLATE_PENDING then some [match q.pending with | .none => 0 | .pos _ => 1 | .time _ => 2]
  else if k = K.SLATE_PENDING_POS then some [match q.pending with | .pos p => pos64 p | _ => 0]
  else if k = K.SLATE_PENDING_TIME then some [match q.pending with | .time t => time64 t | _ => 0]
  else if k = K.STAGED_COMMON then some [q.staged.length]
  else if k = K.STAGED_CHANNEL then some (s.ofChans fun c => c.slate.staged.length)
  else if k = K.SLATE_OPEN_SEGMENTS then
    some [(q.staged.filter (·.isOpen)).length + q.openDirect.length +
      (s.ofChans fun c => (c.slate.staged.filter (·.isOpen)).length + c.slate.openDirect.length).foldl (· + ·) 0]
  else none

/-- The timebase, PTP and timed-action objects that are formed when they are read. -/
def timeFormed (s : State) (k : Nat) : Option (List Nat) :=
  let tn : TimeNode := (s.common.n, s.common.time)
  if k = K.TB_TIME then some [time64 s.common.n.now]
  else if k = K.TB_HOLDOVER_TIME then some [Node.num (tbHoldTime tn).1 k]
  else if k = K.PTP_CLOCK_CLASS then some [clockClass tn]
  else if k / 256 = 0x2110 ∨ k / 256 = 0x2120 then
    (let lat := netLat (s.common.n.num (k / 256 * 256 + 1))
     if k % 256 = 0x0D then some [lat.1] else if k % 256 = 0x0E then some [lat.2] else none)
  else if k / 256 = 0x217F then s.entry63Formed (k % 256)
  else if k = K.TA_ARMED then
    some [s.common.time.armed.foldl (fun a (e, _) => a + 2 ^ e) (if s.entry63.isSome then 2 ^ 63 else 0)]
  else none

/-- The power, host-port, logbook, calibration and monitor objects that are formed when they are read. -/
def restFormed (s : State) (k : Nat) : Option (List Nat) :=
  let n := s.common.n
  let duplex : Nat := k / 256 - 0x21F0
  if k / 256 < 0x21F6 ∧ k % 256 = 0x0D ∧ 0x21F0 ≤ k / 256 then some [laneStatus (s.common.lanes.getD duplex {})]
  else if k = K.PWR_STATE then some (s.ofChans Chan.pwrState)
  else if k = K.PWR_NEXT_EVENT then some (s.ofChans fun c => c.power.nextEvent)
  else if k = K.PWR_NEXT_KIND then some (s.ofChans fun c => c.power.nextKind)
  else if k = K.WAKE_COUNT then some (s.ofChans fun c => c.power.wakes)
  else if k = K.ENTRY_ABORTS then some (s.ofChans fun c => c.power.aborts)
  else if k = K.POWER_LOST then some (s.ofChans fun c => c.power.lost)
  else if k = K.TIME_IN_STATE then some ((List.finRange 6).flatMap fun c => (s.chan c).pwrTime.power.times)
  else if k = K.WRITERS_HELD then
    some [(List.finRange 6).foldl (fun a c => a + b2n (s.chan c).n.fn.held * 2 ^ (c.val + 1)) (b2n n.fn.held)]
  else if k / 256 = 0x2440 then n.icFormed (k % 256)
  else if k = K.TRIM_IMAGE then some (workingImage n)
  else if k = K.LOG_BUF then some (logBufBytes s.common.logs)
  else if k = K.FILL then some (fillView s.common.logs)
  else if k = K.RESERVE_USE then some (reserveView s.common.logs)
  else if k = K.CAL_TRACE_INFORCE ∨ k = K.CAL_TRACE_WORKING then
    (let ch := n.num K.CAL_CHANNEL
     if h : ch < 6 then
       let w := workingBank (s.chan ⟨ch, h⟩)
       some (s.traceBytes ch (if k = K.CAL_TRACE_WORKING then w else 1 - w))
     else none)
  else if k = K.MON_SUPPLY_LOW then some ((List.range 13).map fun r => (railLimits n r).1)
  else if k = K.MON_SUPPLY_HIGH then some ((List.range 13).map fun r => (railLimits n r).2)
  else none

/-- What a common object reads as when it is formed on reading; `none`: it stands in the store. -/
def formed (s : State) (k : Nat) : Option (List Nat) :=
  let i := k / 256
  if i < 0x2000 then s.dictFormed k
  else if i < 0x2100 then s.webFormed k
  else if i < 0x21F0 then s.timeFormed k
  else s.restFormed k

/-- The elements an object reads as. A WO object has no value: its elements read zero (R60). -/
def value (s : State) (p : Place) : List Nat :=
  match p.row.acc with
  | .wo => zeros (match p.row.shape with | .array n => n | .scalar => 1 | .bytes _ _ _ => 0)
  | _ =>
    match p.chan with
    | none => (s.formed p.key).getD (s.common.n.elems p.key)
    | some c =>
      let x := s.chan c
      (if p.key / 256 = 0x8780 then x.n.icFormed (p.key % 256) else x.formed p.key).getD (x.n.elems p.key)

/-- The bytes an object reads as (R58). -/
def valueBytes (s : State) (p : Place) : List Nat := p.row.encodeVals (s.value p)

/-- The generation a published object holds, where it has been published (R50). -/
def pubGen (s : State) (p : Place) : Option Nat :=
  match p.chan with
  | some c => if p.row.published then (Chan.partOf p.key).bind (s.chan c).newestOf else none
  | none => none

/-- The bytes of a published object in generation `g`, where its part's snapshot of it was replaced and kept (R69). -/
def keptBytes (s : State) (p : Place) (g : Nat) : Option (List Nat) :=
  match p.chan, Chan.partOf p.key with
  | some c, some part =>
    ((s.chan c).slate.pub.kept.find? fun x => x.1 == part && x.2.1 == g).map fun x => p.row.encodeVals (storeGet x.2.2 p.key)
  | _, _ => none

end State

end Sys2Proof.Machine
end

