-- ==== Sys2Proof/Machine/DictEngine.lean ====
section
/-!
DEFINITION. Direct writes to the objects of a channel and of the common block: what an accepted write of each RW, WO and W1C object does, and
where it is turned away for the state it finds (02 R37, R60; the rules of the owning chapters). Checks of type and range come before.
-/

namespace Sys2Proof.Machine

/-- An accepted value: the whole elements after the write, and the elements it carried (R59: those a segment does not carry keep their
present value). -/
structure Written where
  vals : List Nat
  lo : Nat := 0
  hi : Nat := 2 ^ 20
deriving DecidableEq, Repr

namespace Written
/-- A scalar written. -/
def v (w : Written) : Nat := w.vals.headD 0
/-- Element `i`. -/
def elem (w : Written) (i : Nat) : Nat := w.vals.getD i 0
/-- The write carried element `i`. -/
def carries (w : Written) (i : Nat) : Bool := decide (w.lo ≤ i) && decide (i < w.hi)
/-- The write carried element `i` with the value `x`. -/
def gives (w : Written) (i x : Nat) : Bool := w.carries i && w.elem i == x
end Written

/-! ## Lanes: camera lanes of a channel and duplex lanes (R199, R203, R208-R214) -/


namespace Chan

/-- An act on camera lane `l` with its unit; a lane that is scanned does not adapt (R214). -/
def onLane (c : Chan) (l : Nat) (f : LaneNode → LaneNode) : Chan :=
  let r := f (c.n, c.lane l)
  let r := if (c.scan.any fun sc => sc.lane == l) then laneFreeze (0x818000 + 256 * l) r else r
  Chan.putLane { c with n := r.1 } l r.2

/-- A running scan of lane `l` ends (R214). -/
def scanStop (c : Chan) (l status : Nat) : Chan :=
  match c.scan with
  | some sc => if sc.lane = l then (let r := scanEnd 0x818900 status c.n; { c with n := r.1, scan := r.2 }) else c
  | none => c

/-- A lane is enabled: it has a role (R199). -/
def laneOn (c : Chan) (l : Nat) : Bool := decide (l < 8) && c.n.elem K.LANE_ROLE l != 0

/-- LANE_ROLE, LINK_WIDTH or CXP_SPEED written (R154, R195): the links whose lanes change go to DOWN and start again. -/
def laneConfigWrite (c : Chan) (k : Nat) (w : Written) : Status × Chan :=
  if k = K.LK_LINK_WIDTH ∧ widthsOk w.vals (c.n.elems K.LANE_ROLE) = false then (.range, c) else
    let old := c.n.elems k
    let changed := (List.range 8).filter fun l => old.getD l 0 != w.elem l
    let firsts (c : Chan) : List Nat := (List.range 8).filter fun f => (c.linkOf f == some f) &&
      (if k = K.CXP_SPEED then changed.contains f && c.n.elem K.LANE_ROLE f == 1 else changed.any fun l => l == f || c.linkOf l == some f)
    let c := (firsts c).foldl (fun c f => c.linkFall f 0 false) c
    let c := c.mapN (·.put k w.vals)
    let c := changed.foldl (fun c l => if k = K.LANE_ROLE then Chan.scanStop (c.onLane l (laneOff (0x818000 + 256 * l))) l 3 else c) c
    (.ok, (firsts c).foldl (fun c f => c.linkStart f) c)

/-- LANE_TEST of a camera lane written (R209, R210): 0 to 2 are supported. -/
def laneTestWrite (c : Chan) (l v : Nat) : Status × Chan :=
  if 2 < v then (.range, c) else
    let k := K.LANE_TEST + 256 * l
    let was := c.n.num k
    let c := if was = v then c else (c.scanStop l 3).onLane l (lanePrbsReset (0x818000 + 256 * l))
    let c := c.mapN (·.putN k v)
    let c := if v = 2 then c.onLane l fun s => (s.1, { s.2 with los := false, lol := false }) else c
    match c.linkOf l with
    | some f =>
      if v ≠ 0 then (.ok, c.linkFall f 0 false)
      else (.ok, if was ≠ 0 ∧ (c.linkLanes f).all (fun j => c.n.num (K.LANE_TEST + 256 * j) == 0) = true then c.linkStart f else c)
    | none => (.ok, c)

/-- ADAPT_MODE of a camera lane written (R203). -/
def adaptModeWrite (c : Chan) (l v : Nat) : Status × Chan :=
  let c := if c.n.num (0x818002 + 256 * l) = v then c else c.scanStop l 3
  (.ok, c.onLane l (laneAdaptMode (0x818000 + 256 * l) v))

/-- SCAN_CTRL of the channel (R214). -/
def scanCtrl (c : Chan) (v : Nat) : Status × Chan :=
  if v = 1 then
    match scanCheck c.n 0x818900 c.laneOn c.scan with
    | 1 => (.range, c)
    | 2 => (.busy, c)
    | _ =>
      let r := scanStart 0x818900 c.n
      let c : Chan := { c with n := r.1, scan := r.2 }
      let l := c.n.num (0x818900 + 1)
      (.ok, c.onLane l (laneFreeze (0x818000 + 256 * l)))
  else
    (.ok, match c.scan with | some _ => (let r := scanEnd 0x818900 3 c.n; { c with n := r.1, scan := r.2 }) | none => c)

/-! ## Actions and settings of a channel -/

/-- BL_REG_CMD (R172). -/
def regCmdWrite (c : Chan) (v : Nat) : Status × Chan :=
  match c.regCommand v with
  | .ok c => (.ok, c)
  | .error _ => (.busy, c)

/-- A bank is named by a staged CORR_BANK_SEL (R237). -/
def bankStaged (c : Chan) (b : Nat) : Bool :=
  match stagedFind c.slate.staged K.CORR_BANK_SEL with
  | some x => x.val.headD 0 == b
  | none => false

/-- A correction bank written (R237). -/
def bankWrite (c : Chan) (k : Nat) (w : Written) : Status × Chan :=
  let b := if k = K.CORR_BANK0 then 0 else 1
  if c.bankInUse b || c.bankStaged b then (.busy, c) else (.ok, c.mapN (·.put k w.vals))

/-- OPEN_SNAP (R303). -/
def openSnapWrite (c : Chan) : Status × Chan :=
  if c.n.num K.OPEN_SNAP_STATUS = 1 then (.busy, c)
  else (.ok, Chan.mapN (c.modSeg fun s => { s with snapDue := true }) (·.putN K.OPEN_SNAP_STATUS 1))

/-- CUE_SNAP (R350). -/
def cueSnapWrite (c : Chan) : Status × Chan :=
  if c.n.num K.CUE_SNAP_STATUS = 1 then (.busy, c)
  else (.ok, Chan.mapN (c.modStk fun t => { t with snapDue := some c.n.mono }) (·.putN K.CUE_SNAP_STATUS 1))

/-- FREEZE_RELEASE (R364): not during Retake. -/
def freezeReleaseWrite (c : Chan) : Status × Chan :=
  if c.n.num K.RETAKE_STATE ≠ 0 then (.busy, c) else (.ok, c.freezeRelease)

/-- RETAKE_CTRL (R366). -/
def retakeCtrl (c : Chan) (v : Nat) : Status × Chan :=
  if v = 1 then c.retakeStart else if v = 2 then (.ok, c.retakeAbort) else (.ok, c.retakeExit)

/-- FREQ_SWITCH (R392). -/
def freqSwitchWrite (c : Chan) : Status × Chan :=
  if c.rateOk (1 - c.n.num K.ACTIVE_SET) = false then (.range, c)
  else if c.memState ≠ 2 ∧ c.memState ≠ 4 then (.busy, c)
  else (.ok, c.freqStart)

/-- MEM_TRAIN (R393, R394): taken in READY and in FAILED. -/
def memTrainWrite (c : Chan) : Status × Chan := if c.memState ≠ 2 ∧ c.memState ≠ 7 then (.busy, c) else (.ok, c.trainStart)

/-- NBR_SEED (R387). -/
def nbrSeedWrite (c : Chan) (v : Nat) : Status × Chan := (.ok, Chan.modMc (c.mapN (·.putN K.NBR_SEED v)) fun m => { m with lfsr := v })

/-- SR_TEST (R388). -/
def srTestWrite (c : Chan) (v : Nat) : Status × Chan := (.ok, if v = 1 then c.srCause .test else c.srEnd .test)

/-- An object of a timing set (R391). -/
def timingWrite (c : Chan) (k : Nat) (w : Written) : Status × Chan :=
  let a := k / 256 - 0x8608
  if a = c.n.num K.ACTIVE_SET then (.busy, c) else (.ok, c.mapN fun n => (n.put k w.vals).putN (setKey a 5) 0)

/-- CMP_SUBMIT (R402). -/
def cmpSubmitWrite (c : Chan) (bytes : List Nat) : Status × Chan :=
  if bytes.length ≠ 64 then (.range, c) else
    match c.cmpSubmit bytes with
    | some c => (.ok, c)
    | none => (.busy, c)

/-- The completion ring's objects (R421): the offsets restart where address or size changes. -/
def cplWrite (c : Chan) (k : Nat) (w : Written) : Status × Chan :=
  if c.cmp.job.isSome ∨ c.cmp.queue ≠ [] then (.busy, c) else
    let old := c.n.elems k
    let c := c.mapN (·.put k w.vals)
    (.ok, if k = K.CPL_WB_ADDR ∨ old = w.vals then c else c.mapN fun n => (n.putN K.CPL_WR 0).putN K.CPL_RD 0)

/-- THREAD_CTRL (R439, R440). -/
def threadCtrl (c : Chan) (t v : Nat) : Status × Chan :=
  if v = 1 then (match c.threadStart t with | some c => (.ok, c) | none => (.busy, c))
  else if v = 2 then (.ok, c.threadPause t) else (.ok, c.threadResume t)

/-- PROG_ADDR, PROG_SPACE, THREAD_CLASS, LINK_LIMIT (R440). -/
def threadSet (c : Chan) (t k : Nat) (w : Written) : Status × Chan :=
  if 1 ≤ c.threadState t ∧ c.threadState t ≤ 4 then (.busy, c) else (.ok, c.mapN (·.put k w.vals))


/-- Bits of a W1C object written as 1 are cleared, with what their clearing ends (R60, R61). -/
def w1c (c : Chan) (k v : Nat) : Chan :=
  let c := c.mapN fun n => n.putN k (andNot (n.num k) (andNot v (c.heldFlags k)))
  let c := if k = K.STATS_FLAGS ∧ bit v 5 = true then c.loopFaultCleared else c
  let c := match laneSub k with
    | some (l, 0x0E) => if bit v 2 then c.onLane l (laneWanderClear (0x818000 + 256 * l)) else c
    | _ => c
  c

/-- Element by element, IC_SRC_CFG (R479). -/
def icSrcWrite (w : Written) (n : Node) : Node :=
  (List.range (n.sources + 1)).foldl (fun n s => if s ≠ 0 ∧ w.carries s = true then n.srcCfgWrite s (w.elem s) else n) n

end Chan

/-- The objects of an interrupt controller (R467, R479, R484); `none`: another object. -/
def Node.icWrite (n : Node) (sub : Nat) (w : Written) : Option Node :=
  match sub with
  | 1 => some (n.putN (n.icKey 1) w.v)
  | 2 => some (Chan.icSrcWrite w n)
  | 0x0A => some (n.swiSet w.v)
  | _ => none

namespace Chan

/-- A direct write of an RW or WO object of the channel. -/
def act (c : Chan) (k : Nat) (w : Written) : Status × Chan :=
  let put : Status × Chan := (.ok, c.mapN (·.put k w.vals))
  let v := w.v
  let b := baseIndex (k / 256)
  let u := k / 256 - b
  if k = K.LANE_ROLE ∨ k = K.LK_LINK_WIDTH ∨ k = K.CXP_SPEED then c.laneConfigWrite k w
  else if b = 0x8108 ∧ k % 256 = 0x11 then (.ok, c.sensorTempSet u v)
  else if k = K.CXP_CTRL_TX then (.ok, c.cxpSend w.vals)
  else if k = K.CXP_CTRL_POP then (.ok, c.cxpPop)
  else if k = K.BL_REG_CMD then c.regCmdWrite v
  else if b = 0x8180 ∧ k % 256 = 2 then c.adaptModeWrite u v
  else if b = 0x8180 ∧ k % 256 = 0x15 then c.laneTestWrite u v
  else if b = 0x8180 ∧ k % 256 = 0x1C then (.ok, c.mapN (lanePrbsClear (0x818000 + 256 * u)))
  else if k = 0x818900 + 9 then c.scanCtrl v
  else if b = 0x8189 then (if c.scan.isSome then (.busy, c) else put)
  else if k = K.CORR_BANK0 ∨ k = K.CORR_BANK1 then c.bankWrite k w
  else if k = K.OPEN_SNAP then c.openSnapWrite
  else if k = K.STK_ENABLE then (.ok, c.strikeEnable v)
  else if k = K.CUE_SNAP then c.cueSnapWrite
  else if k = K.FREEZE_NOW then (.ok, c.freeze 0)
  else if k = K.FREEZE_RELEASE then c.freezeReleaseWrite
  else if k = K.RETAKE_CTRL then c.retakeCtrl v
  else if b = 0x8588 ∧ k % 256 = 0x0C then (.ok, c.kTest u)
  else if k = K.FREQ_SWITCH then c.freqSwitchWrite
  else if k = K.MEM_TRAIN then c.memTrainWrite
  else if k = K.MEM_TYPE then
    let c := c.mapN (·.put k w.vals)
    (.ok, if c.memState = 0 ∧ v ≠ 0 then Chan.trainStart (c.modMc fun m => { m with boot := if c.power.started then 0 else 1 }) else c)
  else if k = K.NBR_SEED then c.nbrSeedWrite v
  else if k = K.SR_TEST then c.srTestWrite v
  else if b = 0x8608 then c.timingWrite k w
  else if k = K.CMP_SUBMIT then c.cmpSubmitWrite w.vals
  else if k = K.CMP_ABORT then (.ok, c.cmpAbort (v == 2))
  else if k = K.CPL_RING_ADDR ∨ k = K.CPL_RING_SIZE ∨ k = K.CPL_WB_ADDR then c.cplWrite k w
  else if k = K.DMA_ENABLE then (.ok, c.dmaEnable v)
  else if b = 0x8708 ∧ k % 256 = 5 then c.threadCtrl u v
  else if b = 0x8708 ∧ k % 256 < 5 then c.threadSet u k w
  else if k = K.CTRACE_SEL then
    (.ok, c.mapN (·.put k (w.vals.mapIdx fun i x => if i = 0 then clrBit x 0 else if i = 5 then x % 2 else x)))
  else if b = 0x8780 then (match c.n.icWrite (k % 256) w with | some n => (.ok, { c with n := n }) | none => put)
  else put

/-- The direct writes a channel takes while it replays a journal (R368): 8580h-85FFh, ring read offsets, STK_ENABLE. -/
def replayTakes (k : Nat) : Bool :=
  (decide (0x8580 ≤ k / 256) && decide (k / 256 < 0x8600)) || k == K.STK_ENABLE ||
  [K.AUX_RING_RD, K.REC_RD, K.CROP_RD, K.PQ_RD, K.CPL_RD, K.C_LRING_RD].contains k

/-- A direct write to an object of the channel: W1C, or its action or setting; an accepted one is journaled (R360). -/
def direct (c : Chan) (k : Nat) (acc : Acc) (w : Written) : Status × Chan :=
  if c.replaying && !replayTakes k then (.busy, c) else
    let r : Status × Chan := match acc with
      | .w1c => (.ok, c.w1c k w.v)
      | _ => c.act k w
    match r with
    | (.ok, c) => (.ok, c.dictEntry k w.vals)
    | r => r

end Chan

end Sys2Proof.Machine
end

