-- ==== Sys2Proof/Machine/DictCommon.lean ====
section
/-!
DEFINITION. Direct writes to the objects of the common block, and the one entry for a direct write to any object (02 R37, R60, R96, R97; the
rules of the owning chapters).
-/

namespace Sys2Proof.Machine

/-! ## Timebase and network (R130-R139) -/

/-- What follows a change of the PTP settings of the ports (R139): a port that PTP runs on leaves DISABLED for LISTENING, and with
PTP_SLAVE_ONLY also MASTER and PASSIVE; another one is DISABLED and has no parent. -/
def ptpPorts (s : TimeNode) : TimeNode :=
  [0, 1].foldl (fun (s : TimeNode) p =>
    let (n, b) := s
    let st := n.num (netKey p 0x10)
    let leaves : Bool := st == 3 || (n.flag K.PTP_SLAVE_ONLY && (st == 6 || st == 7))
    if ptpOn n p then (if leaves then (n.putN (netKey p 0x10) 4, b) else s)
    else (n.putN (netKey p 0x10) 3, b.putPort p { b.port p with parent := none })) s

/-- Settings of the timebase whose write acts at once (R131, R135, R137). -/
def tbSet (k : Nat) (w : Written) (s : TimeNode) : TimeNode :=
  let (n, b) := s
  let n := n.put k w.vals
  if k = K.TB_HOST_ADJ then (if n.num K.TB_SOURCE = 3 then n.put K.TB_FREQ_ADJ w.vals else n, b)
  else if k = K.REF10M_ENABLE ∧ w.v = 0 then
    (n.putI 32 K.TB_FREQ_ADJ (n.sint 32 K.TB_FREQ_ADJ - b.tb.feed), { b with tb := { b.tb with feed := 0 } })
  else if k = K.PPS_OUT_MODE then (n, { b with tb := { b.tb with ppsOut := b.tb.ppsOut && ppsOutOn (n, b) } })
  else (n, b)

/-- An object of a network port's table or of 2130h written (R138, R139): a changed LINK_MODE takes the link down. -/
def netSet (k : Nat) (w : Written) (s : TimeNode) : TimeNode :=
  let was := s.1.elems k
  let s : TimeNode := (s.1.put k w.vals, s.2)
  if k % 256 = 1 ∧ k / 256 ≠ 0x2130 ∧ was ≠ w.vals then netLink (k / 256 / 16 - 0x211) false s
  else ptpPorts s

namespace State

/-- An act on duplex lane `d` with the common unit; a lane that is scanned does not adapt (R214). -/
def onDuplex (s : State) (d : Nat) (f : LaneNode → LaneNode) : State :=
  let r := f (s.common.n, s.common.lanes.getD d {})
  let r := if (s.common.scan.any fun sc => sc.lane == d) then laneFreeze (duplexKey d) r else r
  State.tidy { s with common := { s.common with n := r.1, lanes := listPut s.common.lanes d r.2 } }

/-- Duplex lane `d` is powered: a Boardwalk lane always, a NET lane by its LINK_MODE (R198). -/
def duplexOn (s : State) (d : Nat) : Bool :=
  if d < 2 then s.common.n.num (netKey d 1) != 0 else decide (d < 6)

/-- The running scan of duplex lane `d` ends (R214). -/
def duplexScanStop (s : State) (d status : Nat) : State :=
  match s.common.scan with
  | some sc =>
    if sc.lane = d then
      let r := scanEnd 0x21F800 status s.common.n
      { s with common := { s.common with n := r.1, scan := r.2 } }
    else s
  | none => s

/-- SCAN_CTRL of the duplex lanes (R214). -/
def duplexScan (s : State) (v : Nat) : Status × State :=
  if v = 1 then
    match scanCheck s.common.n 0x21F800 s.duplexOn s.common.scan with
    | 1 => (.range, s)
    | 2 => (.busy, s)
    | _ =>
      let r := scanStart 0x21F800 s.common.n
      let s : State := { s with common := { s.common with n := r.1, scan := r.2 } }
      let d := s.common.n.num 0x21F801
      (.ok, s.onDuplex d (laneFreeze (duplexKey d)))
  else (.ok, match s.common.scan with | some sc => s.duplexScanStop sc.lane 3 | none => s)

/-- LANE_TEST of a duplex lane (R209, R210): a NET port in a test mode loses its link, a Boardwalk lane its port. -/
def duplexTest (s : State) (d v : Nat) : Status × State :=
  if 4 < v then (.range, s) else
    let k := duplexKey d + 0x15
    let was := s.common.n.num k
    let s := if was = v then s else (s.duplexScanStop d 3).onDuplex d (lanePrbsReset (duplexKey d))
    let s := s.onN (·.putN k v)
    let s := if v = 3 then s.onDuplex d fun x => (x.1, { x.2 with los := false, lol := false }) else s
    if v = 0 then (.ok, s)
    else if d < 2 then (.ok, s.onTb (netLink d false))
    else
      let p := (d - 2) / 2
      (.ok, if s.ring.portState p = 0 then s else s.onBw (·.portChange p 0))

/-- ADAPT_MODE of a duplex lane (R203). -/
def duplexAdapt (s : State) (d v : Nat) : Status × State :=
  let s := if s.common.n.num (duplexKey d + 2) = v then s else s.duplexScanStop d 3
  (.ok, s.onDuplex d (laneAdaptMode (duplexKey d) v))

/-- What the transmit pins of duplex lane `d` carry (R209). -/
def duplexTx (s : State) (d : Nat) : LaneTx := laneTx (duplexKey d) (s.common.n.num 0x21F901) s.common.n

/-- After an act on the duplex tables, what the pins carry anew (R209). -/
def duplexPins (was s : State) : State :=
  (List.range 6).foldl (fun s d => if was.duplexTx d = s.duplexTx d then s else s.mapN (·.emit (.laneTx d (s.duplexTx d)))) s

/-- LINK_MODE of a network port (R138, R198): its lane starts anew, or is powered down in 0; a scan of it ends. -/
def linkModeWrite (s : State) (p : Nat) (w : Written) : Status × State :=
  let was := s.common.n.num (netKey p 1)
  let s := s.onTb (netSet (netKey p 1) w)
  if was = w.v then (.ok, s) else (.ok, (s.duplexScanStop p 3).onDuplex p (laneOff (duplexKey p)))

/-- An object of the duplex tables at 21F0h to 21F9h. -/
def duplexAct (s : State) (k : Nat) (w : Written) : Status × State :=
  let d := k / 256 - 0x21F0
  let put : Status × State := (.ok, s.onN (·.put k w.vals))
  if k / 256 = 0x21F8 then
    (if k % 256 = 9 then s.duplexScan w.v else if s.common.scan.isSome then (.busy, s) else put)
  else if k / 256 = 0x21F9 then put
  else match k % 256 with
    | 2 => s.duplexAdapt d w.v
    | 0x15 => s.duplexTest d w.v
    | 0x1C => (.ok, s.onN (lanePrbsClear (duplexKey d)))
    | 0x21 => if txFirOk w.vals then put else (.range, s)
    | _ => put

/-! ## Slate control (R38, R41, R97) -/

/-- A period of automatic Slates written (R41). On a member it is ignored (R556), but for its value. -/
def autoWrite (s : State) (k v : Nat) : Status × State :=
  let old := s.common.n.num k
  let fail : Option (Status × State) :=
    if v = 0 ∨ s.ring.bound = true then none
    else match firstFail s.namingOf with
      | some st => some (st, s.countFails s.namingOf fun _ => 0)
      | none => none
  match fail with
  | some r => r
  | none =>
    let s := s.onN (·.putN k v)
    if k = K.AUTO_PERIOD_POS then
      (.ok, if v ≠ 0 ∧ v ≠ old then s.modSlate fun q => { q with multiple := multipleBelow v s.pos } else s)
    else (.ok, s.modSlate fun q => { q with origin := s.common.n.now })

/-! ## Store, calibration (R64, R505, R510-R518) -/

/-- No run on a channel: its head is measured no more. -/
def calSync (s : State) : State :=
  { s with chans := s.chans.map fun (c : Chan) =>
      match s.common.cal.run with
      | some r => if r.chan = c.num then c else { c with calHead := none }
      | none => { c with calHead := none } }

/-- A store write of area `a`, where the store takes one (R501, R505). -/
def storeAct (s : State) (a : Nat) (payload : List Nat) : Status × State :=
  match storeReject s.common.n with
  | some st => (st, s)
  | none => (.ok, s.onCal (storeStart a payload))

/-- The lanes of the device as the trims number them: 48 camera lanes, 6 duplex lanes, those that are enabled (R510). -/
def trimLane (s : State) (l : Nat) : Option (Node × Nat × Lane) :=
  if h : l / 8 < 6 then
    let c := s.chan ⟨l / 8, h⟩
    if c.laneOn (l % 8) && !c.inReset then some (c.n, 0x818000 + 256 * (l % 8), c.lane (l % 8)) else none
  else if s.duplexOn (l - 48) then some (s.common.n, duplexKey (l - 48), s.common.lanes.getD (l - 48) {})
  else none

/-- The trims of lane `l`, as the trim sets number it, at the temperature of its sensor (R207, R509). -/
def trimAt (s : State) (l : Nat) : State :=
  let t := laneSensor s.common.n l
  let set := trimsFor (s.common.n.elems K.TRIM_IMAGE) l t
  if h : l / 8 < 6 then s.onUp ⟨l / 8, h⟩ fun x => x.onLane (l % 8) (laneTrims (0x818000 + 256 * (l % 8)) (l % 8) t set)
  else s.onDuplex (l - 48) (laneTrims (duplexKey (l - 48)) (l - 48) t set)

/-- TRIM_CAPTURE (R510): what was captured is taken at once. -/
def trimCaptureAct (s : State) : State := (List.range 54).foldl trimAt (s.onN (trimCapture s.trimLane))

/-- CAL_CTRL (R512, R513). -/
def calCtrl (s : State) (v : Nat) : Status × State :=
  if v = 1 then
    if h : s.common.n.num K.CAL_CHANNEL < 6 then
      let c : Fin 6 := ⟨s.common.n.num K.CAL_CHANNEL, h⟩
      let x := s.chan c
      match calReject (s.common.n, s.common.cal) x (x.bankStaged (workingBank x)) with
      | some st => (st, s)
      | none =>
        let (cn, x) := calStart (s.common.n, s.common.cal) x
        (.ok, State.settle { s with common := { s.common with n := cn.1, cal := cn.2 } } c x)
    else (.range, s)
  else (.ok, match s.common.cal.run with | some _ => (s.onCal (calAbort 1 0)).calSync | none => s)

/-- The device stages CORR_BANK_SEL naming the working bank of a channel (R516, R518): whether it was accepted (R35, R237, R369). -/
def stageBank (s : State) (c : Fin 6) : Bool × State :=
  let x := s.chan c
  let e : Staged := { key := K.CORR_BANK_SEL, val := [workingBank x] }
  let bank := if workingBank x = 0 then K.CORR_BANK0 else K.CORR_BANK1
  if stageFull x.slate.staged K.CORR_BANK_SEL || x.slate.openDirect.contains bank || x.replaying then (false, s)
  else (true, (s.putChan c { x with slate := { x.slate with staged := stagePut x.slate.staged e } }).mapN (putPrepared c.val false))

/-- PIX_SAVE of channel `v` (R518). -/
def pixSave (s : State) (v : Nat) : Status × State :=
  if h : v < 6 then
    let x := s.chan ⟨v, h⟩
    match storeReject s.common.n with
    | some st => (st, s)
    | none => if x.front.fading.isSome then (.busy, s) else s.storeAct (2 + v) (pixPayload s.common.cal v x)
  else (.range, s)

/-- PIX_LOAD of channel `v` (R518). Whether its slot has turned bad since it was last checked is the store's own: a free bit. -/
def pixLoadAct (s : State) (v : Nat) : Status × State :=
  if h : v < 6 then
    let c : Fin 6 := ⟨v, h⟩
    let x := s.chan c
    match storeReject s.common.n with
    | some st => (st, s)
    | none =>
      if x.bankInUse (workingBank x) || x.bankStaged (workingBank x) then (.busy, s) else
        let (bad, n) := s.common.n.takeFree 1
        let (r, n) := n.takeFree 32
        let (cn, x, loaded) := pixLoad v (if bad = 1 then some r else none) (n, s.common.cal) x
        let s := State.settle { s with common := { s.common with n := cn.1, cal := cn.2 } } c x
        if !loaded then (.ok, s)
        else
          let s := s.mapN (putPrepared v true)
          (.ok, if s.common.n.flag K.PIX_LOAD_APPLY then (s.stageBank c).2 else s)
  else (.range, s)

/-! ## Host port, power, logbook -/

/-- WRITER_RELEASE (R459): the whole write or nothing. -/
def writerRelease (s : State) (w : Written) : Status × State :=
  let fs := (List.finRange 7).filter fun f => w.gives f.val 1
  if fs.any fun f => !(s.fnNode f).fn.busMaster then (.busy, s)
  else (.ok, fs.foldl (fun s f => s.onFn f fun n => { n with fn := { n.fn with held := false } }) s)

/-- CHMEM_WIN_BASE (R461): each element written is a multiple of the window size in effect. -/
def winBase (s : State) (w : Written) : Status × State :=
  let ok := (List.range 6).all fun c => !w.carries c || w.elem c % 2 ^ s.common.host.winSize.getD c 0 == 0
  if ok then (.ok, s.onN (·.put K.CHMEM_WIN_BASE w.vals)) else (.range, s)

/-- CH_RESET (R532). -/
def chResetWrite (s : State) (w : Written) : Status × State :=
  (.ok, (List.finRange 6).foldl (fun s c =>
    if !w.carries c.val then s
    else
      let s := s.onN (·.putE K.CH_RESET c.val (w.elem c.val))
      if w.elem c.val = 1 then s.chanReset c else s.chanRelease c) s)

/-- PWR_WAKE (R527). -/
def pwrWakeAct (s : State) (w : Written) : Status × State :=
  (.ok, (List.finRange 6).foldl (fun s c => if w.gives c.val 1 then s.onUp c Chan.pwrWakeWrite else s) s)

/-- TRACE_LOG2 reaches every origin (R485). -/
def traceLog2Write (s : State) (v : Nat) : Status × State :=
  let s := s.onN fun n => { n.putN K.TRACE_LOG2 v with traceLog2 := v }
  (.ok, { s with chans := s.chans.map fun (c : Chan) => c.mapN fun n => { n with traceLog2 := v } })

/-- NET_IPV4_ADDR (R96): the sessions of the ports written are closed. -/
def ipWrite (s : State) (w : Written) : Status × State :=
  let s := s.mapN (·.put K.NET_IPV4_ADDR w.vals)
  let keep (p : Nat) : Bool := !w.carries p
  let s : State := { s with common := { s.common with
    server := { s.common.server with sessions := s.common.server.sessions.filter fun x => keep x.port,
                                     subs := s.common.server.subs.filter fun x => keep x.port },
    logs := { s.common.logs with dstMac := none } } }
  (.ok, s.tidy)

/-- The UDP stream's destination or path to it changes: it must be resolved again (R495). -/
def udpSet (s : State) (k : Nat) (w : Written) : Status × State :=
  let s := s.mapN (·.put k w.vals)
  (.ok, State.tidy { s with common := { s.common with logs := { s.common.logs with dstMac := none } } })

/-- Bits of a W1C object of the common block written as 1 are cleared, with what their clearing ends (R60, R61, R105, R115). -/
def w1c (s : State) (k v : Nat) : State :=
  let s := s.onN fun n => n.putN k (andNot (n.num k) (andNot v (s.heldFlags k)))
  if k % 256 = 0x0D ∧ 0x2000 ≤ k / 256 ∧ k / 256 < 0x2080 then
    let s := if bit v 3 then s.onN (fun n => n.putN (k + 4) (n.num (k + 4) / 8 * 8)) else s
    if bit v 4 then s.onEnc (wpSelect false) else s
  else match laneSub k with
    | some (d, 0x0E) => if bit v 2 then s.onDuplex d (laneWanderClear (duplexKey d)) else s
    | _ => s

/-- The timed-action table, entry by entry (R143, R144). TA_ARG of an LMON_BURST is 0 to 65,536 (R143): a write that would leave TA_KIND 3
beside a larger one is out of range, of whichever of the two it is (DESIGN CHOICE, unsafe: log entry 2143). -/
def taWrite (s : State) (k : Nat) (w : Written) : Status × State :=
  let e := k / 256 - 0x2140
  let after (sub : Nat) : Nat := if k = taKey e sub then w.v else s.common.n.num (taKey e sub)
  if e = 63 then (.access, s)
  else if (k % 256 = 2 ∨ k % 256 = 4) ∧ after 2 = 3 ∧ 65536 < after 4 then (.range, s)
  else if k % 256 = 8 then (if w.v = 1 then s.taArm e else s.taDisarm e)
  else (.ok, s.onN (·.put k w.vals))

/-- A step of device time by a host write (R132). -/
def hostStep (s : State) (d : Int) : Status × State :=
  if s.common.n.num K.TB_SOURCE = 0 ∨ s.common.n.num K.TB_SOURCE = 3 then (.ok, s.onTime fun t => (tbStep d t, some d)) else (.access, s)

/-- The encoder, timebase, network and timed-action objects written. -/
def actTime (s : State) (k : Nat) (w : Written) : Status × State :=
  let i := k / 256
  if k = K.DEVIATION_RESET then (.ok, s.onEnc devReference)
  else if k = K.FAILBACK then (.ok, s.onEnc failback)
  else if k = K.TB_SOURCE then (.ok, s.onTb (tbSourceWrite w.v))
  else if k = K.TB_SET then s.hostStep ((ofTime64 w.v : Nat) - (s.common.n.now : Nat))
  else if k = K.TB_STEP_ADJ then s.hostStep (toSigned 64 w.v * 65536)
  else if i = 0x2100 ∨ i = 0x2101 then (.ok, s.onTb (tbSet k w))
  else if k = netKey 0 1 then s.linkModeWrite 0 w
  else if k = netKey 1 1 then s.linkModeWrite 1 w
  else if i = 0x2110 ∨ i = 0x2120 ∨ i = 0x2130 then (.ok, s.onTb (netSet k w))
  else if 0x2140 ≤ i ∧ i < 0x2180 then s.taWrite k w
  else if 0x21F0 ≤ i ∧ i < 0x2200 then (let r := s.duplexAct k w; (r.1, s.duplexPins r.2))
  else (.ok, s.onN (·.put k w.vals))

/-- A direct write of an RW or WO object of the common block. -/
def act (s : State) (k : Nat) (w : Written) : Status × State :=
  let put : Status × State := (.ok, s.onN (·.put k w.vals))
  let v := w.v
  if 0x2000 ≤ k / 256 ∧ k / 256 < 0x2200 then s.actTime k w
  else if k = K.NET_IPV4_ADDR then s.ipWrite w
  else if k = K.NET_IPV4_MASK ∨ k = K.NET_IPV4_GW ∨ k = K.UDP_DST_ADDR ∨ k = K.UDP_PORT_SEL then s.udpSet k w
  else if k = K.PERSIST_SAVE then s.storeAct 0 s.persistItems
  else if k = K.PERSIST_CLEAR then s.storeAct 0 []
  else if k = K.SLATE_NAME_POS then (let r := s.namePos (toSigned 64 v); (r.1, r.2.2))
  else if k = K.SLATE_NAME_TIME then (let r := s.nameTime (ofTime64 v); (r.1, r.2.2))
  else if k = K.SLATE_CANCEL then s.cancelSlate
  else if k = K.STAGE_DISCARD then (.ok, s.discard)
  else if k = K.AUTO_PERIOD_POS ∨ k = K.AUTO_PERIOD_TIME then s.autoWrite k v
  else if k = K.WRITER_RELEASE then s.writerRelease w
  else if k = K.CHMEM_WIN_BASE then s.winBase w
  else if k / 256 = 0x2440 then (match s.common.n.icWrite (k % 256) w with | some n => (.ok, s.onN fun _ => n) | none => put)
  else if k = K.TRACE_LOG2 then s.traceLog2Write v
  else if k = K.TRACE_SEL then (.ok, s.onN (·.put k (w.vals.mapIdx fun i x => if i = 0 then clrBit x 0 else x)))
  else if k = K.LOG_MARK then (.ok, s.onN (·.event 0x300 v))
  else if k = K.BUF_RD then (.ok, s.onLog (bufRd v))
  else if k = K.TRIM_CAPTURE then (.ok, s.trimCaptureAct)
  else if k = K.TRIM_SAVE then s.storeAct 1 (workingImage s.common.n)
  else if k = K.CAL_CTRL then s.calCtrl v
  else if k = K.PIX_SAVE then s.pixSave v
  else if k = K.PIX_LOAD then s.pixLoadAct v
  else if k = K.PWR_WAKE then s.pwrWakeAct w
  else if k = K.CH_RESET then s.chResetWrite w
  else if k = K.DEVICE_RESET then (.ok, { s with common := { s.common with resetDue := true } })
  else if k = K.BW_ROLE then (.ok, s.onRing (·.roleWrite v))
  else if k = K.BW_FALLBACK then (.ok, s.onRing (·.fallbackWrite v))
  else if k = K.MON_CLEAR then (.ok, s.onN monClear)
  else put

/-- A direct write to any object (R37, R60); its type and range have been checked. A host write to a working bank ends its prepared state
(R511). -/
def direct (s : State) (p : Place) (w : Written) : Status × State :=
  match p.chan with
  | none => match p.row.acc with
    | .w1c => (.ok, s.w1c p.key w.v)
    | _ => s.act p.key w
  | some c =>
    let r := (s.chan c).direct p.key p.row.acc w
    match r.1 with
    | .ok =>
      let s := s.settle c r.2
      (.ok, if p.key = K.CORR_BANK0 ∨ p.key = K.CORR_BANK1 then s.mapN (putPrepared c.val false) else s)
    | st => (st, s)

end State

end Sys2Proof.Machine
end

