-- ==== Sys2Proof/Machine/DictServer.lean ====
section
/-!
DEFINITION. The dictionary server: what reaches an object and what is turned away (02 R60, R62, R68; 12 R368), staged writes with their
set-wide checks (01 R34-R36, R41, R53, R591; 02 R71, R78), segmented writes, and the paths of BAR0 (02 R86-R94).
-/

namespace Sys2Proof.Machine

/-! ## A written value (R58, R59, R71) -/

/-- A segment: its byte offset, and MORE. -/
structure Segment where
  off : Nat
  more : Bool
deriving DecidableEq, Repr

/-- Bytes of a segment put over a value; a gap beyond its end reads zero (R94). -/
def overlay (base : List Nat) (off : Nat) (data : List Nat) : List Nat :=
  base.take off ++ zeros (off - base.length) ++ data ++ base.drop (off + data.length)

/-- The object's shorter writes replace only the bytes written (R59). -/
def ObjInfo.patched (r : ObjInfo) : Bool :=
  match r.shape with
  | .bytes _ _ short => short
  | _ => false

/-- The value a write makes: whole, or the leading bytes or a segment over `base` (R59, R71, R75). -/
def ObjInfo.incoming (r : ObjInfo) (base : List Nat) (seg : Option Segment) (data : List Nat) : Except Status Written :=
  match seg with
  | none =>
    match r.checkBytes data with
    | .error st => .error st
    | .ok vs => .ok { vals := if r.patched then vs ++ base.drop vs.length else vs, hi := if data.isEmpty ∧ r.isScalar = false then 0 else 2 ^ 20 }
  | some x =>
    if r.isScalar then .error .type
    else if r.maxBytes < x.off + data.length then .error .range
    else
      let vs := r.mask (r.decodeVals (overlay base x.off data))
      let z := max 1 r.ty.size
      let lo := x.off / z
      let hi := cdiv (x.off + data.length) z
      if r.chk.okPart r vs lo hi then .ok { vals := vs, lo := lo, hi := hi } else .error .range

namespace State

/-! ## Reaching an object (R68) -/

/-- A request for an object of a sleeping channel is a wake cause, whether or not the channel then answers (R68). -/
def wakeFor (s : State) (p : Place) : State :=
  match p.chan with
  | none => s
  | some c =>
    let x := s.chan c
    if x.inReset = true ∨ (x.power.st = .run ∧ x.power.phase = .steady) then s else s.onChan c (·.wakeCause)

/-- A request reaches the object's channel, which it wakes; `mute`: a channel that does not answer within 10 µs (R23). -/
def reach (s : State) (mute : Option (Fin 6)) (p : Place) : Except Status State :=
  match p.chan with
  | none => .ok s
  | some c =>
    if (s.chan c).inReset then .error .channelDown
    else if mute = some c then .error .timeout
    else .ok (s.wakeFor p)

/-- The keys with an open direct segmented write, where the object lies. -/
def openDirect (s : State) (p : Place) : List Nat :=
  match p.chan with
  | none => s.common.slate.openDirect
  | some c => (s.chan c).slate.openDirect

/-- Open or close the direct segmented write of an object (R71). -/
def setOpenDirect (s : State) (p : Place) (on : Bool) : State :=
  let set' (l : List Nat) : List Nat := if on then (if l.contains p.key then l else l ++ [p.key]) else l.filter (· != p.key)
  match p.chan with
  | none => s.modSlate fun q => { q with openDirect := set' q.openDirect }
  | some c => let x := s.chan c; s.putChan c { x with slate := { x.slate with openDirect := set' x.slate.openDirect } }

/-- A write of SLATE_NAME_POS or SLATE_NAME_TIME that is turned away leaves no Slate pending (R38). -/
def nameFail (s : State) (p : Place) : State :=
  if p.chan = none ∧ (p.key = K.SLATE_NAME_POS ∨ p.key = K.SLATE_NAME_TIME) then s.rejectNaming else s

/-- What a segment of a direct write is laid over (R59): bits that a written 1 clears are 0 in the bytes it does not carry (R60, R463). -/
def writeBase (s : State) (p : Place) : List Nat :=
  match p.row.acc with
  | .w1c => (p.row.encodeVals (s.value p)).map fun _ => 0
  | _ =>
    if p.key = K.IC_SRC_CFG ∨ p.key = K.C_IC_SRC_CFG then p.row.encodeVals ((s.value p).map (clrBit · 30)) else s.valueBytes p

/-- A direct write item: of an RW, WO or W1C object (R60, R62). The channel is reached, and woken, before the item is checked (R68). -/
def writeItem (s : State) (mute : Option (Fin 6)) (p : Place) (seg : Option Segment) (data : List Nat) : Status × State :=
  match s.reach mute p with
  | .error st => (st, s.wakeFor p)
  | .ok s =>
    match p.row.acc with
    | .rw | .wo | .w1c =>
      if p.key / 256 = 0x217F then (.access, s) else
      match p.row.incoming (s.writeBase p) seg data with
      | .error st => (st, s.nameFail p)
      | .ok w =>
        match s.direct p w with
        | (.ok, s) => (.ok, match seg with | some x => s.setOpenDirect p x.more | none => s)
        | r => r
    | _ => (.access, s)

/-! ## Staged writes -/

/-- The staged entries of the area an object belongs to. -/
def stagedOf (s : State) (c : Option (Fin 6)) : List Staged :=
  match c with
  | none => s.common.slate.staged
  | some c => (s.chan c).slate.staged

/-- Put an entry into the staging area it belongs to. -/
def stageOne (s : State) (p : Place) (e : Staged) : State :=
  match p.chan with
  | none => s.modSlate fun q => { q with staged := stagePut q.staged e }
  | some c => let x := s.chan c; s.putChan c { x with slate := { x.slate with staged := stagePut x.slate.staged e } }

/-- The first check of a staged item on its own (R59, R60, R78): the entry it would make. -/
def stageCheck (s : State) (p : Place) (seg : Option Segment) (data : List Nat) : Except Status Staged :=
  match p.row.acc with
  | .rs =>
    let replay := match p.chan with | some c => (s.chan c).replaying | none => false
    if replay then .error .busy else
      let base := match seg, stagedFind (s.stagedOf p.chan) p.key with
        | some _, some e => if e.isOpen then p.row.encodeVals e.val else s.valueBytes p
        | _, _ => s.valueBytes p
      match p.row.incoming base seg data with
      | .error st => .error st
      | .ok w =>
        let bank := if w.v = 0 then K.CORR_BANK0 else K.CORR_BANK1
        if p.key = K.CORR_BANK_SEL ∧ (s.openDirect p).contains bank = true then .error .busy
        else .ok { key := p.key, val := w.vals, isOpen := match seg with | some x => x.more | none => false }
  | _ => .error .access

/-- Staged writes are checked as a naming: while a Slate is pending or a period is set, and on a member (R41, R53, R556). -/
def stageChecks (s : State) : Bool :=
  s.common.slate.pending != .none || s.common.n.num K.AUTO_PERIOD_POS != 0 || s.common.n.num K.AUTO_PERIOD_TIME != 0 || s.ring.bound

/-- The items that need an entry in a full area (R35, R78), in order. -/
def stageFulls (s : State) : List (Place × Staged) → List Bool
  | [] => []
  | (p, e) :: r =>
    if stageFull (s.stagedOf p.chan) e.key then true :: stageFulls s r else false :: stageFulls (s.stageOne p e) r

/-- A set of staged writes as one write (R43, R78): the status of each item, the status of all, and the state with all of them or none
staged. A check of the set that fails although no item enters it leaves every item OK; the set is not staged, and the status of all is the
check's (DESIGN CHOICE, safe: log entry 1078). -/
def stageSet (s : State) (items : List (Place × Staged)) : List Status × Status × State :=
  let fulls := s.stageFulls items
  let firstBad (l : List Status) : Status := (l.find? (· != .ok)).getD .ok
  if fulls.any id then
    let l := fulls.map fun b => if b then Status.stagingFull else .ok
    (l, firstBad l, s)
  else
    let t := items.foldl (fun s x => s.stageOne x.1 x.2) s
    if !s.stageChecks then (items.map fun _ => .ok, .ok, t)
    else
      let fails := t.namingOf
      match firstFail fails with
      | none => (items.map fun _ => .ok, .ok, t)
      | some st =>
        let statusOf (x : Place × Staged) : Status :=
          match (fails.filter fun f => x.1.chan == some f.1).flatMap (·.2) |>.find? (fun f => f.keys.contains x.1.key) with
          | some f => f.status
          | none => .ok
        let l := items.map statusOf
        let first (c : Fin 6) : Nat :=
          match items.find? fun x => x.1.chan == some c && statusOf x != .ok with
          | some x => x.1.index
          | none => 0
        let all := firstBad l
        (l, if all = .ok then st else all, s.countFails fails first)

/-- One staged write (R53, R93). -/
def stageItem (s : State) (mute : Option (Fin 6)) (p : Place) (seg : Option Segment) (data : List Nat) : Status × State :=
  match s.reach mute p with
  | .error st => (st, s.wakeFor p)
  | .ok s =>
    match s.stageCheck p seg data with
    | .error st => (st, s)
    | .ok e => (s.stageSet [(p, e)]).2

/-- An open segmented entry of an object is closed (R71); where staged writes are checked, a failing close is turned away. -/
def closeOpen (s : State) (p : Place) : Status × State :=
  let s := s.setOpenDirect p false
  match stagedFind (s.stagedOf p.chan) p.key with
  | some e => if e.isOpen then (s.stageSet [(p, { e with isOpen := false })]).2 else (.ok, s)
  | none => (.ok, s)

/-! ## BAR0 (R86-R94) -/

/-- The object a slot address names in the slots of function `f`, by index and subindex, and the byte in the slot (R91). -/
def slotAt (f : Fin 7) (addr : Nat) : Option (Nat × Nat × Nat) :=
  let base := if f.val = 0 then 0x1000000 else 0x800000
  let size := if f.val = 0 then 0x3000000 else 0x800000
  if addr < base ∨ base + size ≤ addr then none
  else
    let o := addr - base
    let i := if f.val = 0 then 0x1000 + o / 0x1000 else 0x8000 + 0x800 * (f.val - 1) + o / 0x1000
    some (i, o / 16 % 256, o % 16)

/-- A BAR access of function `f` is turned away (R93): BAR_ERR, its count, and source 178 or the channel's 153. -/
def barReject (s : State) (f : Fin 7) (index sub : Nat) (st : Status) : State :=
  s.onFn f fun n =>
    let n := { n with fn := { n.fn with barErr := index % 65536 * 65536 + sub % 256 * 256 + st.code, barErrCount := wrap 32 (n.fn.barErrCount + 1) } }
    n.occur (if f.val = 0 then 178 else 153)

/-- The 16 bytes of a slot (R91, R92). -/
def slotBytes (s : State) (p : Place) : List Nat :=
  let bs := s.valueBytes p
  if p.row.isScalar then bs ++ zeros (16 - bs.length)
  else leBytes 4 (match p.row.acc with | .wo => 0 | _ => bs.length) ++ leBytes 4 p.row.maxBytes ++ zeros 8

/-- The slot of an index and subindex is captured (R92): its bytes, or the status a rejected read ends with. An unused one reads zero. -/
def slotCapture (s : State) (mute : Option (Fin 6)) (index sub : Nat) : State × Except Status (List Nat) :=
  match place index sub with
  | none => (s, .ok (zeros 16))
  | some p =>
    match s.reach mute p with
    | .error st => (s.wakeFor p, .error st)
    | .ok s => (s, .ok (if p.row.isScalar = true ∧ p.row.acc = .wo then zeros 16 else s.slotBytes p))

/-- An access of a slot is of 4 or 8 bytes, aligned to its size (R92). -/
def slotSizeOk (addr size : Nat) : Bool := (size == 4 || size == 8) && addr % size == 0

/-- A read of a slot (R92): the bytes returned. -/
def slotRead (s : State) (mute : Option (Fin 6)) (f : Fin 7) (index sub off size : Nat) : State × List Nat :=
  if !slotSizeOk off size then (s.barReject f index sub .type, List.replicate size 255) else
    let id := index * 256 + sub
    let fresh (s : State) : State × List Nat :=
      match s.slotCapture mute index sub with
      | (s, .error st) => (s.barReject f index sub st, List.replicate size 255)
      | (s, .ok bs) => (s.onFn f fun n => { n with fn := { n.fn with readLatch := some (id, bs) } }, slice bs off size)
    match (s.fnNode f).fn.readLatch with
    | some (j, bs) => if j = id ∧ 4 ≤ off then (s, slice bs off size) else fresh s
    | none => fresh s

/-- A write that takes effect: direct or staged by the object's access (R62). -/
def barEffect (s : State) (mute : Option (Fin 6)) (p : Place) (seg : Option Segment) (data : List Nat) : Status × State :=
  match p.row.acc with
  | .rs => s.stageItem mute p seg data
  | _ => s.writeItem mute p seg data

/-- A rejected BAR write is recorded. -/
def barEnd (f : Fin 7) (index sub : Nat) (r : Status × State) : State :=
  match r.1 with
  | .ok => r.2
  | st => r.2.barReject f index sub st

/-- An access of a naming object by the wrong size is a naming turned away (R38). -/
def slotMiss (s : State) (index sub : Nat) : State :=
  match place index sub with
  | some p => s.nameFail p
  | none => s

/-- A write of a slot (R92): held in the write latch until the write that covers the highest value byte arrives. Bytes no write has brought
are open. R93 leaves the codes open: an access of another size is recorded as TYPE, a write to an unused slot as NO_OBJECT, one to the slot
of a STR, BLOB or ARRAY as ACCESS (DESIGN CHOICE, unsafe: log entry 1093). -/
def slotWrite (s : State) (mute : Option (Fin 6)) (f : Fin 7) (index sub off : Nat) (data : List Nat) : State :=
  let size := data.length
  if !slotSizeOk off size then (s.slotMiss index sub).barReject f index sub .type else
    match place index sub with
    | none => s.barReject f index sub .noObject
    | some p =>
      if p.row.isScalar = false then s.barReject f index sub .access else
        let n := p.row.ty.size
        let id := index * 256 + sub
        let setLatch (s : State) (l : Option (Nat × List Nat)) : State := s.onFn f fun m => { m with fn := { m.fn with writeLatch := l } }
        if n ≤ off then s
        else if n ≤ off + size ∧ off = 0 then barEnd f index sub (s.barEffect mute p none (data.take n))
        else
          let held : Option (List Nat) := match (s.fnNode f).fn.writeLatch with | some (j, bs) => if j = id then some bs else none | none => none
          if off + size < n then
            let before := match held with | some bs => bs.take off | none => []
            let behind := match held with | some bs => bs.drop (off + size) | none => []
            setLatch s (some (id, before ++ List.replicate (off - before.length) 256 ++ data ++ behind))
          else
            let got := match held with | some bs => bs.take off | none => []
            let got := got ++ List.replicate (off - got.length) 256
            let (x, m) := (s.fnNode f).takeFree (8 * n)
            let free := leBytes n x
            let s := if got.contains 256 then s.onFn f fun _ => m else s
            let low := got.mapIdx fun i b => if b = 256 then free.getD i 0 else b
            let s := setLatch s none
            barEnd f index sub (s.barEffect mute p none ((low ++ data).take n))

/-- The BARs of function `f` hold the objects of an index: PF0 those of the common block, PF(c+1) those of channel c (R86, R87). -/
def barMaps (f : Fin 7) (index : Nat) : Bool :=
  if f.val = 0 then decide (index < 0x8000) else decide (index / 0x800 = 0x10 + (f.val - 1))

/-- The object the large-object window of function `f` maps, and the object offset of its byte 0 (R88, R94). -/
def windowOf (s : State) (f : Fin 7) : Option Place × Nat × Nat × Nat :=
  let x := (s.fnNode f).fn
  let index := x.lowSelect / 65536
  let sub := x.lowSelect / 256 % 256
  let p := if barMaps f index then place index sub else none
  (p.bind fun p => if p.row.isScalar then none else some p, x.lowOffset / 2 ^ 20 * 2 ^ 20, index, sub)

/-- A read of the large-object window (R94). -/
def windowRead (s : State) (mute : Option (Fin 6)) (f : Fin 7) (off size : Nat) : State × List Nat :=
  let (p, base, index, sub) := s.windowOf f
  match p with
  | none => (s, zeros size)
  | some p =>
    match s.reach mute p with
    | .error st => ((s.wakeFor p).barReject f index sub st, List.replicate size 255)
    | .ok s =>
      let bs := match p.row.acc with | .wo => [] | _ => slice (s.valueBytes p) (base + off) size
      (s, bs ++ zeros (size - bs.length))

/-- A write of the large-object window (R94). One with a scalar selected is recorded as TYPE, with nothing selected as NO_OBJECT (DESIGN
CHOICE, unsafe: log entry 1093). -/
def windowWrite (s : State) (mute : Option (Fin 6)) (f : Fin 7) (off : Nat) (data : List Nat) : State :=
  let (p, base, index, sub) := s.windowOf f
  match p with
  | none => s.barReject f index sub (if (place index sub).isSome then .type else .noObject)
  | some p => barEnd f index sub (s.barEffect mute p (some { off := base + off, more := (s.fnNode f).fn.lowMore }) data)

/-- LOW_CTRL CLOSE (R71, R88). -/
def lowClose (s : State) (f : Fin 7) : State :=
  let (p, _, index, sub) := s.windowOf f
  match p with
  | none => s
  | some p => barEnd f index sub (s.closeOpen p)

end State

end Sys2Proof.Machine
end

