-- ==== Sys2Proof/Machine/KdpEngine.lean ====
section
/-!
DEFINITION. The Karenent Dictionary Protocol (02 R69-R90): what a message's operation does and answers, sessions and retry, subscriptions and
notifications, the mailbox of PF0.
-/

namespace Sys2Proof.Machine

/-- What the operation of a message answers: header status, GENERATION, payload. -/
structure KdpAns where
  status : Status
  gen : Nat
  payload : List Nat := []
deriving DecidableEq, Repr

/-- One answered item: its status, the value's bytes, its TYPE code, and the generation of a published value. -/
structure ItemAns where
  status : Status
  bytes : List Nat := []
  ty : Nat := 0
  gen : Option Nat := none
deriving DecidableEq, Repr

/-- The segment of a written item (R75). -/
def KdpItem.seg (i : KdpItem) : Option Segment := if i.segment then some { off := i.offset, more := i.more } else none

/-- A value padded to a multiple of 4 (R75). -/
def pad4 (bs : List Nat) : List Nat := bs ++ zeros ((4 - bs.length % 4) % 4)

/-- An answer item with its value. -/
def ItemAns.encode (i : KdpItem) (a : ItemAns) : List Nat := answerItem i a.status a.bytes.length a.ty ++ pad4 a.bytes

namespace State

/-! ## Operations on items (R69-R78) -/

/-- A published object has the generation a pin names, or why not (R70). Before its first publication an object stands at its reset value
under generation 0. -/
def pinCheck (s : State) (p : Place) (pin : Option Nat) : Status × Option Nat :=
  if !p.row.published then (.ok, none) else
    let g := (s.pubGen p).getD 0
    match pin with
    | none => (.ok, some g)
    | some x => if x = g then (.ok, some g) else if decide (0 < genOrder g x) then (.range, none) else (.genGone, none)

/-- What an item reads (R70), and in a SNAPSHOT of generation `pin` from a kept snapshot where a newer one has replaced it (R69). -/
def readBytes (s : State) (p : Place) (pin : Option Nat) (snap : Bool) : Status × Option Nat × List Nat :=
  match s.pinCheck p pin with
  | (.ok, g) => (.ok, g, s.valueBytes p)
  | (st, _) =>
    match (if snap then pin.bind (s.keptBytes p) else none) with
    | some bs => (.ok, pin, bs)
    | none => (st, none, [])

/-- The TYPE code of the object a request item names (R58, R75); 0 where it names none. -/
def itemType (i : KdpItem) : Nat := match place i.index i.sub with | some p => p.row.typeCode | none => 0

/-- A READ or SNAPSHOT item (R70, R75, R76) with `room` bytes for its value; `none` where a scalar does not fit. With DESC and SEGMENT both set
the descriptor is returned, of a scalar too, which R75 and R76 leave open (DESIGN CHOICE, unsafe: log entry 1075). -/
def readItem (s : State) (mute : Option (Fin 6)) (pin : Option Nat) (snap : Bool) (room : Nat) (i : KdpItem) : State × Option ItemAns :=
  match place i.index i.sub with
  | none => (s, some { status := .noObject })
  | some p =>
    match s.reach mute p with
    | .error st => (s.wakeFor p, some { status := st, ty := p.row.typeCode })
    | .ok s =>
      let fails (st : Status) : Option ItemAns := some { status := st, ty := p.row.typeCode }
      if i.desc then (s, if room < 16 then none else some { status := .ok, bytes := descriptor p.row (dfltOf p.key), ty := 0x0F })
      else if p.row.acc = .wo then (s, fails .access)
      else if i.segment = true ∧ p.row.isScalar = true then (s, fails .type)
      else
        match s.readBytes p pin snap with
        | (.ok, g, bs) =>
          if i.segment = true ∧ i.length ≠ 0 ∧ bs.length < i.offset then (s, fails .range)
          else
            let bs := if i.segment then slice bs i.offset i.length else bs
            if room < (pad4 bs).length then (s, if p.row.isScalar then none else fails .badLength)
            else (s, some { status := .ok, bytes := bs, ty := p.row.typeCode, gen := g })
        | (st, _, _) => (s, fails st)

/-- READ items in payload order (R77) with `room` bytes in all; `none` where the answer does not fit. -/
def readItems (mute : Option (Fin 6)) (pin : Option Nat) (snap : Bool) : State → Nat → List KdpItem → State × Option (List (KdpItem × ItemAns))
  | s, _, [] => (s, some [])
  | s, room, i :: r =>
    match s.readItem mute pin snap (room - 12 * (r.length + 1)) i with
    | (s, none) => (s, none)
    | (s, some a) =>
      match readItems mute pin snap s (room - 12 - (pad4 a.bytes).length) r with
      | (s, some l) => (s, some ((i, a) :: l))
      | (s, none) => (s, none)

/-- The answer to items with values (R73, R77). -/
def itemsAns (s : State) (l : List (KdpItem × ItemAns)) : KdpAns :=
  { status := if l.all (fun x => x.2.status == .ok) then .ok else .partialDone,
    gen := (l.findSome? fun x => x.2.gen).getD s.common.n.gen,
    payload := l.flatMap fun x => x.2.encode x.1 }

/-- An answer without items. -/
def bare (s : State) (st : Status) : KdpAns := { status := st, gen := s.common.n.gen }

/-- READ, or SNAPSHOT pinned to a generation (R69, R77). -/
def opRead (s : State) (mute : Option (Fin 6)) (pin : Option Nat) (snap : Bool) (room : Nat) (payload : List Nat) : State × KdpAns :=
  match kdpItems false 64 payload with
  | none => (s, s.bare .badLength)
  | some is =>
    match readItems mute pin snap s room is with
    | (s, some l) => (s, s.itemsAns l)
    | (s, none) => (s, s.bare .badLength)

/-- The earlier of two generations (R12). -/
def genMin (a b : Nat) : Nat := if genLe a b then a else b

/-- The newest generation that every published object among some has published (R69). -/
def commonGen (s : State) (ps : List Place) : Option Nat :=
  (ps.filter (·.row.published)).foldl (fun g p => let x := (s.pubGen p).getD 0; some (match g with | some y => genMin x y | none => x)) none

/-- SNAPSHOT (R69). -/
def opSnapshot (s : State) (mute : Option (Fin 6)) (room : Nat) (payload : List Nat) : State × KdpAns :=
  match kdpItems false 64 payload with
  | none => (s, s.bare .badLength)
  | some is => s.opRead mute (s.commonGen (is.filterMap fun i => place i.index i.sub)) true room payload

/-- The answer to items without values (R75). -/
def statusAns (s : State) (header : Status) (l : List (KdpItem × Status)) : KdpAns :=
  { status := header, gen := s.common.n.gen, payload := l.flatMap fun x => answerItem x.1 x.2 0 (itemType x.1) }

/-- One WRITE item. -/
def opWriteItem (s : State) (mute : Option (Fin 6)) (i : KdpItem) : Status × State :=
  match place i.index i.sub with
  | none => (.noObject, s)
  | some p => s.writeItem mute p i.seg i.data

/-- WRITE (R77): every item in payload order, each on its own. -/
def opWrite (s : State) (mute : Option (Fin 6)) (payload : List Nat) : State × KdpAns :=
  match kdpItems true 64 payload with
  | none => (s, s.bare .badLength)
  | some is =>
    let (s, l) := is.foldl (fun (a : State × List (KdpItem × Status)) i =>
      let r := a.1.opWriteItem mute i
      (r.2, a.2 ++ [(i, r.1)])) (s, [])
    (s, s.statusAns (if l.all (fun x => x.2 == .ok) then .ok else .partialDone) l)

/-- STAGE (R78): the first pass, then the checks on the whole set; all items or none. An item sees those before it in the set. -/
def opStage (s : State) (mute : Option (Fin 6)) (payload : List Nat) : State × KdpAns :=
  match kdpItems true 64 payload with
  | none => (s, s.bare .badLength)
  | some is =>
    let step (a : State × State × List (KdpItem × Except Status (Place × Staged))) (i : KdpItem) :
        State × State × List (KdpItem × Except Status (Place × Staged)) :=
      let (s, t, l) := a
      match place i.index i.sub with
      | none => (s, t, l ++ [(i, .error .noObject)])
      | some p =>
        match s.reach mute p with
        | .error st => (s.wakeFor p, t, l ++ [(i, .error st)])
        | .ok s =>
          match t.stageCheck p i.seg i.data with
          | .error st => (s, t, l ++ [(i, .error st)])
          | .ok e => (s, t.stageOne p e, l ++ [(i, .ok (p, e))])
    let (s, _, l) := is.foldl step (s, s, [])
    let statuses := l.map fun x => (x.1, match x.2 with | .error st => st | .ok _ => Status.ok)
    match statuses.find? (·.2 != .ok) with
    | some (_, st) => (s, s.statusAns st statuses)
    | none =>
      let items := l.filterMap fun x => match x.2 with | .ok y => some y | .error _ => none
      let (sts, header, s) := s.stageSet items
      (s, s.statusAns header ((l.map (·.1)).zip sts))

/-- The answer payload of a SLATE request (R80). -/
def slatePayload (gen : Nat) (committed late : Bool) : List Nat := leBytes 4 gen ++ [b2n committed + 2 * b2n late, 0, 0, 0]

/-- A naming answered (R80): on the root of a ring a late Slate has been decided and not yet committed. -/
def slateAns (r : Status × Bool × State) : State × KdpAns :=
  let (st, late, s) := r
  let done := late && !(s.ring.inRing && s.ring.isRoot)
  (s, { status := st, gen := s.common.n.gen, payload := slatePayload (if done then s.common.n.gen else 0) done late })

/-- SLATE (R80). A naming of the wrong length is turned away as every other (R38). -/
def opSlate (s : State) (payload : List Nat) : State × KdpAns :=
  if payload.length ≠ 16 then
    ((match field payload 0 1 with | 1 => s.rejectNaming | 2 => s.rejectNaming | _ => s), s.bare .badLength)
  else
    let plain (st : Status) (s : State) : State × KdpAns := (s, { status := st, gen := s.common.n.gen, payload := slatePayload 0 false false })
    match field payload 0 1 with
    | 1 => slateAns (s.namePos (toSigned 64 (field payload 4 8)))
    | 2 => slateAns (s.nameTime (ofTime64 (field payload 4 10)))
    | 3 => let r := s.cancelSlate; plain r.1 r.2
    | 4 => plain .ok s.discard
    | _ => plain .range s

/-! ## Sessions (R83, R84) and subscriptions (R81, R82) -/

/-- Change the server. -/
def modServer (s : State) (f : Server → Server) : State := { s with common := { s.common with server := f s.common.server } }

/-- A network port carries IPv4 traffic of the device: its link is up, no lane test runs, it has an address (R72, R138, R210). -/
def netUp (s : State) (p : Nat) : Bool :=
  s.common.n.num (netKey p 2) == 1 && s.common.n.num (duplexKey p + 0x15) == 0 && s.common.n.elem K.NET_IPV4_ADDR p != 0

/-- A port answers KDP (R72). -/
def kdpUp (s : State) (p : Nat) : Bool := s.netUp p && s.common.n.elem K.KDP_ENABLE p == 1

/-- An address is reached from a port: on its subnet, or by the gateway (R96). -/
def routed (s : State) (p ip : Nat) : Bool :=
  let m := s.common.n.elem K.NET_IPV4_MASK p
  Nat.land ip m == Nat.land (s.common.n.elem K.NET_IPV4_ADDR p) m || s.common.n.elem K.NET_IPV4_GW p != 0

/-- A KDP datagram leaves a port, from its address and UDP port 47810 (R72), where it can. -/
def udpOut (s : State) (p ip udp : Nat) (bytes : List Nat) : State :=
  if s.routed p ip then s.mapN (·.emit (.udp p (s.common.n.elem K.NET_IPV4_ADDR p) 47810 ip udp bytes)) else s

/-- Session idle time in ticks (R83, R96). -/
def idleTicks (s : State) : Nat :=
  let t := s.common.n.num K.KDP_SESSION_IDLE
  nsTicks ((if t = 0 then 3600 else t) * 1000000000)

/-- A session is the one of a source address, source port and SESSION. -/
def sessionIs (ip udp sid : Nat) (x : Session) : Bool := x.ip == ip && x.udp == udp && x.sid == sid

/-- Sessions that have ended are removed with their subscriptions (R83). -/
def expireSessions (s : State) : State :=
  let live (x : Session) : Bool := decide (s.common.n.mono < x.last + s.idleTicks)
  let kept := s.common.server.sessions.filter live
  s.modServer fun v => { v with sessions := kept, subs := v.subs.filter fun b => kept.any (sessionIs b.ip b.udp b.sid) }

/-- Subscriptions whose lease has run out are removed (R81). -/
def lapseSubs (s : State) : State :=
  let now := s.common.n.mono
  s.modServer fun v => { v with subs := v.subs.filter fun b => decide (now < b.lease) }

/-- The size of a notification of some objects at their longest (R81, R82). -/
def noteSize (ps : List Place) : Nat := ps.foldl (fun n p => n + 12 + (p.row.maxBytes + 3) / 4 * 4) 4

/-- SUBSCRIBE (R81) of a session. R81 leaves open, and the model chooses (DESIGN CHOICE, unsafe: log entry 1081): an item with SEGMENT or
DESC answers RANGE; items that fail give PARTIAL and no subscription; the fit in 1,448 bytes is judged by the objects' longest values. -/
def opSubscribe (s : State) (mute : Option (Fin 6)) (d : Datagram) (sid : Nat) (payload : List Nat) : State × KdpAns :=
  if payload.length < 4 then (s, s.bare .badLength) else
    let id := field payload 0 2
    let every := field payload 2 2
    let mine (b : Subscription) : Bool := b.ip == d.srcIp && b.udp == d.srcPort && b.sid == sid && b.id == id
    if every = 0 then (s.modServer fun v => { v with subs := v.subs.filter (!mine ·) }, s.bare .ok) else
      match kdpItems false 32 (payload.drop 4) with
      | none => (s, s.bare .badLength)
      | some is =>
        if is.any fun i => i.segment || i.desc then (s, s.bare .range) else
          let look (a : State × List (KdpItem × Status × Option Place)) (i : KdpItem) : State × List (KdpItem × Status × Option Place) :=
            match place i.index i.sub with
            | none => (a.1, a.2 ++ [(i, .noObject, none)])
            | some p =>
              match a.1.reach mute p with
              | .error st => (a.1.wakeFor p, a.2 ++ [(i, st, none)])
              | .ok s => (s, a.2 ++ [(i, if p.row.acc = .wo then .access else .ok, some p)])
          let (s, l) := is.foldl look (s, [])
          let statuses := l.map fun x => (x.1, x.2.1)
          if statuses.any (·.2 != .ok) then (s, s.statusAns .partialDone statuses)
          else if 1448 < noteSize (l.filterMap fun x => x.2.2) then (s, s.bare .badLength)
          else
            let others := s.common.server.subs.filter (!mine ·)
            if 16 ≤ others.length then (s, s.bare .busy) else
              let b : Subscription := { port := d.port.val, ip := d.srcIp, udp := d.srcPort, sid := sid, id := id, every := every,
                                        items := is.map (fun i => 256 * i.index + i.sub), g0 := s.common.n.gen,
                                        lease := s.common.n.mono + nsTicks 60000000000 }
              (s.modServer fun v => { v with subs := others ++ [b] }, s.statusAns .ok statuses)

/-- A notification that waited leaves once the port carries KDP and reaches its subscriber (R82). -/
def noteFlush (s : State) : State :=
  s.common.server.subs.foldl (fun s b =>
    match b.waiting with
    | some bytes =>
      if s.kdpUp b.port && s.routed b.port b.ip then
        (s.udpOut b.port b.ip b.udp bytes).modServer fun v => { v with subs := v.subs.map fun x => if x = b then { b with waiting := none } else x }
      else s
    | none => s) s

/-- The notification of a subscription for generation `g` (R82): sent once the port carries it. One that has not left when the next is due
is dropped and counted. -/
def notify (s : State) (b : Subscription) (g : Nat) : State :=
  let ps := b.items.filterMap fun k => (place (k / 256) (k % 256)).map fun p => (k, p)
  let item (x : Nat × Place) : List Nat :=
    let i : KdpItem := { index := x.1 / 256, sub := x.1 % 256, flags := 0, offset := 0, length := 0 }
    let down := match x.2.chan with | some c => (s.chan c).inReset | none => false
    let a : ItemAns :=
      if down then { status := .channelDown, ty := x.2.row.typeCode }
      else match s.readBytes x.2 (some g) true with
        | (.ok, _, bs) => { status := .ok, bytes := bs, ty := x.2.row.typeCode }
        | (st, _, _) => { status := st, ty := x.2.row.typeCode }
    a.encode i
  let h : KdpHeader := { version := 1, opcode := 6, flags := 0, payloadLen := 0, seq := b.seq, session := b.sid, gen := g }
  let bytes := kdpAnswer h 0x86 2 0 g (leBytes 2 b.id ++ [0, 0] ++ ps.flatMap item)
  let s := if b.waiting.isSome then s.onN (·.inc K.KDP_NOTIFY_DROPS) else s
  let s := s.modServer fun v => { v with subs := v.subs.map fun x =>
    if x.ip = b.ip ∧ x.udp = b.udp ∧ x.sid = b.sid ∧ x.id = b.id then { x with seq := wrap 32 (x.seq + 1), doneGen := some g, waiting := some bytes }
    else x }
  s.noteFlush

/-- What a publication brings: notifications of every subscription whose published objects have all reached a generation due (R82). One
whose items name no published object is never notified, for R82 gives it no moment (DESIGN CHOICE, unsafe: log entry 1082). -/
def notifyAll (s : State) : State :=
  s.common.server.subs.foldl (fun s b =>
    let ps := b.items.filterMap fun k => place (k / 256) (k % 256)
    match s.commonGen ps with
    | some g =>
      let fresh : Bool := match b.doneGen with | some d => decide (0 < genOrder d g) | none => true
      let published := ps.all fun p => !p.row.published || (s.pubGen p).isSome
      if fresh && published && genOrder b.g0 g % (b.every : Int) == 0 then s.notify b g else s
    | none => s) s

/-! ## Messages (R72-R74, R84) -/

/-- The operation of an opcode (R74): the state and what it answers. `net`: the datagram it came in, `none` for the mailbox. -/
def opcode (s : State) (mute : Option (Fin 6)) (net : Option Datagram) (room : Nat) (h : KdpHeader) (payload : List Nat) : State × KdpAns :=
  let pin := if bit h.flags 0 then some h.gen else none
  match h.opcode with
  | 1 => s.opRead mute pin false room payload
  | 2 => s.opWrite mute payload
  | 3 => s.opStage mute payload
  | 4 => s.opSlate payload
  | 5 => s.opSnapshot mute room payload
  | 6 => match net with | some d => s.opSubscribe mute d h.session payload | none => (s, s.bare .badOpcode)
  | _ => (s, s.bare .badOpcode)

/-- The answer's opcode: the request's with bit 7 (R73). -/
def answerOp (h : KdpHeader) : Nat := h.opcode % 128 + 128

/-- A message executed in its session, where the session takes it (R83, R84): the state, and the answer that leaves. A STALE or BUSY answer
is not kept among the session's last 16 (DESIGN CHOICE, unsafe: log entry 1084). -/
def inSession (s : State) (mute : Option (Fin 6)) (d : Datagram) (h : KdpHeader) (payload : List Nat) : State × List Nat :=
  let now := s.common.n.mono
  let bare (s : State) (st : Status) : List Nat := kdpAnswer h (answerOp h) 0 st.code s.common.n.gen []
  let run (s : State) : State × List Nat :=
    let (s, a) := s.opcode mute (some d) 1448 h payload
    (s, kdpAnswer h (answerOp h) 0 a.status.code a.gen a.payload)
  let mine := sessionIs d.srcIp d.srcPort h.session
  match s.common.server.sessions.find? mine with
  | none =>
    if 64 ≤ s.common.server.sessions.length then (s, bare s .busy) else
      let x : Session := { port := d.port.val, ip := d.srcIp, udp := d.srcPort, sid := h.session, top := h.seq, last := now }
      let (s, a) := run (s.modServer fun v => { v with sessions := v.sessions ++ [x] })
      (s.modServer fun v => { v with sessions := v.sessions.map fun y => if mine y then { y with answers := [(h.seq, a)] } else y }, a)
  | some x =>
    let s := s.modServer fun v => { v with sessions := v.sessions.map fun y => if mine y then { y with last := now } else y }
    match x.answers.find? (·.1 == h.seq) with
    | some (_, a) => (s.onN (·.inc K.KDP_REPLAYS), a)
    | none =>
      if toSigned 32 (wrap 32 (h.seq + 2 ^ 32 - x.top)) ≤ 0 then (s, bare s .stale)
      else
        let (s, a) := run (s.modServer fun v => { v with sessions := v.sessions.map fun y => if mine y then { y with top := h.seq } else y })
        let keep (y : Session) : Session := if mine y then { y with answers := (y.answers ++ [(h.seq, a)]).drop (y.answers.length + 1 - 16) } else y
        (s.modServer fun v => { v with sessions := v.sessions.map keep }, a)

/-- A datagram to the KDP port of a network port (R72, R73): dropped, counted, or answered, from the address the port had (R96). `takes`: the opcodes served here. An answer of
BAD_VERSION, BAD_LENGTH or BAD_OPCODE to the message as a whole is given outside any session: none is opened, nothing is kept (DESIGN
CHOICE, unsafe: log entry 1084). -/
def kdpServe (s : State) (mute : Option (Fin 6)) (d : Datagram) (takes : Nat → Bool) : State :=
  let m := d.payload
  let p := d.port.val
  if s.kdpUp p = false ∨ d.vlan = true ∨ d.ipOptions = true ∨ d.fragment = true ∨ m.length < 24 ∨ 1472 < m.length then s
  else if !kdpMagic m || !kdpCrcOk m then s.onN (·.addE 32 K.KDP_CRC_DROPS p 1)
  else
    let h := kdpHeader m
    if !takes h.opcode then s else
      let s := s.onN (·.addE 32 K.KDP_RX_COUNT p 1)
      let payload := (m.drop 20).take (m.length - 24)
      let early : Option Status :=
        if h.version ≠ 1 then some .badVersion
        else if h.payloadLen ≠ payload.length then some .badLength
        else if 6 < h.opcode ∨ h.opcode = 0 then some .badOpcode
        else none
      let (t, a) := match early with
        | some st => (s, kdpAnswer h (answerOp h) 0 st.code s.common.n.gen [])
        | none => s.inSession mute d h payload
      if s.routed p d.srcIp then t.mapN (·.emit (.udp p (s.common.n.elem K.NET_IPV4_ADDR p) 47810 d.srcIp d.srcPort a)) else t

/-! ## The mailbox (R86, R88-R90) -/

/-- The answer to the message in the request buffer, and the state after its execution (R89, R90). A wrong MAGIC answers BAD_LENGTH (DESIGN
CHOICE, unsafe: log entry 1090). MB_COUNT counts the requests that were executed (R96). -/
def mailboxRun (s : State) (mute : Option (Fin 6)) : State × List Nat :=
  let m := s.common.server.mbRequest ++ zeros (4096 - s.common.server.mbRequest.length)
  let h := kdpHeader m
  let payload := (m.drop 20).take h.payloadLen
  let crc := bit h.flags 2
  let whole := m.take (20 + h.payloadLen + 4)
  let early : Option Status :=
    if kdpMagic m = false ∨ 4072 < h.payloadLen ∨ (crc = true ∧ kdpCrcOk whole = false) then some .badLength
    else if h.version ≠ 1 then some .badVersion
    else none
  let (s, a) := match early with
    | some st => (s, s.bare st)
    | none => s.opcode mute none 4072 h payload
  let bytes := kdpAnswer h (answerOp h) (if crc then 4 else 0) a.status.code a.gen a.payload
  let ran : Bool := match a.status with | .badVersion | .badLength | .badOpcode => false | _ => true
  (if ran then s.onN (·.inc K.MB_COUNT) else s, if crc then bytes else bytes.take (bytes.length - 4))

/-- MB_DOORBELL GO (R89): OVERRUN and source 179 while BUSY. -/
def mailboxGo (s : State) (mute : Option (Fin 6)) : State :=
  if s.common.server.mbBusy then (s.modServer fun v => { v with mbOverrun := true }).onN (·.occur 179)
  else
    let (s, a) := (s.modServer fun v => { v with mbBusy := true, mbDone := false }).mailboxRun mute
    s.modServer fun v => { v with mbAnswer := a }

/-- The answer reaches the response buffer (R89): BUSY clears, DONE sets, source 177; one that an FLR discards ends the clearing (R458). -/
def mailboxDone (s : State) : State :=
  let v := s.common.server
  if !v.mbBusy then s
  else if v.mbDiscard then s.mailboxClear
  else (s.modServer fun v => { v with mbBusy := false, mbDone := true, mbResponse := v.mbAnswer ++ v.mbResponse.drop v.mbAnswer.length, mbAnswer := [] }).onN (·.occur 177)

end State

end Sys2Proof.Machine
end

