-- ==== Sys2Proof/Machine/PcieEngine.lean ====
section
/-!
DEFINITION. What the host does at the PCIe port: configuration requests, BAR0 and BAR2 outside the object slots, the channel memory window,
errors, the link and its resets (02 R86-R89; 16 R447-R459; 17 R476-R479), and how the device starts after a reset (20 R531, R533).
-/

namespace Sys2Proof.Machine

/-- Bits of the AER status registers (PCI Express Base Specification). -/
def aerPoisoned : Nat := 12
def aerTimeout : Nat := 14
def aerAbort : Nat := 15
def aerUnexpected : Nat := 16
def aerUnsupported : Nat := 20
def aerAdvisory : Nat := 13


/-- Known bits of a register among bits the spec does not give: `mask` holds the known ones. -/
def Node.partly (n : Node) (w mask known : Nat) : Nat × Node :=
  let (x, n) := n.takeFree w
  (Nat.lor (Nat.land x (2 ^ w - 1 - mask)) known, n)

namespace State

/-! ## Errors (R455-R457) -/

/-- An uncorrectable error of function `f`: AER status bit `b`, and the message that mask, severity and Device Control permit (R457; base
specification); an `advisory` one of non-fatal severity is reported as correctable. -/
def uncorrectable (s : State) (f : Fin 7) (b : Nat) (advisory : Bool) : State :=
  s.onFn f fun n =>
    let x := n.fn
    let fatal := bit x.aerSeverity b
    let quiet := bit x.aerUncorrMask b || (b == aerUnsupported && !bit x.errEnable 3)
    let n : Node := { n with fn := { x with aerUncorr := setBit x.aerUncorr b,
                                            aerCorr := if advisory && !fatal then setBit x.aerCorr aerAdvisory else x.aerCorr } }
    if quiet then n
    else if fatal then (if bit x.errEnable 2 then n.emit (.errMessage 2) else n)
    else if advisory then (if bit x.errEnable 0 && !bit x.aerCorrMask aerAdvisory then n.emit (.errMessage 0) else n)
    else if bit x.errEnable 1 then n.emit (.errMessage 1) else n

/-- A non-fatal error of function `f`: its logging, the common count and flag (R457). -/
def nonFatal (s : State) (f : Fin 7) (b : Nat) (advisory : Bool := false) : State :=
  (s.uncorrectable f b advisory).onN fun n => (n.inc K.NONFATAL_COUNT).setFlag K.HP_FLAGS 3

/-- A correctable error (R457). -/
def correctable (s : State) (f : Fin 7) (b : Nat) : State :=
  let s := s.onFn f fun n =>
    let x := n.fn
    let n : Node := { n with fn := { x with aerCorr := setBit x.aerCorr b } }
    if bit x.errEnable 0 && !bit x.aerCorrMask b then n.emit (.errMessage 0) else n
  s.onN fun n => (n.inc K.CORR_COUNT).setFlag K.HP_FLAGS 2

/-- The link is in L0. -/
def linkUp (s : State) : Bool := s.common.n.num K.HP_LINK_STATE == 2

/-- A completion leaves function `f`. -/
def complete (s : State) (f : Fin 7) (status : Nat) (bytes : List Nat) : State := s.onFn f (·.emit (.completion status bytes))

/-- A memory request is answered with Unsupported Request where it is a read, else dropped; the function logs it (R456, R457), as advisory where
it answers (base specification). -/
def unsupported (s : State) (f : Fin 7) (read : Bool) : State :=
  let s := s.nonFatal f aerUnsupported read
  if read then s.complete f 1 [] else s

/-- A host access of a BAR of function `f`: none comes while the link is not in L0; Unsupported Request without Memory Space Enable and in
D3hot; during an FLR too for a read, while a write is discarded (R456, R458). -/
def hostGate (s : State) (f : Fin 7) (read : Bool) (g : State → State) : State :=
  let x := (s.fnNode f).fn
  if !s.linkUp || (x.flr && !read) then s
  else if !x.memEnable || x.d3hot || x.flr then s.unsupported f read
  else g s

/-- A host read of a BAR of function `f`, answered at once. -/
def hostRead (s : State) (f : Fin 7) (g : State → State × List Nat) : State :=
  s.hostGate f true fun s => let (t, bs) := g s; t.complete f 0 bs

/-- A host write of a BAR. -/
def hostWrite (s : State) (f : Fin 7) (g : State → State) : State := s.hostGate f false g

/-! ## Control page and mailbox buffers (R86-R89) -/

/-- LOW_LENGTH (R88). -/
def lowLength (s : State) (f : Fin 7) : Nat :=
  match (s.windowOf f).1 with
  | some p => (match p.row.acc with | .wo => 0 | _ => (s.valueBytes p).length)
  | none => 0

/-- A control page register as read (R88). -/
def pageRead (s : State) (f : Fin 7) (off : Nat) : Nat :=
  let x := (s.fnNode f).fn
  let v := s.common.server
  match off with
  | 0x00 => x.lowSelect
  | 0x04 => x.lowOffset
  | 0x08 => s.lowLength f
  | 0x0C => b2n x.lowMore
  | 0x10 => x.barErr
  | 0x14 => x.barErrCount
  | 0x24 => if f.val = 0 then b2n v.mbBusy + 2 * b2n v.mbDone + 4 * b2n v.mbOverrun else 0
  | _ => 0

/-- A control page register written (R71, R88, R89): an INDEX outside the function's range is turned away with RANGE. -/
def pageWrite (s : State) (mute : Option (Fin 6)) (f : Fin 7) (off v : Nat) : State :=
  let modF (g : Function → Function) : State := s.onFn f fun n => { n with fn := g n.fn }
  match off with
  | 0x00 =>
    let index := v / 65536
    if (if f.val = 0 then decide (0x1000 ≤ index ∧ index < 0x4000) else decide (index / 0x800 = 0x10 + (f.val - 1)))
    then modF fun x => { x with lowSelect := v / 256 * 256 }
    else s.barReject f index (v / 256 % 256) .range
  | 0x04 => modF fun x => { x with lowOffset := v / 2 ^ 20 * 2 ^ 20 }
  | 0x0C =>
    let s := modF fun x => { x with lowMore := bit v 0 }
    if bit v 1 then s.lowClose f else s
  | 0x20 => if f.val = 0 ∧ bit v 0 = true then s.mailboxGo mute else s
  | 0x24 =>
    if f.val = 0 then
      s.modServer fun y => { y with mbDone := y.mbDone && !bit v 1, mbOverrun := y.mbOverrun && !bit v 2 }
    else s
  | _ => s

/-- A read of BAR0 (R86-R94, R452). -/
def bar0Read (s : State) (mute : Option (Fin 6)) (f : Fin 7) (off size : Nat) : State × List Nat :=
  if off < 0x1000 then (s, if size = 4 ∧ off % 4 = 0 then leBytes 4 (s.pageRead f off) else List.replicate size 255)
  else if f.val = 0 ∧ off < 0x2000 then let b := slice s.common.server.mbRequest (off - 0x1000) size; (s, b ++ zeros (size - b.length))
  else if f.val = 0 ∧ off < 0x3000 then let b := slice s.common.server.mbResponse (off - 0x2000) size; (s, b ++ zeros (size - b.length))
  else if 0x100000 ≤ off ∧ off < 0x200000 then s.windowRead mute f (off - 0x100000) size
  else match slotAt f off with
    | some (i, sub, o) => s.slotRead mute f i sub o size
    | none => (s, zeros size)

/-- A write of BAR0. -/
def bar0Write (s : State) (mute : Option (Fin 6)) (f : Fin 7) (off : Nat) (data : List Nat) : State :=
  if off < 0x1000 then (if data.length = 4 ∧ off % 4 = 0 then s.pageWrite mute f off (field data 0 data.length) else s)
  else if f.val = 0 ∧ off < 0x2000 then
    s.modServer fun v => { v with mbRequest := (overlay v.mbRequest (off - 0x1000) data).take 4096 }
  else if 0x100000 ≤ off ∧ off < 0x200000 then s.windowWrite mute f (off - 0x100000) data
  else match slotAt f off with
    | some (i, sub, o) => s.slotWrite mute f i sub o data
    | none => s

/-! ## BAR2 (R452, R468, R477-R479) -/

/-- Function `f` is that of a channel in Doze or Park, which an access of BAR2 wakes (R477). -/
def bar2Asleep (s : State) (f : Fin 7) : Bool :=
  if h : f.val - 1 < 6 ∧ f.val ≠ 0 then
    let x := s.chan ⟨f.val - 1, h.1⟩
    x.power.sleepy && !x.inReset
  else false

/-- An access of BAR2 of function `f`: a sleeping channel wakes first, and it is carried out and answered once awake (R477). -/
def bar2Access (s : State) (f : Fin 7) (a : Bar2Access) : State :=
  if s.bar2Asleep f then
    if h : f.val - 1 < 6 ∧ f.val ≠ 0 then
      s.onChan ⟨f.val - 1, h.1⟩ fun x => Chan.wakeCause (x.mapN fun n => { n with fn := { n.fn with waiting := n.fn.waiting ++ [a] } })
    else s
  else s.onFn f (·.bar2Do a)

/-- A read of BAR0 or BAR2. -/
def barRead (s : State) (mute : Option (Fin 6)) (f : Fin 7) (bar : HostBar) (off size : Nat) : State :=
  match bar with
  | .bar0 => s.hostRead f (·.bar0Read mute f off size)
  | .bar2 => s.hostGate f true (·.bar2Access f (.read off size))

/-- A write of BAR0 or BAR2. -/
def barWrite (s : State) (mute : Option (Fin 6)) (f : Fin 7) (bar : HostBar) (off : Nat) (data : List Nat) : State :=
  s.hostWrite f fun s => match bar with
    | .bar0 => s.bar0Write mute f off data
    | .bar2 => s.bar2Access f (.write off data)

/-! ## The channel memory window (R453) -/

/-- The window of channel `c` is implemented at byte `o` (R452). -/
def windowHas (s : State) (c : Fin 6) (o len : Nat) : Bool :=
  let w := s.common.host.winSize.getD c.val 0
  w != 0 && decide (o + len ≤ 2 ^ w)

/-- An access of the window of channel `c`: dropped, or all ones, at once where the memory is OFF, TRAINING or FAILED, the channel is in
reset, or the address lies at or above MEM_CAPACITY; else a Class D request. A channel in Doze or Park is woken whatever the answer. -/
def windowGo (s : State) (c : Fin 6) (r : MemReq) : State :=
  let s := if (s.chan c).power.sleepy && !(s.chan c).inReset then s.onChan c (·.wakeCause) else s
  let x := s.chan c
  if x.inReset ∨ x.memState = 0 ∨ x.memState = 1 ∨ x.memState = 7 ∨ x.n.num K.MEM_CAPACITY < r.addr + r.len then
    let s := if r.write then s else s.onFn ⟨c.val + 1, by omega⟩ (Chan.windowCompletions r.addr (List.replicate r.len 255))
    s.report c .window
  else
    s.onChan c (·.memRequest r)

/-- A read through the window. -/
def bar4Read (s : State) (c : Fin 6) (tag o len : Nat) : State :=
  let f : Fin 7 := ⟨c.val + 1, by omega⟩
  let x := (s.chan c).n.fn
  if !s.linkUp then s
  else if !x.memEnable || x.d3hot || x.flr || !s.windowHas c o len then s.unsupported f true
  else s.windowGo c { tag := Chan.windowTag tag, cls := 2, write := false, addr := s.common.n.elem K.CHMEM_WIN_BASE c.val + o, len := len, bytes := [] }

/-- A write through the window. -/
def bar4Write (s : State) (c : Fin 6) (o : Nat) (data : List Nat) : State :=
  let f : Fin 7 := ⟨c.val + 1, by omega⟩
  let x := (s.chan c).n.fn
  if !s.linkUp || x.flr then s
  else if !x.memEnable || x.d3hot || !s.windowHas c o data.length then s.unsupported f false
  else s.windowGo c { tag := Chan.windowWrites, cls := 2, write := true, addr := s.common.n.elem K.CHMEM_WIN_BASE c.val + o, len := data.length,
                      bytes := data }

/-! ## Configuration space (R448, R449, R451, R452) -/

/-- Bus Master Enable of function `f` written: its clearing holds the writers (R459), its setting lets held messages leave. -/
def busMasterSet (s : State) (f : Fin 7) (on : Bool) : State :=
  s.onFn f fun n =>
    let n : Node := { n with fn := { n.fn with busMaster := on, held := n.fn.held || !on } }
    n.msixFlush

/-- log2 of the size of BAR0, BAR2 or BAR4 of function `f` (R452); 0: not implemented. -/
def barSize (s : State) (f : Fin 7) (b : Nat) : Nat :=
  if b = 0 then (if f.val = 0 then 26 else 24) else if b = 1 then 16
  else if f.val = 0 then 0 else s.common.host.winSize.getD (f.val - 1) 0

/-- The IDs of the capabilities of every function, and of the extended ones (R451; the IDs are the base specification's): Power Management, PCI
Express, MSI-X; Advanced Error Reporting, Device Serial Number, Secondary PCI Express, Data Link Feature, Physical Layer 16.0 GT/s, Lane
Margining at the Receiver, Physical Layer 32.0 and 64.0 GT/s, Flit Logging. -/
def capabilities : List Nat := [0x01, 0x10, 0x11]
def extendedCapabilities : List Nat := [0x01, 0x03, 0x19, 0x25, 0x26, 0x27, 0x2A, 0x31, 0x32]

/-- The encodings of Completion Timeout Value: the default range, and two in each of the ranges A to D (R455; base specification). -/
def cplRanges : List Nat := [0, 1, 2, 5, 6, 9, 10, 13, 14]

/-- A configuration register as read: its value, bits the spec does not give being free. Of the capability registers the model gives what R447,
R448, R451 and R455 say: FLR and 512-byte payloads, the timeout ranges and their disabling, 10-bit tags, the rates and widths advertised, ASPM
L1; their places are the base specification's. -/
def configValue (s : State) (f : Fin 7) (r : ConfigReg) : Nat × State :=
  let n := s.fnNode f
  let x := n.fn
  let partly (w mask known : Nat) : Nat × State :=
    let (v, m) := n.partly w mask known
    (v, s.onFn f fun _ => m)
  match r with
  | .vendorDevice => ((if f.val = 0 then 0x6240 else 0x6241) * 65536 + Config.vendorId % 65536, s)
  | .commandStatus => partly 32 0x100006 (0x100000 + 4 * b2n x.busMaster + 2 * b2n x.memEnable)
  | .revisionClass => (0x118000 * 256 + s.common.n.num K.STEPPING % 256, s)
  | .bar i =>
    let b := i.val / 2
    if s.barSize f b = 0 then (0, s) else
      let a := (s.common.host.bars.getD f.val []).getD b 0
      (if i.val % 2 = 0 then a % 2 ^ 32 + (if b = 2 then 12 else 4) else a / 2 ^ 32, s)
  | .subsystem => (s.common.host.subId % 65536 * 65536 + s.common.host.subVid % 65536, s)
  | .interrupt => partly 32 0xFF00 0
  | .powerControl => partly 16 3 (if x.d3hot then 3 else 0)
  | .msixControl => (b2n x.msixEnable * 32768 + b2n x.msixMask * 16384 + 63, s)
  | .deviceControl => partly 16 0xF0EF (x.mrrs * 4096 + x.mps * 32 + x.errEnable)
  | .deviceControl2 => partly 16 0x1F (16 * b2n x.noTimeout + x.cplRange)
  | .deviceCapabilities => partly 32 0x10000007 0x10000002
  | .deviceCapabilities2 => partly 32 0x303DF 0x3001F
  | .linkCapabilities => partly 32 0xFFF (s.common.host.maxRate + 16 * s.common.host.maxWidth + 0x800)
  | .linkStatus => partly 16 0x3FF (s.common.n.num K.LINK_RATE + 16 * s.common.n.num K.HP_LINK_WIDTH)
  | .linkCapabilities2 => partly 32 0xFE (2 * (2 ^ s.common.host.maxRate - 1))
  | .aerUncorrectable => (x.aerUncorr, s)
  | .aerUncorrectableMask => (x.aerUncorrMask, s)
  | .aerSeverity => (x.aerSeverity, s)
  | .aerCorrectable => (x.aerCorr, s)
  | .aerCorrectableMask => (x.aerCorrMask, s)
  | .serialLow => (s.common.n.num K.PTP_CLOCK_ID % 2 ^ 32, s)
  | .serialHigh => (s.common.n.num K.PTP_CLOCK_ID / 2 ^ 32, s)
  | .capability i => if capabilities.contains i.val then partly 16 0xFF i.val else partly 16 0 0
  | .extended i => if extendedCapabilities.contains i.val then partly 32 0xFFFF i.val else partly 32 0 0
  | .other => partly 32 0 0

/-- A configuration register written. -/
def configPut (s : State) (f : Fin 7) (r : ConfigReg) (v : Nat) : State :=
  let modF (g : Function → Function) : State := s.onFn f fun n => { n with fn := g n.fn }
  match r with
  | .commandStatus =>
    let s := modF fun x => { x with memEnable := bit v 1 }
    if (s.fnNode f).fn.busMaster = bit v 2 then s else s.busMasterSet f (bit v 2)
  | .bar i =>
    let b := i.val / 2
    let w := s.barSize f b
    if w = 0 then s else
      let l := s.common.host.bars.getD f.val (zeros 3)
      let a := l.getD b 0
      let a := if i.val % 2 = 0 then a / 2 ^ 32 * 2 ^ 32 + v % 2 ^ 32 else v % 2 ^ 32 * 2 ^ 32 + a % 2 ^ 32
      s.modHost fun h => { h with bars := listPut h.bars f.val (listPut l b (a / 2 ^ w * 2 ^ w)) }
  | .powerControl =>
    if v % 4 = 3 then modF fun x => { x with d3hot := true }
    else if v % 4 = 0 then s.onFn f fun n => Node.msixFlush { n with fn := { n.fn with d3hot := false } }
    else s
  | .msixControl => s.onFn f fun n => Node.msixFlush { n with fn := { n.fn with msixEnable := bit v 15, msixMask := bit v 14 } }
  | .deviceControl =>
    let s := modF fun x => { x with mps := min 2 (bits v 7 5), mrrs := min 5 (bits v 14 12), errEnable := v % 16 }
    if bit v 15 then s.flr f else s
  | .deviceControl2 =>
    modF fun x => { x with noTimeout := bit v 4, cplRange := if cplRanges.contains (v % 16) then v % 16 else x.cplRange }
  | .aerUncorrectableMask => modF fun x => { x with aerUncorrMask := v % 2 ^ 32 }
  | .aerSeverity => modF fun x => { x with aerSeverity := v % 2 ^ 32 }
  | .aerCorrectableMask => modF fun x => { x with aerCorrMask := v % 2 ^ 32 }
  | .aerUncorrectable => modF fun x => { x with aerUncorr := Nat.land x.aerUncorr (2 ^ 32 - 1 - v % 2 ^ 32) }
  | .aerCorrectable => modF fun x => { x with aerCorr := Nat.land x.aerCorr (2 ^ 32 - 1 - v % 2 ^ 32) }
  | _ => s

/-- Configuration requests are accepted 100 ms after the link timing began at the latest (R449); whether one is before is open. -/
def configReady (s : State) : Bool × State :=
  match s.common.host.started with
  | none => (false, s)
  | some t =>
    if s.common.host.ready then (true, s)
    else
      let on (s : State) : State := s.modHost fun h => { h with ready := true }
      if nsTicks 100000000 ≤ s.common.n.mono - t then (true, on s)
      else
        let (x, n) := s.common.n.takeFree 1
        let s := s.mapN fun _ => n
        if x = 1 then (true, on s) else (false, s)

/-- A configuration request to function `f` (R449): a write carries its value. Status 2 is Configuration Request Retry. -/
def configRequest (s : State) (f : Fin 7) (r : ConfigReg) (w : Option Nat) : State :=
  if !s.linkUp || (s.fnNode f).fn.flr then s else
    let (ok, s) := s.configReady
    if !ok then s.complete f 2 [] else
      match w with
      | none => let (v, s) := s.configValue f r; s.complete f 0 (leBytes 4 v)
      | some v => State.complete (s.configPut f r v) f 0 []

/-! ## The link and its resets (R449, R450, R457, R458) -/

/-- The link enters L0 (R450): from L1, or after training, at a rate and width within what was advertised from Detect on (R449), which are
compared with their limits. -/
def linkL0 (s : State) (rate width : Nat) (flit reversed : Bool) : State :=
  let st := s.common.n.num K.HP_LINK_STATE
  let s := if st = 5 then s.takeLimits else s
  if st = 3 then s.onN fun n => (n.putN K.HP_LINK_STATE 2).occur 129
  else if st = 4 ∨ ((st = 1 ∨ st = 5) ∧ rate ≤ s.common.host.maxRate ∧ width ≤ s.common.host.maxWidth) then
    let flit := flit || rate == 6
    let s := s.onAll fun x => x.mapN fun n => { n with fn := { n.fn with flit := flit } }
    s.onN fun n =>
      let low := decide (rate < n.num K.MAX_RATE) || decide (width < n.num K.MAX_WIDTH)
      let n := ((n.putN K.HP_LINK_STATE 2).putN K.LINK_RATE rate).putN K.HP_LINK_WIDTH width
      let n := (n.putN K.LINK_FLIT (b2n flit)).putN K.LANE_REVERSED (b2n reversed)
      let n := n.occur 129
      if low then (n.setFlag K.HP_FLAGS 1).event 131 0 else n
  else s

/-- A host-port reset with the state the link goes to (R458). -/
def portReset (s : State) (st : Nat) : State := (s.linkExit st).hostReset

/-- A fatal error (R457). -/
def fatal (s : State) (f : Fin 7) (b : Nat) (linkDown : Bool) : State :=
  let s := s.uncorrectable f b false
  let s := s.onN fun n => Node.alarm ((n.inc K.FATAL_COUNT).setFlag K.HP_FLAGS 4) 134
  if linkDown then s.portReset 1 else s

/-- A read request of a DMA thread of channel `c` times out (R455). -/
def cplTimeout (s : State) (c : Fin 6) (t tag : Nat) : State :=
  let x := s.chan c
  if x.n.fn.noTimeout ∨ x.tagThread tag ≠ some t then s
  else
    let s := s.nonFatal ⟨c.val + 1, by omega⟩ aerTimeout
    let s := s.onN fun n => (n.addE 32 K.CPL_TIMEOUTS (c.val + 1) 1).setFlag K.HP_FLAGS 5
    s.onChan c (·.busFailed t tag 4)

/-! ## The device (R531, R533) -/

/-- The device starts (R533), up to step 5: what `startUp` loads, the network ports and their PTP by LINK_MODE. -/
def boot (s : State) (cause fuse : Nat) (dev : Option StoreDev) : State := (s.startUp cause fuse dev).onTb ptpPorts

/-- A device reset that has been written acts once its request has been answered (R531). -/
def dueReset (s : State) : State :=
  if s.common.resetDue then
    let n := s.common.n
    let dev := if n.num K.STORE_STATE = 0 then none else some { jedec := n.num K.STORE_JEDEC_ID, capacity := n.num K.STORE_CAPACITY }
    (s.deviceDown .none 2).boot 2 (n.num K.FUSE_STATUS) dev
  else s

/-- How every command acts: nothing while the device is held in reset. -/
def does (s t : State) : Host.Outcome State Fault Refusal :=
  .next (match s.common.held with | .none => t.dueReset | _ => s)

/-! ## Host writes of one object (R60, R66) -/

/-- A host write by `via`: direct or staged by the object's access (R62). A KDP item's answer carries its status; a BAR records a
rejection. No access of a function's BAR names an object the BAR does not hold (R86, R87). -/
def viaWrite (s : State) (via : Via) (index sub : Nat) (seg : Option Segment) (data : List Nat) : State :=
  let run (s : State) : Status × State :=
    match place index sub with
    | none => (.noObject, s)
    | some p => s.barEffect none p seg data
  match via with
  | .kdp => (run s).2
  | .bar f => if barMaps f index then s.hostWrite f fun s => barEnd f index sub (run s) else s

/-- A host write of a scalar object of `n` bytes. -/
def viaScalar (s : State) (via : Via) (key n v : Nat) : State := s.viaWrite via (key / 256) (key % 256) none (leBytes n v)

/-- A host write of an object of channel `c`, named by its key of SW0's form. -/
def viaChan (s : State) (via : Via) (c : Fin 6) (key n v : Nat) : State :=
  s.viaWrite via (key / 256 + 0x800 * c.val) (key % 256) none (leBytes n v)

/-- A host write of element `i` of an array of `n`-byte elements (R71). -/
def viaElem (s : State) (via : Via) (key n i v : Nat) : State :=
  s.viaWrite via (key / 256) (key % 256) (some { off := n * i, more := false }) (leBytes n v)

/-- A dictionary request on its path. -/
def dictRequest (s : State) (mute : Option (Fin 6)) (r : DictReq) : State :=
  match r with
  | .kdp d => s.kdpServe mute d fun _ => true
  | .mailbox => s.hostWrite 0 (·.mailboxGo mute)
  | .slotRead f a n => s.hostRead f (·.bar0Read mute f a n)
  | .slotWrite f a l => s.hostWrite f (·.bar0Write mute f a l)
  | .windowRead f o n => s.hostRead f (·.windowRead mute f o n)
  | .windowWrite f o l => s.hostWrite f (·.windowWrite mute f o l)

end State

end Sys2Proof.Machine
end

