-- ==== Sys2Proof/Machine/Broadcasts.lean ====
section
/-!
DEFINITION. Meanings of the broadcasts and the Slate's way through the channels (01 R20, R45, R50).
-/

namespace Sys2Proof.Machine

namespace State

/-- The broadcast position on a member of a ring: motion and failover status come with the root's frame (21 R554). -/
def ringCopy (s : State) (p : PosCopy) : PosCopy :=
  match s.ringFrame with
  | some x => { p with upstream := bit x.status 2, standstill := x.status % 4 == 0, starting := x.status % 4 == 1, failover := bit x.status 3,
                       noSource := bit x.status 4 }
  | none => p

/-- The position broadcast reaches the channels (R20). One that is detached in Retake keeps its own position (R366, R368). -/
def sendPosition (s : State) : State :=
  let copy := s.common.n.posn
  let give (c : Chan) : Chan :=
    let c := if c.detached then c else c.takePosition copy
    c.modPwr fun x => { x with posHeld := x.posHeld || !c.parked }
  { s with chans := s.chans.map give }

/-- A position update (R20), and the Slates that it brings (R39, R41). -/
def positionUpdate (s : State) : State :=
  let ring := if s.ring.member then s.ring.reportPos else none
  let s := s.onEnc (posUpdate ring)
  let s := if s.ring.member then s.mapN fun n => { n with posn := s.ringCopy n.posn } else s
  s.sendPosition.slatePosition

/-- A time update (R20): five cycles of the timebase clock, four of ENCCLK, and the channels' copies. A notification
that waited for its port leaves (R82), and the ring ports' transmitters go on (R546). -/
def timeUpdate (s : State) : State :=
  let s := s.onTb (tbRun 5)
  let s : State := { s with common := { s.common with enc := { s.common.enc with cycles := s.common.enc.cycles + 4 } } }
  let t := s.common.n.now
  let u := s.common.n.mono
  let give (c : Chan) : Chan := (c.mapN fun n => { n with now := t, mono := u }).modPwr fun x => { x with timeHeld := x.timeHeld || !c.parked }
  State.noteFlush (State.onBw { s with chans := s.chans.map give } (·.drain))

end State

/-- Part `part` of channel `c` publishes; snapshots older than the newest generation that every part of every channel out of reset has
published are given up (R50, R69). -/
def State.publish (s : State) (c : Fin 6) (part : Part) : State :=
  let s := s.onUp c (·.publish part)
  let up := (List.finRange 6).filter fun c => !(s.chan c).inReset
  let floor := up.foldl (fun g c => let x := (s.chan c).pubFloor; if genLe x g then x else g) (s.chan c).pubFloor
  { s with chans := s.chans.map fun x => x.dropKept floor }

/-- POSITION_BROADCAST_UPDATE (R20). -/
def execPositionBroadcastUpdate (s : State) : Host.Outcome State Fault Refusal := s.does s.positionUpdate

/-- TIME_BROADCAST_UPDATE (R20). -/
def execTimeBroadcastUpdate (s : State) : Host.Outcome State Fault Refusal := s.does s.timeUpdate

/-- IN_FLIGHT_SET_APPLY (R45): stage `stage` of channel `c`. -/
def execInFlightSetApply (c : Fin 6) (stage : Fin 8) (s : State) : Host.Outcome State Fault Refusal :=
  s.does (s.onUp c (·.applySet stage.val))

/-- GENERATION_PUBLISH (R50) of a part of channel `c`, and the notifications due (R82). -/
def execGenerationPublish (c : Fin 6) (part : Part) (s : State) : Host.Outcome State Fault Refusal :=
  s.does (s.publish c part).notifyAll

end Sys2Proof.Machine
end

