-- ==== Sys2Proof/Machine/Clock.lean ====
section
/-!
DEFINITION. Meanings of the timebase, network time and timed actions (04 R127-R149).
-/

namespace Sys2Proof.Machine

namespace State

/-- The link of network port `p` changes (R138); a port in a lane test has no link (06 R209). -/
def netChange (s : State) (p : Nat) (up : Bool) : State :=
  if up ∧ s.common.n.num (duplexKey p + 0x15) ≠ 0 then s else s.onTb (netLink p up)

end State

/-- PTP_MESSAGE_RECEIVE (R139). -/
def execPtpMessageReceive (p : Fin 2) (m : PtpMsg) (s : State) : Host.Outcome State Fault Refusal := s.does (s.onTime (ptpReceive p.val m))

/-- PTP_ANNOUNCE_TIMEOUT (R139). -/
def execPtpAnnounceTimeout (p : Fin 2) (s : State) : Host.Outcome State Fault Refusal := s.does (s.onTb (ptpAnnTimeout p.val))

/-- PTP_SYNC_TRANSMIT (R141). -/
def execPtpSyncTransmit (p : Fin 2) (s : State) : Host.Outcome State Fault Refusal := s.does (s.onTb (ptpSync p.val))

/-- PTP_ANNOUNCE_TRANSMIT (R139). -/
def execPtpAnnounceTransmit (p : Fin 2) (s : State) : Host.Outcome State Fault Refusal := s.does (s.onTb (ptpAnnounceSend p.val))

/-- PTP_DELAY_REQ_TRANSMIT (R141). -/
def execPtpDelayReqTransmit (p : Fin 2) (s : State) : Host.Outcome State Fault Refusal := s.does (s.onTb (ptpRequest p.val))

/-- PPS_IN_EDGE (R135). -/
def execPpsInEdge (s : State) : Host.Outcome State Fault Refusal := s.does (s.onTime ppsEdge)

/-- REF10M_MEASURE (R135): the frequency error measured, in 0.001 ppb. -/
def execRef10mMeasure (err : Int) (s : State) : Host.Outcome State Fault Refusal := s.does (s.onTb (refMeasure err))

/-- PPS_MISSING (R136). -/
def execPpsMissing (s : State) : Host.Outcome State Fault Refusal := s.does (s.onTb ppsMissing)

/-- REF_MISSING (R136). -/
def execRefMissing (s : State) : Host.Outcome State Fault Refusal := s.does (s.onTb refMissing)

/-- TB_SOURCE_TIMEOUT (R130). -/
def execTbSourceTimeout (s : State) : Host.Outcome State Fault Refusal := s.does (s.onTb tbTimeout)

/-- TB_SOURCE_WRITE (R130). -/
def execTbSourceWrite (via : Via) (v : Nat) (s : State) : Host.Outcome State Fault Refusal := s.does (s.viaScalar via K.TB_SOURCE 1 v)

/-- TB_SET (R132). -/
def execTbSet (via : Via) (v : Nat) (s : State) : Host.Outcome State Fault Refusal := s.does (s.viaScalar via K.TB_SET 10 v)

/-- TB_STEP_ADJ (R132): nanoseconds, in two's complement. -/
def execTbStepAdj (via : Via) (v : Int) (s : State) : Host.Outcome State Fault Refusal :=
  s.does (s.viaScalar via K.TB_STEP_ADJ 8 (toBits 64 v))

/-- PPS_OUT_RISE (R137). -/
def execPpsOutRise (s : State) : Host.Outcome State Fault Refusal := s.does (s.onTb ppsRise)

/-- PPS_OUT_FALL (R137). -/
def execPpsOutFall (s : State) : Host.Outcome State Fault Refusal := s.does (s.onTb ppsFall)

/-- NET_LINK_CHANGE (R138). -/
def execNetLinkChange (p : Fin 2) (up : Bool) (s : State) : Host.Outcome State Fault Refusal := s.does (s.netChange p.val up)

/-- NET_RX_OVERRUN (R25, R138): the overrun status of a network port with its count, or that of a ring port. -/
def execNetRxOverrun (p : RxPort) (s : State) : Host.Outcome State Fault Refusal :=
  s.does (match p with
    | .net p => s.onTb (netOverrun p.val)
    | .ring p => s.onBw (·.rxOverrun p.val))

/-- TA_ARM (R144): TA_CTRL of entry `e` written 1. -/
def execTaArm (via : Via) (e : Fin 64) (s : State) : Host.Outcome State Fault Refusal :=
  s.does (s.viaScalar via (K.TA_CTRL + 256 * e.val) 1 1)

/-- TA_DISARM (R144): TA_CTRL of entry `e` written 2. -/
def execTaDisarm (via : Via) (e : Fin 64) (s : State) : Host.Outcome State Fault Refusal :=
  s.does (s.viaScalar via (K.TA_CTRL + 256 * e.val) 1 2)

/-- TIMED_ACTION_EXECUTE (R145): entry `e`. -/
def execTimedActionExecute (e : Fin 64) (s : State) : Host.Outcome State Fault Refusal := s.does (s.taExecute e.val)

end Sys2Proof.Machine
end

