-- ==== Sys2Proof/Machine/Pixels.lean ====
section
/-!
DEFINITION. Meanings of the pixel front end, the resampler and stitcher, illumination and its monitors (chapters 07 to 09).
-/

namespace Sys2Proof.Machine

namespace Chan

/-- The line enters the down-web resampler (R251): on its grid, or not triggered by time, and the first with its TRIG_POS. -/
def entersWeb (c : Chan) (h : Nat) (d : Desc) : Bool :=
  let v := c.viewIn 2 d.gen
  let off : Bool := (d.pos - v.num (ik K.LINE_PHASE h)) % (max 1 (v.num (ik K.LINE_PITCH h)) : Nat) != 0
  let again : Bool := (c.hgeo h).passed.contains d.pos || (c.head h).lines.any (fun l => l.front.isSome && l.desc.pos == d.pos)
  !(d.timeTrig && (off || again))

/-- The samples of a line with a flag. -/
def countPx (p : Nat → Bool) (ps : Planes) : Nat := (ps.map fun l => (l.filter p).length).sum

/-- Head `h`'s front end over the line `l` (R222-R240, R273-R277, R324): the line with what left the front end, and what calibration takes:
the planes after noise reduction and the gain ratio. `quiet`: the head is measured by a calibration run. The front end takes a head's lines in
their order of issue, so the LINE entry is written here and not at the merge arbiter, whose order is by position (R356). -/
def frontLine (c : Chan) (h : Nat) (quiet : Bool) (l : HeadLine) : Chan × HeadLine × Planes × List Nat :=
  let d := l.desc
  let c := ((c.dictsByTrig h d.num).ckptHead h d).note (.line l)
  let issued : Bool := !(d.lost && (d.reason == 1 || d.reason == 2 || d.reason == 3))
  let (c, ratio) := if issued then c.effectLine h d.num else (c, List.replicate 3 (2 ^ 24))
  let c := c.fadeStep h (c.viewIn 0 d.gen)
  let gain := (c.loop h).gain
  if d.lost then
    let c := (c.putFront h { c.hfront h with prevLost := true }).fadeEnd h
    (c, { l with front := some [], gain := gain }, [], ratio)
  else
    let enters := c.entersWeb h d && !quiet
    let (c, fl) := c.frontPixels h l
    let c := (c.fadeEnd h).note (.item 2 h d.gen ((interleave fl.unpacked).flatMap (leBytes 4)))
    let out := c.whiteBalance h (c.viewIn 0 d.gen) fl.planes
    let c := c.statTap h d out fl.excl
    let g := (c.slate.stage 0).genIn d.gen
    let c := c.pubInc g 64 (ik K.SAT_SAMPLES h) (countPx pxSat out)
    let c := c.pubInc g 64 (ik K.REPL_SAMPLES h) (countPx pxRepl out)
    let c := c.detectLine h d out ratio fl.stale enters
    (c, { l with front := some out, gain := gain }, fl.noise, ratio)

/-- The oldest line of head `h` that has not left the front end, once it has closed, the channel has woken and the core holds both
broadcasts (R21, R523). -/
def frontNext (c : Chan) (h : Nat) : Option HeadLine :=
  if c.gated || !c.power.posHeld || !c.power.timeHeld then none else
  match (c.head h).lines.find? fun l => l.front.isNone with
  | some l => if l.closed then some l else none
  | none => none

/-- The next output line leaves the stitcher (R250); `late`: heads whose held line comes only now (R268). -/
def outputNext (c : Chan) (late : List Nat) : Chan := c.outputLine late

/-- Segmentation takes the next output line; a checkpoint takes its state just before (R362). -/
def segNext (c : Chan) : Chan :=
  match c.geo.out with
  | [] => c
  | l :: _ => (c.ckptSeg l.y).segLine

end Chan

namespace State

/-- A line passes head `h`'s front end of channel `c`, and the calibration run that measures the head takes it (R512). -/
def frontLine (s : State) (c : Fin 6) (h : Fin 4) : State :=
  let x := s.chan c
  match x.frontNext h.val with
  | none => s
  | some l =>
    let quiet : Bool := match s.common.cal.run with
      | some r => r.chan == x.num && r.head == h.val && !r.computing
      | none => false
    let (y, l', noise, ratio) := x.frontLine h.val quiet l
    let y := y.modHead h.val fun q => { q with lines := q.lines.map fun m => if m = l then l' else m }
    let s := s.settle c y
    State.calSync (s.onCal (calLine s.wpState (s.chan c) l.desc noise ratio))

end State

/-- FRONT_END_LINE (R222): head `h` of channel `c` takes its oldest closed line. -/
def execFrontEndLine (c : Fin 6) (h : Fin 4) (s : State) : Host.Outcome State Fault Refusal :=
  s.does (if (s.chan c).inReset then s else s.frontLine c h)

/-- CORR_BANK_WRITE (R237): a write of a correction bank, whole or as one segment. -/
def execCorrBankWrite (via : Via) (c : Fin 6) (bank : Fin 2) (seg : Option (Nat × Bool)) (data : List Nat) (s : State) :
    Host.Outcome State Fault Refusal :=
  let k := if bank = 0 then K.CORR_BANK0 else K.CORR_BANK1
  s.does (s.viaWrite via (k / 256 + 0x800 * c.val) (k % 256) (seg.map fun (o, m) => { off := o, more := m }) data)

/-- OUTPUT_LINE (R250). -/
def execOutputLine (c : Fin 6) (late : List Nat) (s : State) : Host.Outcome State Fault Refusal := s.does (s.onClocked c (·.outputNext late))

/-- ILL_PWM_PERIOD (R278): output `i` reaches its period boundary or the end of its duty. -/
def execIllPwmPeriod (c : Fin 6) (i : Fin 2) (s : State) : Host.Outcome State Fault Refusal := s.does (s.onUp c (·.illStep i.val))

/-- LMON_SAMPLE (R280): the converter of input `i` gives a code. -/
def execLmonSample (c : Fin 6) (i : Fin 2) (code : Nat) (s : State) : Host.Outcome State Fault Refusal :=
  s.does (s.onUp c (·.lmonSample i.val code))

end Sys2Proof.Machine
end

