-- ==== Sys2Proof/Machine/Defects.lean ====
section
/-!
DEFINITION. Meanings of segmentation, the record ring, the Cue sheet, the Rushes recorder, Retake and the check contexts (chapters 10 to 12).
-/

namespace Sys2Proof.Machine

/-- SEGMENTATION_LINE (R296): segmentation takes the next output line. -/
def execSegmentationLine (c : Fin 6) (s : State) : Host.Outcome State Fault Refusal := s.does (s.onClocked c (·.segNext))

/-- RECORD_RING_WRITE (R318). -/
def execRecordRingWrite (c : Fin 6) (s : State) : Host.Outcome State Fault Refusal := s.does (s.onUp c (·.recWrite))

/-- REC_IRQ_TIME_EXPIRE (R319). -/
def execRecIrqTimeExpire (c : Fin 6) (s : State) : Host.Outcome State Fault Refusal := s.does (s.onUp c (·.recIrqTime))

/-- OPEN_SNAP (R303): OPEN_SNAP written 1. -/
def execOpenSnap (via : Via) (c : Fin 6) (s : State) : Host.Outcome State Fault Refusal := s.does (s.viaChan via c K.OPEN_SNAP 1 1)

/-- CUE_PIECE_COMPARE (R337). -/
def execCuePieceCompare (c : Fin 6) (s : State) : Host.Outcome State Fault Refusal := s.does (s.onClocked c (·.pieceCompare))

/-- CUE_HORIZON (R334): the position reaches Z of an entry. -/
def execCueHorizon (c : Fin 6) (entry : Fin 2048) (s : State) : Host.Outcome State Fault Refusal :=
  s.does (s.onUp c (·.dueHorizon entry.val))

/-- CUE_FIRE (R334): the position reaches F of an entry. -/
def execCueFire (c : Fin 6) (entry : Fin 2048) (s : State) : Host.Outcome State Fault Refusal := s.does (s.onUp c (·.dueFire entry.val))

/-- CUE_RESOLVE_LIMIT (R334): the position reaches Y_hi + STK_RESOLVE_MAX of an entry. -/
def execCueResolveLimit (c : Fin 6) (entry : Fin 2048) (s : State) : Host.Outcome State Fault Refusal :=
  s.does (s.onUp c (·.dueLimit entry.val))

/-- STK_PULSE_END (R335). -/
def execStkPulseEnd (c : Fin 6) (o : Fin 4) (s : State) : Host.Outcome State Fault Refusal := s.does (s.onUp c (·.strikeEnd o.val))

/-- STK_ENABLE_WRITE (R329). -/
def execStkEnableWrite (via : Via) (c : Fin 6) (v : Nat) (s : State) : Host.Outcome State Fault Refusal :=
  s.does (s.viaChan via c K.STK_ENABLE 1 v)

/-- CUE_SNAP (R350): CUE_SNAP written 1. -/
def execCueSnap (via : Via) (c : Fin 6) (s : State) : Host.Outcome State Fault Refusal := s.does (s.viaChan via c K.CUE_SNAP 1 1)

/-- CUE_SNAP_CAPTURE (R350). -/
def execCueSnapCapture (c : Fin 6) (s : State) : Host.Outcome State Fault Refusal := s.does (s.onUp c (·.cueSnap))

/-- FREEZE_NOW (R364): FREEZE_NOW written 1. -/
def execFreezeNow (via : Via) (c : Fin 6) (s : State) : Host.Outcome State Fault Refusal := s.does (s.viaChan via c K.FREEZE_NOW 1 1)

/-- POST_END (R365). -/
def execPostEnd (c : Fin 6) (s : State) : Host.Outcome State Fault Refusal := s.does (s.onUp c (·.postEnd))

/-- FREEZE_RELEASE (R364): FREEZE_RELEASE written 1. -/
def execFreezeRelease (via : Via) (c : Fin 6) (s : State) : Host.Outcome State Fault Refusal := s.does (s.viaChan via c K.FREEZE_RELEASE 1 1)

/-- RETAKE_START (R366): RETAKE_CTRL written 1. -/
def execRetakeStart (via : Via) (c : Fin 6) (s : State) : Host.Outcome State Fault Refusal := s.does (s.viaChan via c K.RETAKE_CTRL 1 1)

/-- RETAKE_ABORT (R366): RETAKE_CTRL written 2. -/
def execRetakeAbort (via : Via) (c : Fin 6) (s : State) : Host.Outcome State Fault Refusal := s.does (s.viaChan via c K.RETAKE_CTRL 1 2)

/-- RETAKE_EXIT (R368): RETAKE_CTRL written 3. -/
def execRetakeExit (via : Via) (c : Fin 6) (s : State) : Host.Outcome State Fault Refusal := s.does (s.viaChan via c K.RETAKE_CTRL 1 3)

/-- RETAKE_LOADED (R366). -/
def execRetakeLoaded (c : Fin 6) (s : State) : Host.Outcome State Fault Refusal := s.does (s.onUp c (·.retakeLoaded))

/-- RETAKE_ENTRY (R368). -/
def execRetakeEntry (c : Fin 6) (s : State) : Host.Outcome State Fault Refusal := s.does (s.onUp c (·.retakeEntry))

/-- K_TEST (R372): K_TEST of a context written 1. -/
def execKTest (via : Via) (c : Fin 6) (k : Fin 8) (s : State) : Host.Outcome State Fault Refusal :=
  s.does (s.viaChan via c (ik K.K_TEST k.val) 1 1)

end Sys2Proof.Machine
end

