-- ==== Sys2Proof/Machine/Dictionary.lean ====
section
/-!
DEFINITION. Meanings of the dictionary requests: KDP, Slate naming, mailbox, BAR0, and writes of objects and registers (01 R36-R41;
02 R56-R99).
-/

namespace Sys2Proof.Machine

namespace State

/-- A SLATE request of an action (R80); `takes` says whether the row takes the ACTION byte. -/
def slateKdp (s : State) (d : Datagram) (takes : Nat → Bool) : State :=
  if takes (d.payload.getD 20 0) then s.kdpServe none d (· == 4) else s

/-- A Slate command by either way: an object of `n` bytes written, or ACTION `a`. -/
def slateCmd (s : State) (r : SlateReq) (key n a : Nat) : State :=
  match r with
  | .write via v => s.viaScalar via key n v
  | .kdp d => s.slateKdp d (· == a)

/-- A port answers ARP for its address (R72). -/
def arpAnswer (s : State) (p : Fin 2) (ip : Nat) : State :=
  if s.netUp p.val ∧ ip = s.common.n.elem K.NET_IPV4_ADDR p.val then s.mapN (·.emit (.arp p.val ip (s.common.n.elem K.NET_MAC p.val))) else s

/-- A port answers an ICMP echo request to its address (R72). -/
def echoAnswer (s : State) (p : Fin 2) (src dst : Nat) (payload : List Nat) : State :=
  if s.netUp p.val ∧ dst = s.common.n.elem K.NET_IPV4_ADDR p.val ∧ s.routed p.val src then s.mapN (·.emit (.icmp p.val src payload)) else s

end State

/-- KDP_READ (R77). -/
def execKdpRead (d : Datagram) (s : State) : Host.Outcome State Fault Refusal := s.does (s.kdpServe none d (· == 1))

/-- KDP_WRITE (R77). -/
def execKdpWrite (d : Datagram) (s : State) : Host.Outcome State Fault Refusal := s.does (s.kdpServe none d (· == 2))

/-- KDP_STAGE (R78). -/
def execKdpStage (d : Datagram) (s : State) : Host.Outcome State Fault Refusal := s.does (s.kdpServe none d (· == 3))

/-- KDP_SNAPSHOT (R69). -/
def execKdpSnapshot (d : Datagram) (s : State) : Host.Outcome State Fault Refusal := s.does (s.kdpServe none d (· == 5))

/-- KDP_SUBSCRIBE (R81). -/
def execKdpSubscribe (d : Datagram) (s : State) : Host.Outcome State Fault Refusal := s.does (s.kdpServe none d (· == 6))

/-- KDP_BAD_OPCODE (R74). -/
def execKdpBadOpcode (d : Datagram) (s : State) : Host.Outcome State Fault Refusal :=
  s.does (s.kdpServe none d fun o => o == 0 || decide (6 < o))

/-- KDP_SESSION_EXPIRE (R83). -/
def execKdpSessionExpire (s : State) : Host.Outcome State Fault Refusal := s.does s.expireSessions

/-- SUBSCRIPTION_LAPSE (R81). -/
def execSubscriptionLapse (s : State) : Host.Outcome State Fault Refusal := s.does s.lapseSubs

/-- NET_ARP_REQUEST (R72): port `p` is asked for address `ip`. -/
def execNetArpRequest (p : Fin 2) (ip : Nat) (s : State) : Host.Outcome State Fault Refusal := s.does (s.arpAnswer p ip)

/-- NET_ICMP_ECHO (R72): from `src` to `dst`. -/
def execNetIcmpEcho (p : Fin 2) (src dst : Nat) (payload : List Nat) (s : State) : Host.Outcome State Fault Refusal :=
  s.does (s.echoAnswer p src dst payload)

/-- DICT_CHANNEL_TIMEOUT (R23, R68): the request runs while channel `c` does not answer. -/
def execDictChannelTimeout (c : Fin 6) (r : DictReq) (s : State) : Host.Outcome State Fault Refusal := s.does (s.dictRequest (some c) r)

/-- SLATE_NAME_POS (R38). -/
def execSlateNamePos (r : SlateReq) (s : State) : Host.Outcome State Fault Refusal := s.does (s.slateCmd r K.SLATE_NAME_POS 8 1)

/-- SLATE_NAME_TIME (R38). -/
def execSlateNameTime (r : SlateReq) (s : State) : Host.Outcome State Fault Refusal := s.does (s.slateCmd r K.SLATE_NAME_TIME 10 2)

/-- SLATE_CANCEL (R80). -/
def execSlateCancel (r : SlateReq) (s : State) : Host.Outcome State Fault Refusal := s.does (s.slateCmd r K.SLATE_CANCEL 1 3)

/-- STAGE_DISCARD (R36). -/
def execStageDiscard (r : SlateReq) (s : State) : Host.Outcome State Fault Refusal := s.does (s.slateCmd r K.STAGE_DISCARD 1 4)

/-- SLATE_BAD_ACTION (R80). -/
def execSlateBadAction (d : Datagram) (s : State) : Host.Outcome State Fault Refusal :=
  s.does (s.slateKdp d fun a => a == 0 || decide (4 < a))

/-- AUTO_PERIOD_POS_WRITE (R41). -/
def execAutoPeriodPosWrite (via : Via) (v : Nat) (s : State) : Host.Outcome State Fault Refusal :=
  s.does (s.viaScalar via K.AUTO_PERIOD_POS 8 v)

/-- AUTO_PERIOD_TIME_WRITE (R41). -/
def execAutoPeriodTimeWrite (via : Via) (v : Nat) (s : State) : Host.Outcome State Fault Refusal :=
  s.does (s.viaScalar via K.AUTO_PERIOD_TIME 8 v)

/-- MAILBOX_GO (R89). -/
def execMailboxGo (s : State) : Host.Outcome State Fault Refusal := s.does (s.hostWrite 0 (·.mailboxGo none))

/-- MAILBOX_DONE (R89). -/
def execMailboxDone (s : State) : Host.Outcome State Fault Refusal := s.does s.mailboxDone

/-- BAR_SLOT_READ (R92): a read of BAR0 or BAR2 of function `f`; slots, control page, mailbox buffers, MSI-X and controller registers. -/
def execBarSlotRead (f : Fin 7) (b : HostBar) (off size : Nat) (s : State) : Host.Outcome State Fault Refusal :=
  s.does (s.barRead none f b off size)

/-- BAR_SLOT_WRITE (R92): a write of BAR0 of function `f`. -/
def execBarSlotWrite (f : Fin 7) (addr : Nat) (data : List Nat) (s : State) : Host.Outcome State Fault Refusal :=
  s.does (s.barWrite none f .bar0 addr data)

/-- LARGE_OBJECT_WINDOW_READ (R94). -/
def execLargeObjectWindowRead (f : Fin 7) (off : Fin 1048576) (size : Nat) (s : State) : Host.Outcome State Fault Refusal :=
  s.does (s.hostRead f (·.windowRead none f off.val size))

/-- LARGE_OBJECT_WINDOW_WRITE (R94). -/
def execLargeObjectWindowWrite (f : Fin 7) (off : Fin 1048576) (data : List Nat) (s : State) : Host.Outcome State Fault Refusal :=
  s.does (s.hostWrite f (·.windowWrite none f off.val data))

/-- LOW_CTRL_CLOSE (R71, R88). -/
def execLowCtrlClose (f : Fin 7) (s : State) : Host.Outcome State Fault Refusal := s.does (s.hostWrite f (·.lowClose f))

/-- REGISTER_WRITE (R60). -/
def execRegisterWrite (t : RegTarget) (s : State) : Host.Outcome State Fault Refusal :=
  s.does (match t with
    | .object via i k seg data => s.viaWrite via i k (seg.map fun x => { off := x.1, more := x.2 }) data
    | .bar f b off data => s.barWrite none f b off data)

/-- PERSIST_SAVE (R64). -/
def execPersistSave (via : Via) (v : Nat) (s : State) : Host.Outcome State Fault Refusal := s.does (s.viaScalar via K.PERSIST_SAVE 1 v)

/-- PERSIST_CLEAR (R96). -/
def execPersistClear (via : Via) (v : Nat) (s : State) : Host.Outcome State Fault Refusal := s.does (s.viaScalar via K.PERSIST_CLEAR 1 v)

/-- NET_IPV4_ADDR_WRITE (R96): the address of port `p`. -/
def execNetIpv4AddrWrite (via : Via) (p : Fin 2) (ip : Nat) (s : State) : Host.Outcome State Fault Refusal :=
  s.does (s.viaElem via K.NET_IPV4_ADDR 4 p.val ip)

end Sys2Proof.Machine
end

