-- ==== Sys2Proof/Machine/HostPort.lean ====
section
/-!
DEFINITION. Meanings of the host port (16) and of the interrupt controllers (17).
-/

namespace Sys2Proof.Machine

namespace State

/-- The link is in L0, L1 or Recovery. -/
def linkOn (s : State) : Bool := [2, 3, 4].contains (s.common.n.num K.HP_LINK_STATE)

/-- PERST# is low (R449, R458). -/
def perstLow (s : State) : State :=
  if s.common.host.started.isNone then s
  else (s.portReset 0).modHost fun h => { h with started := none, ready := false }

/-- PERST# goes high: link timing starts (R449). -/
def perstHigh (s : State) : State :=
  if s.common.host.started.isSome then s
  else ((s.onN (·.putN K.HP_LINK_STATE 1)).takeLimits).modHost fun h => { h with started := some s.common.n.mono, ready := false }

/-- The level of PERST# while the device is held in reset: it is what the host port starts with. -/
def perstHeld (s : State) (high : Bool) : State := s.modHost fun h => { h with started := if high then some 0 else none }

/-- How PERST# acts. -/
def perst (s : State) (high : Bool) : Host.Outcome State Fault Refusal :=
  match s.common.held with
  | .none => s.does (if high then s.perstHigh else s.perstLow)
  | _ => .next (s.perstHeld high)

/-- The FLR of a function ends: common source 136 (R458). -/
def flrDone (s : State) (f : Fin 7) : State :=
  if (s.fnNode f).fn.flr then (s.flrEnd f).onN (·.occur 136) else s

/-- An error the host port detects (R456, R457): a poisoned request is discarded. -/
def pcieError (s : State) (f : Fin 7) (e : PcieError) : State :=
  if !s.linkOn then s else match e with
    | .correctable b recover =>
      let s := s.correctable f b.val
      if recover then s.onN (·.putN K.HP_LINK_STATE 4) else s
    | .poisoned => s.nonFatal f aerPoisoned
    | .fatal b down => s.fatal f b.val down

end State

/-- PERST_ASSERT (R458). -/
def execPerstAssert (s : State) : Host.Outcome State Fault Refusal := s.perst false

/-- PERST_DEASSERT (R449). -/
def execPerstDeassert (s : State) : Host.Outcome State Fault Refusal := s.perst true

/-- LINK_L0_ENTRY (R450): the link has come to L0 at LINK_RATE `rate` + 1 and a width of 2^`width` lanes. -/
def execLinkL0Entry (rate : Fin 6) (width : Fin 5) (flit reversed : Bool) (s : State) : Host.Outcome State Fault Refusal :=
  s.does (s.linkL0 (rate.val + 1) (2 ^ width.val) flit reversed)

/-- PCIE_LINK_DOWN (R450). -/
def execPcieLinkDown (s : State) : Host.Outcome State Fault Refusal := s.does (if s.linkOn then s.portReset 1 else s)

/-- HOT_RESET (R458): a hot reset, or a link disable. -/
def execHotReset (disable : Bool) (s : State) : Host.Outcome State Fault Refusal :=
  s.does (if s.linkOn then s.portReset (if disable then 5 else 1) else s)

/-- FLR (R458) of function `f`. -/
def execFlr (f : Fin 7) (s : State) : Host.Outcome State Fault Refusal :=
  s.does (if s.linkUp ∧ (s.fnNode f).fn.flr = false then s.flr f else s)

/-- FLR_COMPLETE (R458). -/
def execFlrComplete (f : Fin 7) (s : State) : Host.Outcome State Fault Refusal := s.does (s.flrDone f)

/-- PCIE_CONFIG_REQUEST (R449): a read, or a write of `w`. -/
def execPcieConfigRequest (f : Fin 7) (r : ConfigReg) (w : Option Nat) (s : State) : Host.Outcome State Fault Refusal :=
  s.does (s.configRequest f r w)

/-- PCIE_UNSUPPORTED_REQUEST (R456): a memory request that no BAR takes, or an AtomicOp, which is answered as a read is. -/
def execPcieUnsupportedRequest (f : Fin 7) (read : Bool) (s : State) : Host.Outcome State Fault Refusal :=
  s.does (if s.linkUp then s.unsupported f read else s)

/-- PCIE_ERROR_DETECTED (R457). -/
def execPcieErrorDetected (f : Fin 7) (e : PcieError) (s : State) : Host.Outcome State Fault Refusal :=
  s.does (s.pcieError f e)

/-- BAR4_WINDOW_READ (R453): `len` bytes at byte `off` of the window of channel `c`. -/
def execBar4WindowRead (c : Fin 6) (tag : Fin 65536) (off len : Nat) (s : State) : Host.Outcome State Fault Refusal :=
  s.does (s.bar4Read c tag.val off len)

/-- BAR4_WINDOW_WRITE (R453). -/
def execBar4WindowWrite (c : Fin 6) (off : Nat) (data : List Nat) (s : State) : Host.Outcome State Fault Refusal :=
  s.does (s.bar4Write c off data)

/-- WRITER_RELEASE (R459): the array, whole or as a segment. -/
def execWriterRelease (via : Via) (seg : Option (Nat × Bool)) (data : List Nat) (s : State) : Host.Outcome State Fault Refusal :=
  s.does (s.viaWrite via (K.WRITER_RELEASE / 256) (K.WRITER_RELEASE % 256) (seg.map fun (o, m) => { off := o, more := m }) data)

/-- BUS_MASTER_DISABLE (R459). -/
def execBusMasterDisable (f : Fin 7) (s : State) : Host.Outcome State Fault Refusal :=
  s.does (if s.linkUp then s.busMasterSet f false else s)

/-- ASPM_L1_ENTRY (R447). -/
def execAspmL1Entry (s : State) : Host.Outcome State Fault Refusal :=
  s.does (if s.linkUp then s.onN (·.putN K.HP_LINK_STATE 3) else s)

/-! ## Interrupt controllers (17) -/

/-- MSIX_MESSAGE_SEND (R466): vector `v` of function `f`. -/
def execMsixMessageSend (f : Fin 7) (v : Fin 64) (s : State) : Host.Outcome State Fault Refusal := s.does (s.onFn f (·.msixSend v.val))

/-- CLAIM (R469): a read of CLAIM_v. -/
def execClaim (f : Fin 7) (v : Fin 64) (s : State) : Host.Outcome State Fault Refusal :=
  s.does (s.barRead none f .bar2 (0x9000 + 8 * v.val) 4)

/-- COMPLETE (R470): a write of COMPLETE. -/
def execComplete (f : Fin 7) (v : Nat) (s : State) : Host.Outcome State Fault Refusal :=
  s.does (s.barWrite none f .bar2 0x8008 (leBytes 4 v))

/-- SRC_CFG_WRITE (R479): SRC_CFG of source `src`. -/
def execSrcCfgWrite (f : Fin 7) (src : Fin 256) (v : Nat) (s : State) : Host.Outcome State Fault Refusal :=
  s.does (s.barWrite none f .bar2 (0x8400 + 4 * src.val) (leBytes 4 v))

/-- GCTRL_WRITE (R467). -/
def execGctrlWrite (f : Fin 7) (v : Nat) (s : State) : Host.Outcome State Fault Refusal :=
  s.does (s.barWrite none f .bar2 0x8000 (leBytes 4 v))

/-- SWI_SET (R484). -/
def execSwiSet (f : Fin 7) (v : Nat) (s : State) : Host.Outcome State Fault Refusal :=
  s.does (s.barWrite none f .bar2 0x8018 (leBytes 4 v))

end Sys2Proof.Machine
end

