-- ==== Sys2Proof/Machine/Inputs.lean ====
section
/-!
DEFINITION. Meanings of the camera links, the aux port, the trigger pins and the merge arbiter (05 R153-R196).
-/

namespace Sys2Proof.Machine

namespace Chan

/-- What a camera sends on a link that is UP (R173). -/
def onUpLink (c : Chan) (link : Nat) (f : Chan → Chan) : Chan := if c.n.elem K.LK_LINK_STATE link = 3 then f c else c

/-- The bytes of a link pass the check-value contexts (12 R371). -/
def laneItem (c : Chan) (link : Nat) (bytes : List Nat) : Chan := if bytes.isEmpty then c else c.note (.item 1 link c.n.gen bytes)

/-- A control, event or heartbeat packet, or an exposure answer, which is consumed (R179). -/
def cxpControl (c : Chan) (link : Nat) (p : CxpControl) : Chan :=
  match p with
  | .packet bytes => c.cxpReceive link bytes
  | .exposureAck h => c.cxpExpoAck h.val

/-- The aux line ends; its record goes to the aux ring in channel memory (R181). -/
def auxDone (c : Chan) (level : Bool) (es : List AuxEdge) : Chan :=
  match c.auxEnd level es with
  | (c, some (off, bytes)) => (c.memStoreRing 2 (c.n.num K.AUX_RING_ADDR) (c.n.num K.AUX_RING_SIZE) off bytes).1
  | (c, none) => c

/-- The next line or lost descriptor of the merge arbiter (R192): the lowest TRIG_POS, then the lowest head, then the order of issue. -/
def mergeNext (c : Chan) : Option HeadLine :=
  ((List.range 4).filterMap fun h => (c.head h).lines.foldl (fun best l => match best with
      | some b => if l.desc.pos < b.desc.pos then some l else best
      | none => some l) (none : Option HeadLine)).foldl (fun best l => match best with
    | some b => if l.desc.pos < b.desc.pos then some l else best
    | none => some l) none

/-- The merge arbiter passes its next line once the line has closed and left its head's front end (R192). -/
def mergePass (c : Chan) : Chan :=
  match c.mergeNext with
  | none => c
  | some l =>
    if !l.closed || l.front.isNone then c else
      let h := l.desc.head
      let c := c.modHead h fun x => { x with lines := x.lines.erase l }
      c.geoLine l (if l.desc.lost then none else l.front)

end Chan

/-- BUARNLINK_BURST (R167): LINE_START and the data blocks that followed; `overrun`: lanes whose FIFO overran. -/
def execBuarnlinkBurst (c : Fin 6) (link : Fin 8) (head : Fin 4) (tap : Fin 8) (first : Bool) (tag offset : Nat) (blocks : Fin 256)
    (data overrun : List Nat) (s : State) : Host.Outcome State Fault Refusal :=
  s.does (s.onLive c (·.onUpLink link.val fun x =>
    (x.laneItem link.val data).blBurst link.val head.val tap.val first tag offset blocks.val data overrun))

/-- BUARNLINK_LINE_END (R164). -/
def execBuarnlinkLineEnd (c : Fin 6) (link : Fin 8) (head : Fin 4) (tap : Fin 8) (count crc : Nat) (s : State) :
    Host.Outcome State Fault Refusal :=
  s.does (s.onLive c (·.onUpLink link.val (·.blLineEnd link.val head.val tap.val count crc)))

/-- BUARNLINK_TRIGGER_ACK (R165). -/
def execBuarnlinkTriggerAck (c : Fin 6) (link : Fin 8) (head : Fin 4) (overrun : Bool) (num delay : Nat) (s : State) :
    Host.Outcome State Fault Refusal :=
  s.does (s.onLive c (·.onUpLink link.val (·.blTriggerAck link.val head.val overrun num delay)))

/-- BUARNLINK_TEMPERATURE (R166). -/
def execBuarnlinkTemperature (c : Fin 6) (link : Fin 8) (head : Fin 4) (t : Int) (s : State) : Host.Outcome State Fault Refusal :=
  s.does (s.onLive c (·.onUpLink link.val (·.blTemperature link.val head.val (toBits 16 t))))

/-- BUARNLINK_REG_DATA (R166). -/
def execBuarnlinkRegData (c : Fin 6) (link : Fin 8) (tag : Fin 256) (v : Nat) (s : State) : Host.Outcome State Fault Refusal :=
  s.does (s.onLive c (·.onUpLink link.val (·.regData link.val tag.val v)))

/-- BUARNLINK_REG_ACK (R166). -/
def execBuarnlinkRegAck (c : Fin 6) (link : Fin 8) (tag result : Fin 256) (s : State) : Host.Outcome State Fault Refusal :=
  s.does (s.onLive c (·.onUpLink link.val (·.regAck link.val tag.val result.val)))

/-- BUARNLINK_EXPO_ACK (R166). -/
def execBuarnlinkExpoAck (c : Fin 6) (link : Fin 8) (head : Fin 4) (trig : Nat) (result : Fin 256) (s : State) :
    Host.Outcome State Fault Refusal :=
  s.does (s.onLive c (·.onUpLink link.val (·.expoAck link.val head.val trig result.val)))

/-- BUARNLINK_ALIGN (R161): the ALIGN blocks of one period on the lanes of a link. -/
def execBuarnlinkAlign (c : Fin 6) (link : Fin 8) (bs : List AlignBlock) (s : State) : Host.Outcome State Fault Refusal :=
  s.does (s.onUp c (·.blAlign link.val bs))

/-- BUARNLINK_DECODE_ERROR (R162). -/
def execBuarnlinkDecodeError (c : Fin 6) (link : Fin 8) (s : State) : Host.Outcome State Fault Refusal :=
  s.does (s.onUp c (·.onUpLink link.val (·.decodeErrors link.val 1)))

/-- BLOCK_LOCK (R173). -/
def execBlockLock (c : Fin 6) (l : Fin 8) (s : State) : Host.Outcome State Fault Refusal := s.does (s.onUp c (·.blockLock l.val))

/-- BLOCK_LOCK_LOSS (R174). -/
def execBlockLockLoss (c : Fin 6) (l : Fin 8) (s : State) : Host.Outcome State Fault Refusal := s.does (s.onUp c (·.blockLockLoss l.val))

/-- ALIGN_MISSING (R174). -/
def execAlignMissing (c : Fin 6) (link : Fin 8) (s : State) : Host.Outcome State Fault Refusal := s.does (s.onUp c (·.alignMissing link.val))

/-- EXPO_ACK_TIMEOUT (R172). -/
def execExpoAckTimeout (c : Fin 6) (h : Fin 4) (s : State) : Host.Outcome State Fault Refusal := s.does (s.onLive c (·.expoTimeout h.val))

/-- BL_REG_READ (R172): BL_REG_CMD written 1. -/
def execBlRegRead (via : Via) (c : Fin 6) (s : State) : Host.Outcome State Fault Refusal := s.does (s.viaChan via c K.BL_REG_CMD 1 1)

/-- BL_REG_WRITE (R172): BL_REG_CMD written 2. -/
def execBlRegWrite (via : Via) (c : Fin 6) (s : State) : Host.Outcome State Fault Refusal := s.does (s.viaChan via c K.BL_REG_CMD 1 2)

/-- BL_REG_TIMEOUT (R172). -/
def execBlRegTimeout (c : Fin 6) (s : State) : Host.Outcome State Fault Refusal := s.does (s.onUp c (·.regTimeout))

/-- CXP_STREAM_PACKET (R177): what it carries for the tap line, and its payload bytes. -/
def execCxpStreamPacket (c : Fin 6) (link : Fin 8) (id : Nat) (u : StreamUnit) (crcOk : Bool) (payload overrun : List Nat) (s : State) :
    Host.Outcome State Fault Refusal :=
  s.does (s.onLive c (·.onUpLink link.val fun x => (x.laneItem link.val payload).cxpStream link.val id u crcOk overrun))

/-- CXP_CONTROL_RECEIVE (R179). -/
def execCxpControlReceive (c : Fin 6) (link : Fin 8) (p : CxpControl) (s : State) : Host.Outcome State Fault Refusal :=
  s.does (s.onUp c (·.onUpLink link.val (·.cxpControl link.val p)))

/-- CXP_CTRL_TX (R179). -/
def execCxpCtrlTx (via : Via) (c : Fin 6) (packet : List Nat) (s : State) : Host.Outcome State Fault Refusal :=
  s.does (s.viaWrite via (K.CXP_CTRL_TX / 256 + 0x800 * c.val) (K.CXP_CTRL_TX % 256) none packet)

/-- CXP_CTRL_POP (R179). -/
def execCxpCtrlPop (via : Via) (c : Fin 6) (v : Nat) (s : State) : Host.Outcome State Fault Refusal :=
  s.does (s.viaChan via c K.CXP_CTRL_POP 1 v)

/-- CXP_EXPO_WRITE_TIMEOUT (09 R290). -/
def execCxpExpoWriteTimeout (c : Fin 6) (h : Fin 4) (s : State) : Host.Outcome State Fault Refusal :=
  s.does (s.onLive c (·.cxpExpoTimeout h.val))

/-- CXP_LINK_UP (R195). -/
def execCxpLinkUp (c : Fin 6) (link : Fin 8) (s : State) : Host.Outcome State Fault Refusal := s.does (s.onUp c (·.cxpLinkUp link.val))

/-- AUX_LINE_START (R180). -/
def execAuxLineStart (x : AuxLval) (s : State) : Host.Outcome State Fault Refusal := s.does (s.onLive x.chan (·.auxStart x.level))

/-- AUX_LINE_END (R181), after the PCLK edges `es` of the line. -/
def execAuxLineEnd (x : AuxLval) (es : List AuxEdge) (s : State) : Host.Outcome State Fault Refusal :=
  s.does (s.onLive x.chan (·.auxDone x.level es))

/-- TRG_PULSE_END (R185). -/
def execTrgPulseEnd (c : Fin 6) (t : Fin 4) (s : State) : Host.Outcome State Fault Refusal := s.does (s.onUp c (·.pulseEnd t.val))

/-- TRG_GAP_END (R185). -/
def execTrgGapEnd (c : Fin 6) (t : Fin 4) (s : State) : Host.Outcome State Fault Refusal := s.does (s.onUp c (·.gapEnd t.val))

/-- LINE_TIMEOUT (R187). -/
def execLineTimeout (c : Fin 6) (h : Fin 4) (s : State) : Host.Outcome State Fault Refusal := s.does (s.onLive c (·.lineTimeout h.val))

/-- MERGE_PASS_LINE (R192). -/
def execMergePassLine (c : Fin 6) (s : State) : Host.Outcome State Fault Refusal := s.does (s.onClocked c (·.mergePass))

/-- SENSOR_TEMP_SET (R187) of head `h`. -/
def execSensorTempSet (via : Via) (c : Fin 6) (h : Fin 4) (t : Int) (s : State) : Host.Outcome State Fault Refusal :=
  s.does (s.viaChan via c (ik K.SENSOR_TEMP_SET h.val) 2 (toBits 16 t))

/-- LANE_CONFIG_WRITE (R195): LANE_ROLE, LINK_WIDTH or CXP_SPEED, one byte a lane. -/
def execLaneConfigWrite (via : Via) (c : Fin 6) (what : LaneConfig) (vals : List Nat) (s : State) : Host.Outcome State Fault Refusal :=
  let k := match what with | .role => K.LANE_ROLE | .width => K.LK_LINK_WIDTH | .speed => K.CXP_SPEED
  s.does (s.viaWrite via (k / 256 + 0x800 * c.val) (k % 256) none vals)

end Sys2Proof.Machine
end

