-- ==== Sys2Proof/Machine/Lanes.lean ====
section
/-!
DEFINITION. Meanings of the serial lanes (06 R197-R219).
-/

namespace Sys2Proof.Machine

/-- The key of the index of camera lane `l`. -/
def cameraKey (l : Nat) : Nat := 0x818000 + 256 * l

/-- The number of a lane in the trim sets (19 R509). -/
def laneNumber : LaneRef → Nat
  | .camera c l => 8 * c.val + l.val
  | .duplex d => 48 + d.val

/-- The key of a lane's index as a host write names it: of SW0's form for a camera lane. -/
def laneKeyOf : LaneRef → Nat
  | .camera _ l => cameraKey l.val
  | .duplex d => duplexKey d.val

namespace State

/-- An act of an enabled lane; one in standby or powered down takes no part (R215). `f` is given the lane's key. -/
def laneAct (s : State) (r : LaneRef) (f : Nat → LaneNode → LaneNode) : State :=
  match r with
  | .camera c l => s.onUp c fun x => if x.laneOn l.val && !(x.lane l.val).standby then x.onLane l.val (f (cameraKey l.val)) else x
  | .duplex d => if s.duplexOn d.val then s.onDuplex d.val (f (duplexKey d.val)) else s

/-- An act on the trims of a lane, enabled or not (R207). -/
def laneTrim (s : State) (r : LaneRef) (f : Nat → LaneNode → LaneNode) : State :=
  match r with
  | .camera c l => s.onUp c fun x => x.onLane l.val (f (cameraKey l.val))
  | .duplex d => s.onDuplex d.val (f (duplexKey d.val))

/-- The lane has block or character lock, as far as the model holds it: a BuarnLink lane's block lock, else what the command says. -/
def laneLocked (s : State) (r : LaneRef) (told : Bool) : Bool :=
  match r with
  | .camera c l => if 2 ≤ (s.chan c).n.elem K.LANE_ROLE l.val then ((s.chan c).lane l.val).blockLock else told
  | .duplex _ => told

/-- PAT_WORD of a lane's unit (R211). -/
def patWord (s : State) (r : LaneRef) : Nat :=
  match r with
  | .camera c _ => (s.chan c).n.num 0x818801
  | .duplex _ => s.common.n.num 0x21F901

/-- A detector of the lane asserts: its link falls (R174, R206). -/
def laneLoss (s : State) (r : LaneRef) : State :=
  match r with
  | .camera c l => s.onUp c fun x => if (x.lane l.val).lol then x.laneLost l.val else x
  | .duplex d =>
    if (s.common.lanes.getD d.val {}).lol then
      let s := s.onDuplex d.val fun x => (x.1, { x.2 with cdr := false, blockLock := false })
      if d.val < 2 then s.onTb (netLink d.val false)
      else if s.ring.portState ((d.val - 2) / 2) = 0 then s else s.onBw (·.portChange ((d.val - 2) / 2) 0)
    else s

/-- A scan of the lane ends with a status (R214). -/
def scanEndAt (s : State) (r : LaneRef) (status : Nat) : State :=
  match r with
  | .camera c l => s.onUp c (·.scanStop l.val status)
  | .duplex d => s.duplexScanStop d.val status

/-- LOS asserts (R206): LOL with it, the link falls, a scan of the lane ends with ERROR. -/
def losAssert (s : State) (r : LaneRef) : State :=
  let was : Bool := match r with | .camera c l => ((s.chan c).lane l.val).los | .duplex d => (s.common.lanes.getD d.val {}).los
  let s := s.laneAct r laneLos
  let now : Bool := match r with | .camera c l => ((s.chan c).lane l.val).los | .duplex d => (s.common.lanes.getD d.val {}).los
  if now && !was then (s.scanEndAt r 4).laneLoss r else s

/-- An act of the lane in which LOL may assert (R206). -/
def lolAct (s : State) (r : LaneRef) (f : Nat → LaneNode → LaneNode) : State :=
  let was : Bool := match r with | .camera c l => ((s.chan c).lane l.val).lol | .duplex d => (s.common.lanes.getD d.val {}).lol
  let s := s.laneAct r f
  if was then s else s.laneLoss r

/-- CDR lock with its first measurement (R201): a lane with LOS asserted does not lock, and an offset outside ±LOL_PPM asserts LOL (R206). -/
def cdrLock (s : State) (r : LaneRef) (freq : Int) : State :=
  s.lolAct r fun kb x => if x.2.los then x else laneMeasure kb freq 0 (laneLock kb freq x)

/-- A scan runs on the lane. -/
def scanning (s : State) (r : LaneRef) : Bool :=
  match r with
  | .camera c l => (match (s.chan c).scan with | some x => x.lane == l.val | none => false)
  | .duplex d => (match s.common.scan with | some x => x.lane == d.val | none => false)

/-- The trims of a lane at the temperature of its sensor (R207). -/
def trimUpdate (s : State) (r : LaneRef) : State := s.trimAt (laneNumber r)

/-- A host write of a scalar object `sub` of a lane. -/
def laneWrite (s : State) (via : Via) (r : LaneRef) (sub n v : Nat) : State :=
  match r with
  | .camera c _ => s.viaChan via c (laneKeyOf r + sub) n v
  | .duplex _ => s.viaScalar via (laneKeyOf r + sub) n v

/-- SCAN_CTRL written. -/
def scanWrite (s : State) (via : Via) (r : ScanRef) (v : Nat) : State :=
  match r with
  | .camera c => s.viaChan via c 0x818909 1 v
  | .duplex => s.viaScalar via 0x21F809 1 v

/-- A scan point has been measured (R213). -/
def scanPointDone (s : State) (r : ScanRef) (errors : Nat) : State :=
  match r with
  | .camera c => s.onUp c fun x => match x.scan with
    | some sc => let (n, sc) := scanPoint 0x818900 errors x.n sc; { x with n := n, scan := sc }
    | none => x
  | .duplex => match s.common.scan with
    | some sc => let (n, sc) := scanPoint 0x21F800 errors s.common.n sc; { s with common := { s.common with n := n, scan := sc } }
    | none => s

end State

/-- CDR_LOCK (R201): the measured frequency offset. -/
def execCdrLock (r : LaneRef) (freq : Int) (s : State) : Host.Outcome State Fault Refusal := s.does (s.cdrLock r freq)

/-- LOS_ASSERT (R206). -/
def execLosAssert (r : LaneRef) (s : State) : Host.Outcome State Fault Refusal := s.does (s.losAssert r)

/-- LOS_DEASSERT (R206). -/
def execLosDeassert (r : LaneRef) (s : State) : Host.Outcome State Fault Refusal :=
  s.does (s.laneAct r fun _ x => (x.1, { x.2 with los := false }))

/-- LOL_ASSERT (R201, R206). -/
def execLolAssert (m : CdrMeasure) (s : State) : Host.Outcome State Fault Refusal :=
  s.does (s.lolAct m.r fun kb => laneMeasure kb m.freq m.slips)

/-- LOL_DEASSERT (R206). -/
def execLolDeassert (m : CdrRegain) (s : State) : Host.Outcome State Fault Refusal :=
  s.does (s.laneAct m.r fun kb => laneRegain kb [m.f1, m.f2, m.f3])

/-- LOL_TRIM_RELOAD (R203). -/
def execLolTrimReload (r : LaneRef) (s : State) : Host.Outcome State Fault Refusal := s.does (s.laneAct r laneLolReload)

/-- IDLE_MONITOR_WINDOW (R204): bit changes, and idle units of `total`. -/
def execIdleMonitorWindow (r : LaneRef) (changes idle total : Nat) (x : WindowCheck) (s : State) :
    Host.Outcome State Fault Refusal :=
  s.does (s.laneAct r fun kb => laneWindow kb changes idle total x.compared x.errors (s.laneLocked r x.locked) (s.scanning r))

/-- DFE_UPDATE (R202): the sign each tap moves by. -/
def execDfeUpdate (r : LaneRef) (steps : List Int) (s : State) : Host.Outcome State Fault Refusal := s.does (s.laneAct r fun kb => laneDfe kb steps)

/-- CTLE_UPDATE (R202). -/
def execCtleUpdate (r : LaneRef) (step : Int) (s : State) : Host.Outcome State Fault Refusal := s.does (s.laneAct r fun kb => laneCtle kb step)

/-- ONE_SHOT_CONVERGE (R203). -/
def execOneShotConverge (r : LaneRef) (s : State) : Host.Outcome State Fault Refusal := s.does (s.laneAct r laneConverge)

/-- WANDER (R205): of a camera lane under its source, of a duplex lane under code 0204h. -/
def execWander (r : LaneRef) (s : State) : Host.Outcome State Fault Refusal :=
  let write (n : Node) : Node := match r with
    | .camera _ l => n.alarm (19 + 3 * l.val)
    | .duplex d => n.log 2 0x204 d.val
  s.does (s.laneAct r fun kb => laneWander kb write)

/-- TRIM_UPDATE (R207). -/
def execTrimUpdate (r : LaneRef) (s : State) : Host.Outcome State Fault Refusal := s.does (s.trimUpdate r)

/-- TRIM_RAMP_STEP (R207). -/
def execTrimRampStep (r : LaneRef) (s : State) : Host.Outcome State Fault Refusal := s.does (s.laneTrim r laneRamp)

/-- ADAPT_MODE_WRITE (R203). -/
def execAdaptModeWrite (via : Via) (r : LaneRef) (v : Nat) (s : State) : Host.Outcome State Fault Refusal := s.does (s.laneWrite via r 2 1 v)

/-- TX_FIR_WRITE (R208): pre, main, post of duplex lane `d`. -/
def execTxFirWrite (via : Via) (d : Fin 6) (pre main post : Fin 256) (s : State) : Host.Outcome State Fault Refusal :=
  s.does (s.viaWrite via (0x21F0 + d.val) 0x21 none [pre.val, main.val, post.val])

/-- LANE_TEST_WRITE (R209). -/
def execLaneTestWrite (via : Via) (r : LaneRef) (v : Nat) (s : State) : Host.Outcome State Fault Refusal := s.does (s.laneWrite via r 0x15 1 v)

/-- PRBS_CLEAR (R212). -/
def execPrbsClear (via : Via) (r : LaneRef) (v : Nat) (s : State) : Host.Outcome State Fault Refusal := s.does (s.laneWrite via r 0x1C 1 v)

/-- PRBS_SYNC_LOSS (R212): the bits since the last whole window, and their errors. -/
def execPrbsSyncLoss (r : LaneRef) (bits : Nat) (x : PrbsErrors) (s : State) : Host.Outcome State Fault Refusal :=
  s.does (s.laneAct r fun kb => lanePrbsLoss kb bits x.errors x.wrong)

/-- PRBS_SYNC_GAIN (R212): the received bits. -/
def execPrbsSyncGain (x : PrbsBits) (s : State) : Host.Outcome State Fault Refusal :=
  s.does (s.laneAct x.r fun kb => lanePrbsGain kb (s.patWord x.r) x.bits)

/-- SCAN_START (R214): SCAN_CTRL written 1. -/
def execScanStart (via : Via) (r : ScanRef) (s : State) : Host.Outcome State Fault Refusal := s.does (s.scanWrite via r 1)

/-- SCAN_ABORT (R214): SCAN_CTRL written 2. -/
def execScanAbort (via : Via) (r : ScanRef) (s : State) : Host.Outcome State Fault Refusal := s.does (s.scanWrite via r 2)

/-- SCAN_POINT_DONE (R213). -/
def execScanPointDone (r : ScanRef) (errors : Nat) (s : State) : Host.Outcome State Fault Refusal := s.does (s.scanPointDone r errors)

end Sys2Proof.Machine
end

