-- ==== Sys2Proof/Machine/Memory.lean ====
section
/-!
DEFINITION. Meanings of the channel memory (13), which its controller serves in a channel reset too.
-/

namespace Sys2Proof.Machine

/-- The readings of MR4 by subchannel and rank. -/
def mr4Vals (vals : List (Fin 256 × Fin 4)) : List (Nat × Nat) := vals.map fun p => (p.1.val, p.2.val)

namespace Chan

/-- The controller acts on its memory only in READY, or on the way into self-refresh (R394). -/
def whenReady (c : Chan) (f : Chan → Chan) : Chan := if c.memState = 2 ∨ c.memState = 3 then f c else c

/-- Crops that waited for the memory are taken once it answers (R392, R443). -/
def memAgain (c : Chan) : Chan := if c.memWaiting then c else c.takeCrops

/-- The memory PLL loses lock in READY (R394). -/
def pllLoss (c : Chan) : Chan := if c.memState = 2 then c.memFail else c

end Chan

/-- MEM_REQUEST (R381): a unit's request, of the alignment ring (class 0), Class C (1) or Class D (2). -/
def execMemRequest (c : Fin 6) (cls : Fin 3) (tag : Fin 65536) (write : Bool) (addr len : Nat) (bytes : List Nat) (s : State) :
    Host.Outcome State Fault Refusal :=
  s.does (s.onChan c (·.memRequest { tag := tag.val, cls := cls.val, write := write, addr := addr, len := len, bytes := bytes }))

/-- MEM_ACCESS_COMPLETE (R380, R381): access `j` of the queue of subchannel `sub`. -/
def execMemAccessComplete (c : Fin 6) (sub : Fin 4) (j : Fin 32) (s : State) : Host.Outcome State Fault Refusal :=
  s.does (s.onChan c (·.memComplete sub.val j.val))

/-- REFRESH_SLOT (R384): `i` is 2 · subchannel + rank. -/
def execRefreshSlot (c : Fin 6) (i : Fin 8) (s : State) : Host.Outcome State Fault Refusal := s.does (s.onChan c (·.refSlot i.val))

/-- REFPB_DONE (R384). -/
def execRefpbDone (c : Fin 6) (i : Fin 8) (s : State) : Host.Outcome State Fault Refusal := s.does (s.onChan c (·.refDone i.val))

/-- FORCED_BURST_STEP (R386). -/
def execForcedBurstStep (c : Fin 6) (i : Fin 8) (s : State) : Host.Outcome State Fault Refusal := s.does (s.onChan c (·.burstStep i.val))

/-- MR4_POLL (R385): what MR4 of each subchannel and rank reads, and the temperature range it stands for. -/
def execMr4Poll (c : Fin 6) (vals : List (Fin 256 × Fin 4)) (s : State) : Host.Outcome State Fault Refusal :=
  s.does (s.onChan c (·.whenReady fun x => x.mr4All false (mr4Vals vals)))

/-- WCK2DQ_UPDATE (R393): the write timing follows the oscillators between accesses, which nothing of the state shows. -/
def execWck2dqUpdate (_c : Fin 6) (s : State) : Host.Outcome State Fault Refusal := s.does s

/-- SR_ENTRY (R389 step 1): a cause that stands takes a READY memory to SR_ENTRY. -/
def execSrEntry (c : Fin 6) (s : State) : Host.Outcome State Fault Refusal := s.does (s.onChan c (·.srStart))

/-- SR_COMMIT (R389 steps 2 to 5). -/
def execSrCommit (c : Fin 6) (s : State) : Host.Outcome State Fault Refusal := s.does (s.onChan c (·.srCommit))

/-- SR_EXIT (R390): the exit ends, with the MR4 readings taken in it. -/
def execSrExit (c : Fin 6) (vals : List (Fin 256 × Fin 4)) (s : State) : Host.Outcome State Fault Refusal :=
  s.does (s.onChan c fun x => (x.srExit (mr4Vals vals)).memAgain)

/-- SR_TEST_ENTER (R388): SR_TEST written 1. -/
def execSrTestEnter (via : Via) (c : Fin 6) (s : State) : Host.Outcome State Fault Refusal := s.does (s.viaChan via c K.SR_TEST 1 1)

/-- SR_TEST_LEAVE (R388): SR_TEST written 2. -/
def execSrTestLeave (via : Via) (c : Fin 6) (s : State) : Host.Outcome State Fault Refusal := s.does (s.viaChan via c K.SR_TEST 1 2)

/-- FREQ_SWITCH (R392): FREQ_SWITCH written 1. -/
def execFreqSwitch (via : Via) (c : Fin 6) (s : State) : Host.Outcome State Fault Refusal := s.does (s.viaChan via c K.FREQ_SWITCH 1 1)

/-- FREQ_CHANGE_DONE (R392 steps 2 to 6), with the MR4 readings of the exit. -/
def execFreqChangeDone (c : Fin 6) (vals : List (Fin 256 × Fin 4)) (s : State) : Host.Outcome State Fault Refusal :=
  s.does (s.onChan c fun x => (x.freqDone (mr4Vals vals)).memAgain)

/-- MEM_TRAIN (R393): MEM_TRAIN written 1. -/
def execMemTrain (via : Via) (c : Fin 6) (s : State) : Host.Outcome State Fault Refusal := s.does (s.viaChan via c K.MEM_TRAIN 1 1)

/-- TRAINING_DONE (R393): `fail` is the failing step less 1 and bits 7 to 4 of TRAIN_DETAIL. -/
def execTrainingDone (c : Fin 6) (fail : Option (Fin 6 × Fin 16)) (s : State) : Host.Outcome State Fault Refusal :=
  s.does (s.onChan c fun x => (x.trainDone (fail.map fun p => (p.1.val + 1, 16 * p.2.val))).memAgain)

/-- MEM_PLL_LOSS (R394). -/
def execMemPllLoss (c : Fin 6) (s : State) : Host.Outcome State Fault Refusal := s.does (s.onChan c (·.pllLoss))

/-- NBR_SEED_WRITE (R387). -/
def execNbrSeedWrite (via : Via) (c : Fin 6) (v : Nat) (s : State) : Host.Outcome State Fault Refusal :=
  s.does (s.viaChan via c K.NBR_SEED 4 v)

/-- TIMING_SET_WRITE (R391): object `sub` of timing set A (0) or B (1). -/
def execTimingSetWrite (via : Via) (c : Fin 6) (set : Fin 2) (sub : Fin 256) (seg : Option (Nat × Bool)) (data : List Nat) (s : State) :
    Host.Outcome State Fault Refusal :=
  s.does (s.viaWrite via (0x8608 + set.val + 0x800 * c.val) sub.val (seg.map fun (o, m) => { off := o, more := m }) data)

end Sys2Proof.Machine
end

