-- ==== Sys2Proof/Machine/Motion.lean ====
section
/-!
DEFINITION. Meanings of the encoder inputs, the web position, the trigger generators and the divided outputs (03 R101-R126).
-/

namespace Sys2Proof.Machine

namespace State

/-- An accepted level change of encoder `i` (R101-R104), an edge entry for each counted edge of the active one (R357). -/
def encoderEdge (s : State) (i : Nat) (a b : Bool) (held : Nat × Nat) (cycle : Nat) : State :=
  s.onEncWith fun x =>
    let (y, d) := encEdge i a b held cycle x
    (y, if d.isSome && wpActive y.1 y.2 == some i then [0] else [])

/-- A level of Z of encoder `i` (R106, R107), an index step of the active one going to the journals. -/
def encoderIndex (s : State) (i : Nat) (z : Bool) (held : Nat) : State :=
  s.onEncWith fun x =>
    let (y, d) := encIndex i z held x
    (y, if d.isSome && wpActive y.1 y.2 == some i then [1] else [])

end State

/-- ENCODER_EDGE (R101, R103) of encoder `i`. -/
def execEncoderEdge (i : Fin 8) (ab : EncLevels) (x : EncSamples) (s : State) : Host.Outcome State Fault Refusal :=
  s.does (s.encoderEdge i.val ab.a ab.b (x.heldA, x.heldB) x.cycle.val)

/-- ENCODER_INDEX (R101, R106). -/
def execEncoderIndex (x : EncZ) (s : State) : Host.Outcome State Fault Refusal :=
  s.does (s.encoderIndex x.i.val x.z x.held)

/-- WIRE_FAULT (R105): pair A, B or Z. -/
def execWireFault (i : Fin 8) (pair : Fin 3) (s : State) : Host.Outcome State Fault Refusal := s.does (s.onEnc (wireFault i.val pair.val))

/-- WIRE_CHECK_END (R105). -/
def execWireCheckEnd (i : Fin 8) (s : State) : Host.Outcome State Fault Refusal := s.does (s.onEnc (wireEnd i.val))

/-- STANDSTILL_TIMEOUT (R110). -/
def execStandstillTimeout (i : Fin 8) (s : State) : Host.Outcome State Fault Refusal := s.does (s.onEnc (encStandstill i.val))

/-- FAILOVER_SILENCE_EXPIRE (R115). -/
def execFailoverSilenceExpire (s : State) : Host.Outcome State Fault Refusal := s.does (s.onEnc failSilence)

/-- FAILBACK (R116). -/
def execFailback (via : Via) (v : Nat) (s : State) : Host.Outcome State Fault Refusal := s.does (s.viaScalar via K.FAILBACK 1 v)

/-- DEVIATION_RESET (R118). -/
def execDeviationReset (via : Via) (v : Nat) (s : State) : Host.Outcome State Fault Refusal := s.does (s.viaScalar via K.DEVIATION_RESET 1 v)

/-- GRID_POINT_REACHED (R120): the generator of head `h` of channel `c` in an ENCCLK cycle since the last time update. -/
def execGridPointReached (c : Fin 6) (h : EncTick) (s : State) : Host.Outcome State Fault Refusal :=
  s.does (s.onLive c (·.gridIn h.at_.val h.cycle.val (s.webPosIn h.cycle.val)))

/-- ENCOUT_EMIT (R124): divided output `m`, in an ENCCLK cycle since the last time update. -/
def execEncoutEmit (m : EncTick) (s : State) : Host.Outcome State Fault Refusal := s.does (s.onEnc (outEmit m.at_.val m.cycle.val))

end Sys2Proof.Machine
end

