-- ==== Sys2Proof/Machine/Power.lean ====
section
/-!
DEFINITION. Meanings of the power states, resets and start-up (20) and of the monitors (22).
-/

namespace Sys2Proof.Machine

namespace State

/-- The position-named Slates to come: the pending one and the next automatic one (R525). -/
def slatesAhead (s : State) : List Pos :=
  let q := s.common.n.num K.AUTO_PERIOD_POS
  (match s.common.slate.pending with | .pos p => [p] | _ => []) ++
    (if q = 0 ∨ s.ring.bound = true then [] else [max s.common.slate.multiple (multipleBelow q s.pos) + q])

/-- The times of the armed actions that select channel `c`, and of entry 63 (R525). -/
def actionsAhead (s : State) (c : Fin 6) : List Ticks :=
  (s.common.time.armed.filterMap fun (_, x) =>
    if taPart x.kind x.target c = 0 then none else some (x.time + x.passed * nsTicks x.period)) ++ s.entry63.toList

/-- What the power manager knows for channel `c` (R525). -/
def powerView (s : State) (c : Fin 6) : PowerView :=
  let n := s.common.n
  { wpState := s.wpState, upstream := s.wpUpstream, noSource := s.common.enc.wp.src == .noSource && !s.ring.member,
    speed := s.wpSpeeds.2.natAbs, accel := n.num K.PWR_ACCEL, margin := n.num K.PWR_MARGIN,
    deepest := n.elem K.PWR_DEEPEST c.val, stillDeepest := n.elem K.PWR_STILL_DEEPEST c.val,
    slates := s.slatesAhead, actions := s.actionsAhead c }

/-- A wake completes, and what waited for it acts (R147, R522). -/
def wakeEnd (s : State) (c : Fin 6) : State :=
  let t := s.onUp c (·.wakeDone)
  if (s.chan c).power.phase == .waking && (t.chan c).power.phase == .steady then t.taWoken c else t

/-- PORST# low (R531): it holds the device, whatever held it before. -/
def porstLow (s : State) : State := if s.common.held = .porst then s else s.deviceDown .porst 0

/-- A reset that holds the device ends, and it starts (R533): `fuse` is FUSE_STATUS, `dev` the store that answers. -/
def holdEnd (s : State) (h : Held) (cause fuse : Nat) (dev : Option StoreDev) : State :=
  if s.common.held = h then s.boot cause fuse dev else s

end State

/-- POWER_DECISION (R526): for channel `c`. -/
def execPowerDecision (c : Fin 6) (s : State) : Host.Outcome State Fault Refusal := s.does (s.onChan c (·.pwrDecide (s.powerView c)))

/-- STATE_ENTRY_DONE (R521). -/
def execStateEntryDone (c : Fin 6) (s : State) : Host.Outcome State Fault Refusal := s.does (s.onUp c (·.entryDone))

/-- WAKE_COMPLETE (R522). -/
def execWakeComplete (c : Fin 6) (s : State) : Host.Outcome State Fault Refusal := s.does (s.wakeEnd c)

/-- PWR_WAKE (R527): element `c` written 1. -/
def execPwrWake (via : Via) (c : Fin 6) (s : State) : Host.Outcome State Fault Refusal := s.does (s.viaElem via K.PWR_WAKE 1 c.val 1)

/-- CH_RESET_ASSERT (R532): element `c` written 1. -/
def execChResetAssert (via : Via) (c : Fin 6) (s : State) : Host.Outcome State Fault Refusal := s.does (s.viaElem via K.CH_RESET 1 c.val 1)

/-- CH_RESET_RELEASE (R532): element `c` written 0. -/
def execChResetRelease (via : Via) (c : Fin 6) (s : State) : Host.Outcome State Fault Refusal := s.does (s.viaElem via K.CH_RESET 1 c.val 0)

/-- DEVICE_RESET (R531): DEVICE_RESET written 5Ah. -/
def execDeviceReset (via : Via) (s : State) : Host.Outcome State Fault Refusal := s.does (s.viaScalar via K.DEVICE_RESET 1 0x5A)

/-- PORST_ASSERT (R531). -/
def execPorstAssert (s : State) : Host.Outcome State Fault Refusal := .next s.porstLow

/-- PORST_RELEASE (R533): how the fuses read, and the store device (JEDEC ID, capacity) if one answers. -/
def execPorstRelease (fuse : Fin 3) (dev : Option StoreDev) (s : State) : Host.Outcome State Fault Refusal :=
  .next (s.holdEnd .porst 0 fuse.val dev)

/-- THERMAL_TRIP (R531). -/
def execThermalTrip (s : State) : Host.Outcome State Fault Refusal := s.does (s.deviceDown .thermal 1)

/-- THERMAL_TRIP_RELEASE (R531). -/
def execThermalTripRelease (fuse : Fin 3) (dev : Option StoreDev) (s : State) : Host.Outcome State Fault Refusal :=
  .next (s.holdEnd .thermal 1 fuse.val dev)

/-- THERMAL_COMPARE (R538). -/
def execThermalCompare (s : State) : Host.Outcome State Fault Refusal := s.does (s.onMon thermalCompare)

/-- SUPPLY_SAMPLE (R589): the rails in mV, and the core current. -/
def execSupplySample (mv : List Nat) (current : Nat) (s : State) : Host.Outcome State Fault Refusal :=
  s.does (s.onMon (supplySample mv current))

/-- TEMP_SAMPLE (R590): the 16 sensors in 1/16 °C. -/
def execTempSample (ts : List Int) (s : State) : Host.Outcome State Fault Refusal := s.does (s.onN (tempSample ts))

/-- MON_CLEAR (R588): MON_CLEAR written 1. -/
def execMonClear (via : Via) (s : State) : Host.Outcome State Fault Refusal := s.does (s.viaScalar via K.MON_CLEAR 1 1)

end Sys2Proof.Machine
end

