-- ==== Sys2Proof/Machine/Records.lean ====
section
/-!
DEFINITION. Meanings of the logbook (18), of calibration and the store (19).
-/

namespace Sys2Proof.Machine

namespace State

/-- The oldest record in the intake of origin `o`. -/
def intakeHead (s : State) (o : Nat) : Option LogRec :=
  if h : o - 1 < 6 ∧ o ≠ 0 then (s.chan ⟨o - 1, h.1⟩).n.intake.head? else s.common.n.intake.head?

/-- The origin the logbook takes its next record from: passes over the intakes in ascending order (R486). -/
def intakeNext (s : State) : Option Nat :=
  let from_ := s.common.logs.turn
  ((List.range 7).map fun i => (from_ + i) % 7).find? fun o => (s.intakeHead o).isSome

/-- An accepted record is numbered and offered to every path (R486, R490). -/
def accept1 (s : State) (o : Nat) (r : LogRec) : State :=
  let drop (n : Node) : Node := { n with intake := n.intake.drop 1 }
  let s := if h : o - 1 < 6 ∧ o ≠ 0 then s.putChan ⟨o - 1, h.1⟩ ((s.chan ⟨o - 1, h.1⟩).mapN drop) else s.mapN drop
  let (seq, n) := logNumber s.common.n r false
  let s := State.onLogs { s with common := { s.common with n := n } } (commonPaths r seq false)
  let s : State := { s with common := { s.common with logs := { s.common.logs with turn := (o + 1) % 7 } } }
  if h : o - 1 < 6 ∧ o ≠ 0 then
    let c : Fin 6 := ⟨o - 1, h.1⟩
    let (n, p) := chanPath r seq false (s.chan c).n (s.common.chanLogs.getD c.val {})
    (s.putChanLog c p).onChan c fun x => { x with n := n }
  else s.tidy

/-- The logbook accepts a waiting record (R486). -/
def acceptNext (s : State) : State :=
  match s.intakeNext with
  | some o => (match s.intakeHead o with | some r => s.accept1 o r | none => s)
  | none => s

/-- A record leaves the ring of function `f` (R490). -/
def ringLeave (s : State) (f : Fin 7) : State :=
  if h : f.val - 1 < 6 ∧ f.val ≠ 0 then
    let c : Fin 6 := ⟨f.val - 1, h.1⟩
    let (n, p) := chanDrain (s.chan c).n (s.common.chanLogs.getD c.val {})
    (s.putChanLog c p).onChan c fun x => { x with n := n }
  else s.onLog ringDrain

/-- The address the UDP stream's datagrams go to on its port: the destination on the subnet, else the gateway (R96, R495). -/
def udpHop (s : State) : Nat :=
  let n := s.common.n
  let p := n.num K.UDP_PORT_SEL
  let m := n.elem K.NET_IPV4_MASK p
  let d := n.num K.UDP_DST_ADDR
  if Nat.land d m = Nat.land (n.elem K.NET_IPV4_ADDR p) m then d else n.elem K.NET_IPV4_GW p

/-- An ARP reply from `ip` at port `p` (R495). -/
def arpReply (s : State) (p ip mac : Nat) : State :=
  if s.netUp p ∧ p = s.common.n.num K.UDP_PORT_SEL ∧ ip = s.udpHop ∧ ip ≠ 0 then
    State.tidy { s with common := { s.common with logs := { s.common.logs with dstMac := some mac } } }
  else s

/-- A store write ends (R505, R506). -/
def storeDone (s : State) (result : Nat) : State := s.onCal (storeEnd result)

/-- A calibration run ends COMPUTING (R516). -/
def calFinish (s : State) : State :=
  match s.common.cal.run with
  | none => s
  | some r =>
    if h : r.chan < 6 then
      let c : Fin 6 := ⟨r.chan, h⟩
      let (cn, x, apply) := calDone (s.common.n, s.common.cal) (s.chan c)
      let s := State.calSync (State.settle { s with common := { s.common with n := cn.1, cal := cn.2 } } c x)
      if apply then
        let (ok, s) := s.stageBank c
        s.onN (·.putN K.CAL_APPLIED (b2n ok))
      else s
    else s

end State

/-! ## Logbook (18) -/

/-- LOG_RECORD_ACCEPT (R486). -/
def execLogRecordAccept (s : State) : Host.Outcome State Fault Refusal := s.does s.acceptNext

/-- LOG_RING_DRAIN (R490): the ring of function `f`. -/
def execLogRingDrain (f : Fin 7) (s : State) : Host.Outcome State Fault Refusal := s.does (s.ringLeave f)

/-- UDP_DATAGRAM_SEND (R495). -/
def execUdpDatagramSend (s : State) : Host.Outcome State Fault Refusal := s.does (s.onLog udpSend)

/-- LOG_MARK (R485). -/
def execLogMark (via : Via) (v : Nat) (s : State) : Host.Outcome State Fault Refusal := s.does (s.viaScalar via K.LOG_MARK 4 v)

/-- BUF_RD_WRITE (R496). -/
def execBufRdWrite (via : Via) (v : Nat) (s : State) : Host.Outcome State Fault Refusal := s.does (s.viaScalar via K.BUF_RD 2 v)

/-- ARP_REPLY (R495). -/
def execArpReply (p : Fin 2) (ip mac : Nat) (s : State) : Host.Outcome State Fault Refusal := s.does (s.arpReply p.val ip mac)

/-! ## Calibration and the store (19) -/

/-- STORE_WRITE_COMPLETE (R505): 0 in force, 1 an erase or program error, 2 a verify mismatch. -/
def execStoreWriteComplete (result : Fin 3) (s : State) : Host.Outcome State Fault Refusal := s.does (s.storeDone (result.val + 1))

/-- STORE_STEP_TIMEOUT (R506). -/
def execStoreStepTimeout (s : State) : Host.Outcome State Fault Refusal := s.does (s.storeDone 4)

/-- TRIM_CAPTURE (R510): TRIM_CAPTURE written 1. -/
def execTrimCapture (via : Via) (s : State) : Host.Outcome State Fault Refusal := s.does (s.viaScalar via K.TRIM_CAPTURE 1 1)

/-- TRIM_SAVE (R510): TRIM_SAVE written 1. -/
def execTrimSave (via : Via) (s : State) : Host.Outcome State Fault Refusal := s.does (s.viaScalar via K.TRIM_SAVE 1 1)

/-- CAL_START (R512): CAL_CTRL written 1. -/
def execCalStart (via : Via) (s : State) : Host.Outcome State Fault Refusal := s.does (s.viaScalar via K.CAL_CTRL 1 1)

/-- CAL_ABORT (R513): CAL_CTRL written 2. -/
def execCalAbort (via : Via) (s : State) : Host.Outcome State Fault Refusal := s.does (s.viaScalar via K.CAL_CTRL 1 2)

/-- CAL_TIMEOUT (R513). -/
def execCalTimeout (s : State) : Host.Outcome State Fault Refusal := s.does (s.onCal calTimeout).calSync

/-- CAL_COMPUTE_DONE (R516). -/
def execCalComputeDone (s : State) : Host.Outcome State Fault Refusal := s.does s.calFinish

/-- PIX_SAVE (R518). -/
def execPixSave (via : Via) (v : Nat) (s : State) : Host.Outcome State Fault Refusal := s.does (s.viaScalar via K.PIX_SAVE 1 v)

/-- PIX_LOAD (R518). -/
def execPixLoad (via : Via) (v : Nat) (s : State) : Host.Outcome State Fault Refusal := s.does (s.viaScalar via K.PIX_LOAD 1 v)

end Sys2Proof.Machine
end

