-- ==== Sys2Proof/Machine/Ring.lean ====
section
/-!
DEFINITION. Meanings of the Boardwalk ring (21; 11 R347).
-/

namespace Sys2Proof.Machine

namespace Chan

/-- An output of the channel takes relays of the source (R347). -/
def takesRelay (c : Chan) (src : Nat) : Bool :=
  c.live && (List.range 4).any fun o =>
    c.n.num (ik K.STK_MODE o) == 3 && bit (c.n.num K.STK_ENABLE) o && c.n.num (ik K.STK_RELAY_SRC o) == src

/-- A relay reaches the channel, which it wakes where an output takes it (R347, R527). -/
def relayArrive (c : Chan) (kind src cueId : Nat) (y : Pos) : Chan :=
  if c.takesRelay src then Chan.wakeCause (c.relayIn kind src cueId y) else c

end Chan

namespace State

/-- A member takes the root's position and motion (R110, R554); the first after a join makes the step of R557. A frame acted on goes to the
journals. -/
def ringPosition (s : State) (p : Nat) (f : RingFrame) : State :=
  let was := s.wpState
  let up := s.wpUpstream
  let (r, acted, step) := s.ring.positionFrame p f
  let s := State.tidy { s with common := { s.common with n := r.n, bw := r.b, enc := r.e } }
  if !acted then s.motionChange was else
    let s := match step with
      | some d => if d = 0 then s.onN (·.putN K.POS_STEP_LAST 0) else s.onN (posStep (d * 4294967296))
      | none => s
    let s := if s.wpState = 2 ∧ s.wpUpstream ≠ up then s.onN (·.occur 54) else s
    let st := f.body.getD 12 0
    let s := match s.common.bw.pos with
      | some x => s.edgeEntry 4 (accPos (BwNode.ringPos x x.at_)) x.fine x.fine (st % 4) (st / 4 % 8) 0x80
      | none => s
    s.motionChange was

/-- A ring commit whose instant has come is applied (R555). A member learns no lateness from the frame. -/
def ringCommit (s : State) : State :=
  match s.common.bw.commits with
  | [] => s
  | x :: rest =>
    if s.common.n.mono < x.due then s else
      let s : State := { s with common := { s.common with bw := { s.common.bw with commits := rest } } }
      match x.lateness with
      | some d => s.commitNow x.gen x.pos d x.late x.timed
      | none =>
        if x.late then
          let (v, n) := s.common.n.takeFree 64
          State.commitNow (s.mapN fun _ => n) x.gen x.pos (toSigned 64 v) true x.timed
        else s.commitNow x.gen x.pos 0 false x.timed

/-- A SLATE frame (R555): a commit whose instant has passed is applied at once. -/
def ringSlate (s : State) (p : Nat) (f : RingFrame) : State :=
  let k := s.common.bw.commits.length
  let s := s.onRing (·.slateFrame p f)
  if s.common.bw.commits.length = k then s else (List.range (k + 1)).foldl (fun s _ => s.ringCommit) s

/-- An echoed action whose instant has come executes on the member (R560). -/
def ringEcho (s : State) : State :=
  match s.common.bw.echoes with
  | [] => s
  | x :: rest =>
    if s.common.n.mono < x.due then s else
      let s : State := { s with common := { s.common with bw := { s.common.bw with echoes := rest } } }
      (s.taEcho x).onN (·.inc K.BW_ECHOES)

/-- A RELAY frame reaches the channels (R347, R559). -/
def ringRelay (s : State) (p : Nat) (f : RingFrame) : State :=
  let (r, what) := s.ring.relayFrame p f
  let s := State.tidy { s with common := { s.common with n := r.n, bw := r.b, enc := r.e } }
  match what with
  | none => s
  | some (kind, src, cue, y) => (List.finRange 6).foldl (fun s c => s.onLive c (·.relayArrive kind src cue y)) s

/-- A frame with a bad CRC-32C or an unknown type (R543). -/
def ringDrop (s : State) (p : Nat) : State :=
  if s.ring.portState p = 0 then s else s.onN fun n => (n.addE 32 K.BW_CRC_DROPS p 1).setFlag K.BW_FLAGS 6

/-- The root's POSITION frame: speed and status as its broadcast has them (R554). -/
def ringSend (s : State) : State :=
  let e := s.common.enc
  let status := s.wpState + 4 * b2n s.wpUpstream + 8 * b2n (e.wp.src != .onPrimary) + 16 * b2n (e.wp.src == .noSource)
  s.onBw (·.positionSend s.wpSpeeds.2 status)

/-- A ring port's link comes into alignment, reaches UP with 16 link delays, or goes down (R548, R551); none comes up while a lane of the
port is in a test mode. -/
def ringPort (s : State) (p st : Nat) : State :=
  let r := s.ring
  let test : Bool := s.common.n.num (duplexKey (2 + 2 * p) + 0x15) != 0 || s.common.n.num (duplexKey (3 + 2 * p) + 0x15) != 0
  if st ≠ 0 ∧ test = true then s
  else if st = 2 ∧ (r.port p).delays.length < 16 then s
  else s.onRing (·.portChange p st)

end State

/-- BW_POSITION_FRAME (R554). -/
def execBwPositionFrame (p : Fin 2) (f : RingFrame) (s : State) : Host.Outcome State Fault Refusal := s.does (s.ringPosition p.val f)

/-- BW_SLATE_FRAME (R555). -/
def execBwSlateFrame (p : Fin 2) (f : RingFrame) (s : State) : Host.Outcome State Fault Refusal := s.does (s.ringSlate p.val f)

/-- BW_COMMIT_APPLY (R555). -/
def execBwCommitApply (s : State) : Host.Outcome State Fault Refusal := s.does s.ringCommit

/-- BW_RELAY_FRAME (R347). -/
def execBwRelayFrame (p : Fin 2) (f : RingFrame) (s : State) : Host.Outcome State Fault Refusal := s.does (s.ringRelay p.val f)

/-- BW_ECHO_FRAME (R560). -/
def execBwEchoFrame (p : Fin 2) (f : RingFrame) (s : State) : Host.Outcome State Fault Refusal := s.does (s.onRing (·.echoFrame p.val f))

/-- BW_ECHO_EXECUTE (R560). -/
def execBwEchoExecute (s : State) : Host.Outcome State Fault Refusal := s.does s.ringEcho

/-- BW_HELLO_FRAME (R550). -/
def execBwHelloFrame (p : Fin 2) (f : RingFrame) (s : State) : Host.Outcome State Fault Refusal := s.does (s.onRing (·.helloFrame p.val f))

/-- BW_DELAY_REQ_FRAME (R548): `turn` is the time the device takes to answer, in 1/16 ns. -/
def execBwDelayReqFrame (p : Fin 2) (f : RingFrame) (turn : Nat) (s : State) : Host.Outcome State Fault Refusal :=
  s.does (s.onBw (·.delayReq p.val f turn))

/-- BW_DELAY_RESP_FRAME (R548). -/
def execBwDelayRespFrame (p : Fin 2) (f : RingFrame) (s : State) : Host.Outcome State Fault Refusal :=
  s.does (s.onRing (·.delayResp p.val f))

/-- BW_FRAME_CRC_DROP (R543). -/
def execBwFrameCrcDrop (p : Fin 2) (s : State) : Host.Outcome State Fault Refusal := s.does (s.ringDrop p.val)

/-- BW_HELLO_SEND (R550). -/
def execBwHelloSend (s : State) : Host.Outcome State Fault Refusal := s.does (s.onBw (·.helloSend))

/-- BW_DELAY_REQ_SEND (R548). -/
def execBwDelayReqSend (s : State) : Host.Outcome State Fault Refusal := s.does (s.onBw (·.delayReqSend))

/-- BW_POSITION_SEND (R554). -/
def execBwPositionSend (s : State) : Host.Outcome State Fault Refusal := s.does s.ringSend

/-- BW_ELECT_WAIT_EXPIRE (R552). -/
def execBwElectWaitExpire (s : State) : Host.Outcome State Fault Refusal := s.does (s.onRing (·.elect))

/-- BW_ROOT_TIMEOUT (R551). -/
def execBwRootTimeout (s : State) : Host.Outcome State Fault Refusal := s.does (s.onRing (·.rootTimeout))

/-- BW_ROLE_WRITE (R550). -/
def execBwRoleWrite (via : Via) (v : Nat) (s : State) : Host.Outcome State Fault Refusal := s.does (s.viaScalar via K.BW_ROLE 1 v)

/-- BW_PORT_LINK_CHANGE (R551): the port is DOWN (0), ALIGNING (1) or UP (2). -/
def execBwPortLinkChange (p : Fin 2) (st : Fin 3) (s : State) : Host.Outcome State Fault Refusal := s.does (s.ringPort p.val st.val)

end Sys2Proof.Machine
end

