-- ==== Sys2Proof/Machine/Transfers.lean ====
section
/-!
DEFINITION. Meanings of the compression engine (14), of the DMA threads and their instructions (15), and of the completions of their reads
(16 R455).
-/

namespace Sys2Proof.Machine

namespace State

/-- The resume contexts the device's channels have saved (R413). -/
def contexts (s : State) : List CmpCtx := s.chans.toList.flatMap (·.cmp.saved)

/-- A completion that no read request waits for is discarded, and logged as an advisory non-fatal error (R455, R457). -/
def unexpected (s : State) (f : Fin 7) : State :=
  s.nonFatal f aerUnexpected true

/-- A completion for read request `tag` of function `c + 1` (R455): status 0 Successful, 1 Unsupported Request, 2 Completer Abort,
3 poisoned. -/
def readDone (s : State) (c : Fin 6) (tag status : Nat) (bytes : List Nat) : State :=
  if !s.linkUp then s else
    let f : Fin 7 := ⟨c.val + 1, by omega⟩
    match (s.chan c).tagThread tag with
    | none => s.unexpected f
    | some t =>
      let s := match status with
        | 1 => s.nonFatal f aerUnsupported
        | 2 => s.nonFatal f aerAbort
        | 3 => s.nonFatal f aerPoisoned
        | _ => s
      s.onChan c (·.busCompletion t tag status bytes)

end State

/-! ## Compression (14) -/

/-- CMP_SUBMIT (R402): the 64 bytes of a descriptor. -/
def execCmpSubmit (via : Via) (c : Fin 6) (data : List Nat) (s : State) : Host.Outcome State Fault Refusal :=
  s.does (s.viaWrite via (K.CMP_SUBMIT / 256 + 0x800 * c.val) (K.CMP_SUBMIT % 256) none data)

/-- CMP_JOB_START (R404). -/
def execCmpJobStart (c : Fin 6) (s : State) : Host.Outcome State Fault Refusal := s.does (s.onUp c (·.cmpStart s.contexts))

/-- CMP_JOB_COMPLETE (R410). -/
def execCmpJobComplete (c : Fin 6) (s : State) : Host.Outcome State Fault Refusal := s.does (s.onUp c (·.cmpDone false))

/-- CMP_ABORT_RUNNING (R419): CMP_ABORT written 1. -/
def execCmpAbortRunning (via : Via) (c : Fin 6) (s : State) : Host.Outcome State Fault Refusal := s.does (s.viaChan via c K.CMP_ABORT 1 1)

/-- CMP_ABORT_ALL (R419): CMP_ABORT written 2. -/
def execCmpAbortAll (via : Via) (c : Fin 6) (s : State) : Host.Outcome State Fault Refusal := s.does (s.viaChan via c K.CMP_ABORT 1 2)

/-- RECORDER_LINE_COMPRESS (R417): the recorder's line has gone through the engine. -/
def execRecorderLineCompress (c : Fin 6) (s : State) : Host.Outcome State Fault Refusal := s.does (s.onUp c (·.lineCompressed))

/-! ## DMA threads (15) -/

/-- THREAD_START (R440): THREAD_CTRL of thread `t` written 1. -/
def execThreadStart (via : Via) (c : Fin 6) (t : Fin 8) (s : State) : Host.Outcome State Fault Refusal :=
  s.does (s.viaChan via c (ik K.THREAD_CTRL t.val) 1 1)

/-- THREAD_PAUSE (R439): THREAD_CTRL of thread `t` written 2. -/
def execThreadPause (via : Via) (c : Fin 6) (t : Fin 8) (s : State) : Host.Outcome State Fault Refusal :=
  s.does (s.viaChan via c (ik K.THREAD_CTRL t.val) 1 2)

/-- THREAD_RESUME (R439): THREAD_CTRL of thread `t` written 3. -/
def execThreadResume (via : Via) (c : Fin 6) (t : Fin 8) (s : State) : Host.Outcome State Fault Refusal :=
  s.does (s.viaChan via c (ik K.THREAD_CTRL t.val) 1 3)

/-- DMA_ENABLE_WRITE (R441). -/
def execDmaEnableWrite (via : Via) (c : Fin 6) (v : Nat) (s : State) : Host.Outcome State Fault Refusal :=
  s.does (s.viaChan via c K.DMA_ENABLE 1 v)

/-- DOORBELL_WRITE (R432). -/
def execDoorbellWrite (via : Via) (c : Fin 6) (t : Fin 8) (v : Nat) (s : State) : Host.Outcome State Fault Refusal :=
  s.does (s.viaChan via c (ik K.DOORBELL t.val) 4 v)

/-- MOVE (R427): thread `t` runs the instruction at its PC. -/
def execMove (c : Fin 6) (t : Fin 8) (s : State) : Host.Outcome State Fault Refusal := s.does (s.onUp c (·.dmaMove t.val))

/-- MOVE_RING (R435). -/
def execMoveRing (c : Fin 6) (t : Fin 8) (s : State) : Host.Outcome State Fault Refusal := s.does (s.onUp c (·.dmaMoveRing t.val))

/-- MOVSG (R428). -/
def execMovsg (c : Fin 6) (t : Fin 8) (s : State) : Host.Outcome State Fault Refusal := s.does (s.onUp c (·.dmaMovsg t.val))

/-- LOOP (R430). -/
def execLoop (c : Fin 6) (t : Fin 8) (s : State) : Host.Outcome State Fault Refusal := s.does (s.onUp c (·.dmaLoop t.val))

/-- WAIT (R431). -/
def execWait (c : Fin 6) (t : Fin 8) (s : State) : Host.Outcome State Fault Refusal := s.does (s.onUp c (·.dmaWait t.val))

/-- WAIT_SATISFIED (R431). -/
def execWaitSatisfied (c : Fin 6) (t : Fin 8) (s : State) : Host.Outcome State Fault Refusal := s.does (s.onUp c (·.dmaSatisfied t.val))

/-- WAIT_TIMEOUT (R431). -/
def execWaitTimeout (c : Fin 6) (t : Fin 8) (s : State) : Host.Outcome State Fault Refusal := s.does (s.onUp c (·.dmaTimeout t.val))

/-- SIGNAL (R433). -/
def execSignal (c : Fin 6) (t : Fin 8) (s : State) : Host.Outcome State Fault Refusal := s.does (s.onUp c (·.dmaSignal t.val))

/-- END (R434). -/
def execThreadEnd (c : Fin 6) (t : Fin 8) (s : State) : Host.Outcome State Fault Refusal := s.does (s.onUp c (·.dmaEnd t.val))

/-- NOP (R434). -/
def execNop (c : Fin 6) (t : Fin 8) (s : State) : Host.Outcome State Fault Refusal := s.does (s.onUp c (·.dmaNop t.val))

/-- DMA_BAD_OPCODE (R442). -/
def execDmaBadOpcode (c : Fin 6) (t : Fin 8) (s : State) : Host.Outcome State Fault Refusal := s.does (s.onUp c (·.dmaBadOpcode t.val))

/-- BUS_READ_COMPLETION (R455): `status` 0 Successful, 1 Unsupported Request, 2 Completer Abort, 3 poisoned. -/
def execBusReadCompletion (c : Fin 6) (tag : Nat) (status : Fin 4) (bytes : List Nat) (s : State) : Host.Outcome State Fault Refusal :=
  s.does (s.readDone c tag status.val bytes)

/-- PCIE_COMPLETION_TIMEOUT (R455): read `tag` of thread `t`. -/
def execPcieCompletionTimeout (c : Fin 6) (t : Fin 8) (tag : Nat) (s : State) : Host.Outcome State Fault Refusal :=
  s.does (s.cplTimeout c t.val tag)

/-- UNEXPECTED_COMPLETION (R455): a completion at function `c + 1` for a tag that no read of it waits for. -/
def execUnexpectedCompletion (c : Fin 6) (tag : Nat) (s : State) : Host.Outcome State Fault Refusal :=
  s.does (if s.linkUp ∧ (s.chan c).tagThread tag = none then s.unexpected ⟨c.val + 1, by omega⟩ else s)

end Sys2Proof.Machine
end

