-- ==== Sys2Proof/Machine/Meanings.lean ====
section
/-!
DEFINITION. The meanings of all commands, family by family.
-/
end

