-- ==== Sys2Proof/Machine/Dispatch.lean ====
section
/-!
DEFINITION. The meaning of every command, one arm each.
-/

namespace Sys2Proof.Machine

/-- The effect of a command on everything but the queue. -/
def exec (i : Instr) (s : State) : Host.Outcome State Fault Refusal :=
  match i with
  | .positionBroadcastUpdate => Sys2Proof.Machine.execPositionBroadcastUpdate s
  | .timeBroadcastUpdate => Sys2Proof.Machine.execTimeBroadcastUpdate s
  | .inFlightSetApply c stage => Sys2Proof.Machine.execInFlightSetApply c stage s
  | .generationPublish c part => Sys2Proof.Machine.execGenerationPublish c part s
  | .kdpRead d => Sys2Proof.Machine.execKdpRead d s
  | .kdpWrite d => Sys2Proof.Machine.execKdpWrite d s
  | .kdpStage d => Sys2Proof.Machine.execKdpStage d s
  | .kdpSnapshot d => Sys2Proof.Machine.execKdpSnapshot d s
  | .kdpSubscribe d => Sys2Proof.Machine.execKdpSubscribe d s
  | .kdpBadOpcode d => Sys2Proof.Machine.execKdpBadOpcode d s
  | .kdpSessionExpire => Sys2Proof.Machine.execKdpSessionExpire s
  | .subscriptionLapse => Sys2Proof.Machine.execSubscriptionLapse s
  | .netArpRequest p ip => Sys2Proof.Machine.execNetArpRequest p ip s
  | .netIcmpEcho p src dst payload => Sys2Proof.Machine.execNetIcmpEcho p src dst payload s
  | .dictChannelTimeout c r => Sys2Proof.Machine.execDictChannelTimeout c r s
  | .slateNamePos r => Sys2Proof.Machine.execSlateNamePos r s
  | .slateNameTime r => Sys2Proof.Machine.execSlateNameTime r s
  | .slateCancel r => Sys2Proof.Machine.execSlateCancel r s
  | .stageDiscard r => Sys2Proof.Machine.execStageDiscard r s
  | .slateBadAction d => Sys2Proof.Machine.execSlateBadAction d s
  | .autoPeriodPosWrite via v => Sys2Proof.Machine.execAutoPeriodPosWrite via v s
  | .autoPeriodTimeWrite via v => Sys2Proof.Machine.execAutoPeriodTimeWrite via v s
  | .mailboxGo => Sys2Proof.Machine.execMailboxGo s
  | .mailboxDone => Sys2Proof.Machine.execMailboxDone s
  | .barSlotRead f b off size => Sys2Proof.Machine.execBarSlotRead f b off size s
  | .barSlotWrite f addr data => Sys2Proof.Machine.execBarSlotWrite f addr data s
  | .largeObjectWindowRead f off size => Sys2Proof.Machine.execLargeObjectWindowRead f off size s
  | .largeObjectWindowWrite f off data => Sys2Proof.Machine.execLargeObjectWindowWrite f off data s
  | .lowCtrlClose f => Sys2Proof.Machine.execLowCtrlClose f s
  | .registerWrite t => Sys2Proof.Machine.execRegisterWrite t s
  | .persistSave via v => Sys2Proof.Machine.execPersistSave via v s
  | .persistClear via v => Sys2Proof.Machine.execPersistClear via v s
  | .netIpv4AddrWrite via p ip => Sys2Proof.Machine.execNetIpv4AddrWrite via p ip s
  | .encoderEdge e ab x => Sys2Proof.Machine.execEncoderEdge e ab x s
  | .encoderIndex x => Sys2Proof.Machine.execEncoderIndex x s
  | .wireFault n pair => Sys2Proof.Machine.execWireFault n pair s
  | .wireCheckEnd n => Sys2Proof.Machine.execWireCheckEnd n s
  | .standstillTimeout n => Sys2Proof.Machine.execStandstillTimeout n s
  | .failoverSilenceExpire => Sys2Proof.Machine.execFailoverSilenceExpire s
  | .failback via v => Sys2Proof.Machine.execFailback via v s
  | .deviationReset via v => Sys2Proof.Machine.execDeviationReset via v s
  | .gridPointReached c h => Sys2Proof.Machine.execGridPointReached c h s
  | .encoutEmit m => Sys2Proof.Machine.execEncoutEmit m s
  | .ptpMessageReceive p m => Sys2Proof.Machine.execPtpMessageReceive p m s
  | .ptpAnnounceTimeout p => Sys2Proof.Machine.execPtpAnnounceTimeout p s
  | .ptpSyncTransmit p => Sys2Proof.Machine.execPtpSyncTransmit p s
  | .ptpAnnounceTransmit p => Sys2Proof.Machine.execPtpAnnounceTransmit p s
  | .ptpDelayReqTransmit p => Sys2Proof.Machine.execPtpDelayReqTransmit p s
  | .ppsInEdge => Sys2Proof.Machine.execPpsInEdge s
  | .ref10mMeasure err => Sys2Proof.Machine.execRef10mMeasure err s
  | .ppsMissing => Sys2Proof.Machine.execPpsMissing s
  | .refMissing => Sys2Proof.Machine.execRefMissing s
  | .tbSourceTimeout => Sys2Proof.Machine.execTbSourceTimeout s
  | .tbSourceWrite via v => Sys2Proof.Machine.execTbSourceWrite via v s
  | .tbSet via v => Sys2Proof.Machine.execTbSet via v s
  | .tbStepAdj via v => Sys2Proof.Machine.execTbStepAdj via v s
  | .ppsOutRise => Sys2Proof.Machine.execPpsOutRise s
  | .ppsOutFall => Sys2Proof.Machine.execPpsOutFall s
  | .netLinkChange p up => Sys2Proof.Machine.execNetLinkChange p up s
  | .netRxOverrun p => Sys2Proof.Machine.execNetRxOverrun p s
  | .taArm via e => Sys2Proof.Machine.execTaArm via e s
  | .taDisarm via e => Sys2Proof.Machine.execTaDisarm via e s
  | .timedActionExecute e => Sys2Proof.Machine.execTimedActionExecute e s
  | .buarnlinkBurst c link head tap first tag offset blocks data overrun => Sys2Proof.Machine.execBuarnlinkBurst c link head tap first tag offset blocks data overrun s
  | .buarnlinkLineEnd c link head tap count crc => Sys2Proof.Machine.execBuarnlinkLineEnd c link head tap count crc s
  | .buarnlinkTriggerAck c link head overrun num delay => Sys2Proof.Machine.execBuarnlinkTriggerAck c link head overrun num delay s
  | .buarnlinkTemperature c link head t => Sys2Proof.Machine.execBuarnlinkTemperature c link head t s
  | .buarnlinkRegData c link tag v => Sys2Proof.Machine.execBuarnlinkRegData c link tag v s
  | .buarnlinkRegAck c link tag result => Sys2Proof.Machine.execBuarnlinkRegAck c link tag result s
  | .buarnlinkExpoAck c link head trig result => Sys2Proof.Machine.execBuarnlinkExpoAck c link head trig result s
  | .buarnlinkAlign c link bs => Sys2Proof.Machine.execBuarnlinkAlign c link bs s
  | .buarnlinkDecodeError c link => Sys2Proof.Machine.execBuarnlinkDecodeError c link s
  | .blockLock c l => Sys2Proof.Machine.execBlockLock c l s
  | .blockLockLoss c l => Sys2Proof.Machine.execBlockLockLoss c l s
  | .expoAckTimeout c h => Sys2Proof.Machine.execExpoAckTimeout c h s
  | .blRegRead via c => Sys2Proof.Machine.execBlRegRead via c s
  | .blRegWrite via c => Sys2Proof.Machine.execBlRegWrite via c s
  | .blRegTimeout c => Sys2Proof.Machine.execBlRegTimeout c s
  | .cxpStreamPacket c link id u crcOk payload overrun => Sys2Proof.Machine.execCxpStreamPacket c link id u crcOk payload overrun s
  | .cxpControlReceive c link p => Sys2Proof.Machine.execCxpControlReceive c link p s
  | .cxpCtrlTx via c packet => Sys2Proof.Machine.execCxpCtrlTx via c packet s
  | .cxpCtrlPop via c v => Sys2Proof.Machine.execCxpCtrlPop via c v s
  | .cxpExpoWriteTimeout c h => Sys2Proof.Machine.execCxpExpoWriteTimeout c h s
  | .auxLineStart x => Sys2Proof.Machine.execAuxLineStart x s
  | .auxLineEnd x es => Sys2Proof.Machine.execAuxLineEnd x es s
  | .trgPulseEnd c t => Sys2Proof.Machine.execTrgPulseEnd c t s
  | .trgGapEnd c t => Sys2Proof.Machine.execTrgGapEnd c t s
  | .lineTimeout c h => Sys2Proof.Machine.execLineTimeout c h s
  | .mergePassLine c => Sys2Proof.Machine.execMergePassLine c s
  | .sensorTempSet via c h t => Sys2Proof.Machine.execSensorTempSet via c h t s
  | .laneConfigWrite via c what vals => Sys2Proof.Machine.execLaneConfigWrite via c what vals s
  | .cdrLock r freq => Sys2Proof.Machine.execCdrLock r freq s
  | .losAssert r => Sys2Proof.Machine.execLosAssert r s
  | .losDeassert r => Sys2Proof.Machine.execLosDeassert r s
  | .lolAssert m => Sys2Proof.Machine.execLolAssert m s
  | .lolDeassert m => Sys2Proof.Machine.execLolDeassert m s
  | .lolTrimReload r => Sys2Proof.Machine.execLolTrimReload r s
  | .idleMonitorWindow r a b c x => Sys2Proof.Machine.execIdleMonitorWindow r a b c x s
  | .dfeUpdate r steps => Sys2Proof.Machine.execDfeUpdate r steps s
  | .ctleUpdate r step => Sys2Proof.Machine.execCtleUpdate r step s
  | .oneShotConverge r => Sys2Proof.Machine.execOneShotConverge r s
  | .wander r => Sys2Proof.Machine.execWander r s
  | .trimUpdate r => Sys2Proof.Machine.execTrimUpdate r s
  | .trimRampStep r => Sys2Proof.Machine.execTrimRampStep r s
  | .adaptModeWrite via r v => Sys2Proof.Machine.execAdaptModeWrite via r v s
  | .txFirWrite via d pre main post => Sys2Proof.Machine.execTxFirWrite via d pre main post s
  | .laneTestWrite via r v => Sys2Proof.Machine.execLaneTestWrite via r v s
  | .prbsClear via r v => Sys2Proof.Machine.execPrbsClear via r v s
  | .prbsSyncLoss r bits x => Sys2Proof.Machine.execPrbsSyncLoss r bits x s
  | .scanStart via r => Sys2Proof.Machine.execScanStart via r s
  | .scanAbort via r => Sys2Proof.Machine.execScanAbort via r s
  | .scanPointDone r errors => Sys2Proof.Machine.execScanPointDone r errors s
  | .frontEndLine c h => Sys2Proof.Machine.execFrontEndLine c h s
  | .corrBankWrite via c bank seg data => Sys2Proof.Machine.execCorrBankWrite via c bank seg data s
  | .outputLine c late => Sys2Proof.Machine.execOutputLine c late s
  | .segmentationLine c => Sys2Proof.Machine.execSegmentationLine c s
  | .recordRingWrite c => Sys2Proof.Machine.execRecordRingWrite c s
  | .recIrqTimeExpire c => Sys2Proof.Machine.execRecIrqTimeExpire c s
  | .openSnap via c => Sys2Proof.Machine.execOpenSnap via c s
  | .cuePieceCompare c => Sys2Proof.Machine.execCuePieceCompare c s
  | .cueHorizon c entry => Sys2Proof.Machine.execCueHorizon c entry s
  | .cueFire c entry => Sys2Proof.Machine.execCueFire c entry s
  | .cueResolveLimit c entry => Sys2Proof.Machine.execCueResolveLimit c entry s
  | .stkPulseEnd c o => Sys2Proof.Machine.execStkPulseEnd c o s
  | .stkEnableWrite via c v => Sys2Proof.Machine.execStkEnableWrite via c v s
  | .cueSnap via c => Sys2Proof.Machine.execCueSnap via c s
  | .cueSnapCapture c => Sys2Proof.Machine.execCueSnapCapture c s
  | .freezeNow via c => Sys2Proof.Machine.execFreezeNow via c s
  | .postEnd c => Sys2Proof.Machine.execPostEnd c s
  | .freezeRelease via c => Sys2Proof.Machine.execFreezeRelease via c s
  | .retakeStart via c => Sys2Proof.Machine.execRetakeStart via c s
  | .retakeAbort via c => Sys2Proof.Machine.execRetakeAbort via c s
  | .retakeExit via c => Sys2Proof.Machine.execRetakeExit via c s
  | .retakeLoaded c => Sys2Proof.Machine.execRetakeLoaded c s
  | .retakeEntry c => Sys2Proof.Machine.execRetakeEntry c s
  | .kTest via c k => Sys2Proof.Machine.execKTest via c k s
  | .memRequest c cls tag write addr len bytes => Sys2Proof.Machine.execMemRequest c cls tag write addr len bytes s
  | .memAccessComplete c sub j => Sys2Proof.Machine.execMemAccessComplete c sub j s
  | .refreshSlot c n => Sys2Proof.Machine.execRefreshSlot c n s
  | .forcedBurstStep c n => Sys2Proof.Machine.execForcedBurstStep c n s
  | .mr4Poll c vals => Sys2Proof.Machine.execMr4Poll c vals s
  | .wck2dqUpdate c => Sys2Proof.Machine.execWck2dqUpdate c s
  | .srEntry c => Sys2Proof.Machine.execSrEntry c s
  | .srCommit c => Sys2Proof.Machine.execSrCommit c s
  | .srExit c vals => Sys2Proof.Machine.execSrExit c vals s
  | .srTestEnter via c => Sys2Proof.Machine.execSrTestEnter via c s
  | .srTestLeave via c => Sys2Proof.Machine.execSrTestLeave via c s
  | .freqSwitch via c => Sys2Proof.Machine.execFreqSwitch via c s
  | .freqChangeDone c vals => Sys2Proof.Machine.execFreqChangeDone c vals s
  | .memTrain via c => Sys2Proof.Machine.execMemTrain via c s
  | .trainingDone c fail => Sys2Proof.Machine.execTrainingDone c fail s
  | .memPllLoss c => Sys2Proof.Machine.execMemPllLoss c s
  | .nbrSeedWrite via c v => Sys2Proof.Machine.execNbrSeedWrite via c v s
  | .timingSetWrite via c set sub seg data => Sys2Proof.Machine.execTimingSetWrite via c set sub seg data s
  | .cmpSubmit via c data => Sys2Proof.Machine.execCmpSubmit via c data s
  | .cmpJobStart c => Sys2Proof.Machine.execCmpJobStart c s
  | .cmpJobComplete c => Sys2Proof.Machine.execCmpJobComplete c s
  | .cmpAbortRunning via c => Sys2Proof.Machine.execCmpAbortRunning via c s
  | .cmpAbortAll via c => Sys2Proof.Machine.execCmpAbortAll via c s
  | .recorderLineCompress c => Sys2Proof.Machine.execRecorderLineCompress c s
  | .threadStart via c t => Sys2Proof.Machine.execThreadStart via c t s
  | .threadPause via c t => Sys2Proof.Machine.execThreadPause via c t s
  | .threadResume via c t => Sys2Proof.Machine.execThreadResume via c t s
  | .dmaEnableWrite via c v => Sys2Proof.Machine.execDmaEnableWrite via c v s
  | .doorbellWrite via c t v => Sys2Proof.Machine.execDoorbellWrite via c t v s
  | .move c t => Sys2Proof.Machine.execMove c t s
  | .moveRing c t => Sys2Proof.Machine.execMoveRing c t s
  | .movsg c t => Sys2Proof.Machine.execMovsg c t s
  | .loop c t => Sys2Proof.Machine.execLoop c t s
  | .wait c t => Sys2Proof.Machine.execWait c t s
  | .waitSatisfied c t => Sys2Proof.Machine.execWaitSatisfied c t s
  | .waitTimeout c t => Sys2Proof.Machine.execWaitTimeout c t s
  | .signal c t => Sys2Proof.Machine.execSignal c t s
  | .threadEnd c t => Sys2Proof.Machine.execThreadEnd c t s
  | .nop c t => Sys2Proof.Machine.execNop c t s
  | .dmaBadOpcode c t => Sys2Proof.Machine.execDmaBadOpcode c t s
  | .busReadCompletion c tag status bytes => Sys2Proof.Machine.execBusReadCompletion c tag status bytes s
  | .pcieCompletionTimeout c t tag => Sys2Proof.Machine.execPcieCompletionTimeout c t tag s
  | .unexpectedCompletion c tag => Sys2Proof.Machine.execUnexpectedCompletion c tag s
  | .perstAssert => Sys2Proof.Machine.execPerstAssert s
  | .perstDeassert => Sys2Proof.Machine.execPerstDeassert s
  | .linkL0Entry rate width flit reversed => Sys2Proof.Machine.execLinkL0Entry rate width flit reversed s
  | .pcieLinkDown => Sys2Proof.Machine.execPcieLinkDown s
  | .hotReset disable => Sys2Proof.Machine.execHotReset disable s
  | .flr f => Sys2Proof.Machine.execFlr f s
  | .flrComplete f => Sys2Proof.Machine.execFlrComplete f s
  | .pcieConfigRequest f r w => Sys2Proof.Machine.execPcieConfigRequest f r w s
  | .pcieUnsupportedRequest f read => Sys2Proof.Machine.execPcieUnsupportedRequest f read s
  | .pcieErrorDetected f e => Sys2Proof.Machine.execPcieErrorDetected f e s
  | .bar4WindowRead c tag off len => Sys2Proof.Machine.execBar4WindowRead c tag off len s
  | .bar4WindowWrite c off data => Sys2Proof.Machine.execBar4WindowWrite c off data s
  | .writerRelease via seg data => Sys2Proof.Machine.execWriterRelease via seg data s
  | .busMasterDisable f => Sys2Proof.Machine.execBusMasterDisable f s
  | .msixMessageSend f v => Sys2Proof.Machine.execMsixMessageSend f v s
  | .claim f v => Sys2Proof.Machine.execClaim f v s
  | .complete f v => Sys2Proof.Machine.execComplete f v s
  | .srcCfgWrite f src v => Sys2Proof.Machine.execSrcCfgWrite f src v s
  | .gctrlWrite f v => Sys2Proof.Machine.execGctrlWrite f v s
  | .swiSet f v => Sys2Proof.Machine.execSwiSet f v s
  | .logRecordAccept => Sys2Proof.Machine.execLogRecordAccept s
  | .logRingDrain f => Sys2Proof.Machine.execLogRingDrain f s
  | .udpDatagramSend => Sys2Proof.Machine.execUdpDatagramSend s
  | .logMark via v => Sys2Proof.Machine.execLogMark via v s
  | .bufRdWrite via v => Sys2Proof.Machine.execBufRdWrite via v s
  | .storeWriteComplete result => Sys2Proof.Machine.execStoreWriteComplete result s
  | .storeStepTimeout => Sys2Proof.Machine.execStoreStepTimeout s
  | .trimCapture via => Sys2Proof.Machine.execTrimCapture via s
  | .trimSave via => Sys2Proof.Machine.execTrimSave via s
  | .calStart via => Sys2Proof.Machine.execCalStart via s
  | .calAbort via => Sys2Proof.Machine.execCalAbort via s
  | .calTimeout => Sys2Proof.Machine.execCalTimeout s
  | .calComputeDone => Sys2Proof.Machine.execCalComputeDone s
  | .pixSave via v => Sys2Proof.Machine.execPixSave via v s
  | .pixLoad via v => Sys2Proof.Machine.execPixLoad via v s
  | .powerDecision c => Sys2Proof.Machine.execPowerDecision c s
  | .stateEntryDone c => Sys2Proof.Machine.execStateEntryDone c s
  | .wakeComplete c => Sys2Proof.Machine.execWakeComplete c s
  | .pwrWake via c => Sys2Proof.Machine.execPwrWake via c s
  | .chResetAssert via c => Sys2Proof.Machine.execChResetAssert via c s
  | .chResetRelease via c => Sys2Proof.Machine.execChResetRelease via c s
  | .deviceReset via => Sys2Proof.Machine.execDeviceReset via s
  | .porstAssert => Sys2Proof.Machine.execPorstAssert s
  | .porstRelease fuse dev => Sys2Proof.Machine.execPorstRelease fuse dev s
  | .thermalTrip => Sys2Proof.Machine.execThermalTrip s
  | .thermalCompare => Sys2Proof.Machine.execThermalCompare s
  | .supplySample mv current => Sys2Proof.Machine.execSupplySample mv current s
  | .tempSample ts => Sys2Proof.Machine.execTempSample ts s
  | .monClear via => Sys2Proof.Machine.execMonClear via s
  | .bwPositionFrame p f => Sys2Proof.Machine.execBwPositionFrame p f s
  | .bwSlateFrame p f => Sys2Proof.Machine.execBwSlateFrame p f s
  | .bwCommitApply => Sys2Proof.Machine.execBwCommitApply s
  | .bwRelayFrame p f => Sys2Proof.Machine.execBwRelayFrame p f s
  | .bwEchoFrame p f => Sys2Proof.Machine.execBwEchoFrame p f s
  | .bwEchoExecute => Sys2Proof.Machine.execBwEchoExecute s
  | .bwHelloFrame p f => Sys2Proof.Machine.execBwHelloFrame p f s
  | .bwDelayReqFrame p f turn => Sys2Proof.Machine.execBwDelayReqFrame p f turn s
  | .bwDelayRespFrame p f => Sys2Proof.Machine.execBwDelayRespFrame p f s
  | .bwFrameCrcDrop p => Sys2Proof.Machine.execBwFrameCrcDrop p s
  | .bwHelloSend => Sys2Proof.Machine.execBwHelloSend s
  | .bwDelayReqSend => Sys2Proof.Machine.execBwDelayReqSend s
  | .bwPositionSend => Sys2Proof.Machine.execBwPositionSend s
  | .bwElectWaitExpire => Sys2Proof.Machine.execBwElectWaitExpire s
  | .bwRootTimeout => Sys2Proof.Machine.execBwRootTimeout s
  | .bwRoleWrite via v => Sys2Proof.Machine.execBwRoleWrite via v s
  | .bwPortLinkChange p st => Sys2Proof.Machine.execBwPortLinkChange p st s
  | .thermalTripRelease fuse dev => Sys2Proof.Machine.execThermalTripRelease fuse dev s
  | .prbsSyncGain x => Sys2Proof.Machine.execPrbsSyncGain x s
  | .illPwmPeriod c n => Sys2Proof.Machine.execIllPwmPeriod c n s
  | .lmonSample c n code => Sys2Proof.Machine.execLmonSample c n code s
  | .cxpLinkUp c link => Sys2Proof.Machine.execCxpLinkUp c link s
  | .alignMissing c link => Sys2Proof.Machine.execAlignMissing c link s
  | .refpbDone c n => Sys2Proof.Machine.execRefpbDone c n s
  | .aspmL1Entry => Sys2Proof.Machine.execAspmL1Entry s
  | .arpReply p ip mac => Sys2Proof.Machine.execArpReply p ip mac s

end Sys2Proof.Machine
end

