-- ==== Sys2Proof/Safety.lean ====
section
/-!
DEFINITION. What counts as a run of the block, and the names the statements use: a running device, the commands that act on a held one, the
channel a command is for, memory in canonical form, what a run from reset reaches.
-/

namespace Sys2Proof.Machine

namespace State

/-- The device runs: no reset holds it, and none is due (R531). -/
def running (s : State) : Prop := s.common.held = .none ∧ s.common.resetDue = false

/-- The memory of every channel is in canonical form. -/
def canonical (s : State) : Prop := ∀ c : Fin 6, memWf (s.chan c).mem = true

/-- The block is given one more command, behind those that wait. -/
def offer (s : State) (c : Instr) : State := { s with pending := s.pending ++ [c] }

end State

/-- States that commands given to the block after reset bring about. -/
inductive Reachable : State → Prop
  | reset : Reachable .reset
  | offer (s : State) (c : Instr) : Reachable s → Reachable (s.offer c)
  | step (s t : State) : Reachable s → step s = .next t → Reachable t

/-- The commands that act while a reset holds the device: the two resets that hold it and their ends, and the level of PERST#. -/
def whileHeld : Instr → Bool
  | .porstAssert => true
  | .porstRelease _ _ => true
  | .thermalTripRelease _ _ => true
  | .perstAssert => true
  | .perstDeassert => true
  | _ => false

/-- The channel whose units a command is for, where it is for the units of one channel. -/
def channelOf : Instr → Option (Fin 6)
  | .inFlightSetApply c _ => some c
  | .gridPointReached c _ => some c
  | .buarnlinkBurst c _ _ _ _ _ _ _ _ _ => some c
  | .buarnlinkLineEnd c _ _ _ _ _ => some c
  | .buarnlinkTriggerAck c _ _ _ _ _ => some c
  | .buarnlinkTemperature c _ _ _ => some c
  | .buarnlinkRegData c _ _ _ => some c
  | .buarnlinkRegAck c _ _ _ => some c
  | .buarnlinkExpoAck c _ _ _ _ => some c
  | .buarnlinkAlign c _ _ => some c
  | .buarnlinkDecodeError c _ => some c
  | .blockLock c _ => some c
  | .blockLockLoss c _ => some c
  | .expoAckTimeout c _ => some c
  | .blRegTimeout c => some c
  | .cxpStreamPacket c _ _ _ _ _ _ => some c
  | .cxpControlReceive c _ _ => some c
  | .cxpExpoWriteTimeout c _ => some c
  | .auxLineStart x => some x.chan
  | .auxLineEnd x _ => some x.chan
  | .trgPulseEnd c _ => some c
  | .trgGapEnd c _ => some c
  | .lineTimeout c _ => some c
  | .mergePassLine c => some c
  | .outputLine c _ => some c
  | .segmentationLine c => some c
  | .recordRingWrite c => some c
  | .recIrqTimeExpire c => some c
  | .cuePieceCompare c => some c
  | .cueHorizon c _ => some c
  | .cueFire c _ => some c
  | .cueResolveLimit c _ => some c
  | .stkPulseEnd c _ => some c
  | .cueSnapCapture c => some c
  | .postEnd c => some c
  | .retakeLoaded c => some c
  | .retakeEntry c => some c
  | .memRequest c _ _ _ _ _ _ => some c
  | .memAccessComplete c _ _ => some c
  | .refreshSlot c _ => some c
  | .forcedBurstStep c _ => some c
  | .mr4Poll c _ => some c
  | .srEntry c => some c
  | .srCommit c => some c
  | .srExit c _ => some c
  | .freqChangeDone c _ => some c
  | .trainingDone c _ => some c
  | .memPllLoss c => some c
  | .cmpJobStart c => some c
  | .cmpJobComplete c => some c
  | .recorderLineCompress c => some c
  | .move c _ => some c
  | .moveRing c _ => some c
  | .movsg c _ => some c
  | .loop c _ => some c
  | .wait c _ => some c
  | .waitSatisfied c _ => some c
  | .waitTimeout c _ => some c
  | .signal c _ => some c
  | .threadEnd c _ => some c
  | .nop c _ => some c
  | .dmaBadOpcode c _ => some c
  | .powerDecision c => some c
  | .stateEntryDone c => some c
  | .illPwmPeriod c _ => some c
  | .lmonSample c _ _ => some c
  | .cxpLinkUp c _ => some c
  | .alignMissing c _ => some c
  | .refpbDone c _ => some c
  | _ => none

/-- Channel `c` answers the host: it is not in reset, and it is in Run, neither entering nor leaving a power state (R68, R522). -/
def Chan.answers (c : Chan) : Prop := c.inReset = false ∧ c.power.st = .run ∧ c.power.phase = .steady

/-- The device hears a write of an object of the index by its path: a KDP item that is executed; an access of a BAR that holds the object's
index, of a function that answers on its BARs (R86, R87, R458). -/
def State.hears (s : State) (index : Nat) : Via → Prop
  | .kdp => True
  | .bar f => barMaps f index = true ∧ s.linkUp = true ∧ (s.fnNode f).fn.flr = false ∧ (s.fnNode f).fn.memEnable = true ∧
      (s.fnNode f).fn.d3hot = false

/-- The channel takes a direct write of the object with key `k`: it replays no journal, or takes this object while it does (R368). -/
def Chan.takes (c : Chan) (k : Nat) : Prop := c.replaying = false ∨ replayTakes k = true

/-- A direct write of value `vals` to object `k` of channel `c`, accepted, that leaves the channel as `x`: it is journaled (R360), and the
device takes what the channel reports. -/
def State.wrote (s : State) (c : Fin 6) (k : Nat) (vals : List Nat) (x : Chan) : State := s.settle c (x.dictEntry k vals)

/-- Channel `c` takes a direct write by `via` of the object with key `k` (of SW0's form). -/
def State.open_ (s : State) (via : Via) (c : Fin 6) (k : Nat) : Prop :=
  s.running ∧ s.hears (k / 256 + 0x800 * c.val) via ∧ (s.chan c).answers ∧ (s.chan c).takes k

/-- A segmented write of a common object without MORE has ended (R71). -/
def State.segmentEnd (s : State) (k : Nat) : State :=
  s.modSlate fun q => { q with openDirect := q.openDirect.filter (· != k) }

/-- The KDP server takes a datagram as a request of opcode `op` (R72, R73). -/
def State.kdpTakes (s : State) (d : Datagram) (op : Nat) : Prop :=
  s.kdpUp d.port.val = true ∧ d.vlan = false ∧ d.ipOptions = false ∧ d.fragment = false ∧ 24 ≤ d.payload.length ∧
    d.payload.length ≤ 1472 ∧ kdpMagic d.payload = true ∧ kdpCrcOk d.payload = true ∧ (kdpHeader d.payload).opcode = op

/-- The payload of a KDP message, between its header and its CRC (R73). -/
def kdpPayload (d : Datagram) : List Nat := (d.payload.drop 20).take (d.payload.length - 24)

/-- An answer leaves for the sender of a datagram where the port has a way to it. -/
def State.answerTo (s t : State) (d : Datagram) (bytes : List Nat) : State :=
  if s.routed d.port.val d.srcIp then t.mapN (·.emit (.udp d.port.val (s.common.n.elem K.NET_IPV4_ADDR d.port.val) 47810 d.srcIp d.srcPort bytes)) else t

/-- Nothing of the channel waits to be looked at by what follows an act of it. -/
def Chan.silent (c : Chan) : Prop :=
  c.notes = [] ∧ c.n.fresh = [] ∧ c.n.shed = [] ∧ c.n.fn.waiting = [] ∧ c.power.cause = false ∧ c.power.sig = []

end Sys2Proof.Machine
end

