-- ==== Sys2Proof/Certificates/Slice0/Obligations.lean ====
section
/-!
DEFINITION. The statements: what every command does on a running device, what every step keeps, and rules of the spec.
-/

open Sys2Proof Sys2Proof.Machine Sys2Proof.Machine.State Sys2Proof.Machine.Chan

/-- For every command c and state s, step of s with c at the front of its queue is exec of c on s with the rest of the queue. -/
def Obligations.StepRunsFrontCommand : Prop :=
  ∀ (s : State) (c : Instr) (rest : List Instr), step { s with pending := c :: rest } = exec c { s with pending := rest }

/-- A step on an empty queue answers the same state. This is the choice of log entry 1 and no rule of the spec: what the clock does comes as
commands. -/
def Obligations.IdleOnEmptyQueue : Prop :=
  ∀ s : State, s.pending = [] → step s = .next s

/-- From every state, a step that answers a next state leaves the queue without its front command and otherwise as it was, whatever the
command did. -/
def Obligations.QueueIsFifo : Prop :=
  ∀ s t : State, step s = .next t → t.pending = s.pending.tail

/-- From every state in which no device reset is due, every step that answers a next state answers one in which none is due: a reset that a
command brings about acts within that command. That a reset acts before the next command is log entry 31. -/
def Obligations.NoResetStaysDue : Prop :=
  ∀ s t : State, s.common.resetDue = false → step s = .next t → t.common.resetDue = false

/-- After reset no command waits, no reset is due and none holds the device, and the memory of every channel is in canonical form. -/
def Obligations.ResetMeetsTheInvariants : Prop :=
  State.reset.pending = [] ∧ State.reset.running ∧ State.reset.canonical

/-- For every command and every state, exec answers a next state. -/
def Obligations.EveryCommandAnswers : Prop :=
  ∀ (c : Instr) (s : State), ∃ t : State, exec c s = .next t

/-- While PORST# or a thermal trip holds the device, every command but PORST_ASSERT, PORST_RELEASE, THERMAL_TRIP_RELEASE, PERST_ASSERT and
PERST_DEASSERT leaves the state as it is. -/
def Obligations.HeldDeviceDoesNothing : Prop :=
  ∀ (c : Instr) (s : State), s.common.held ≠ .none → whileHeld c = false → exec c s = .next s

/-- For every command that is for the units of one channel and every running device: any other channel is the same afterwards, but for
requests that reach it through the common block, of which these commands make none. -/
def Obligations.ChannelCommandsStayInTheirChannel : Prop :=
  ∀ (c : Instr) (s t : State) (i j : Fin 6), channelOf c = some i → j ≠ i → s.running → exec c s = .next t → t.chan j = s.chan j

/-- On a running device, TEMP_SAMPLE, THERMAL_COMPARE, SUPPLY_SAMPLE, UDP_DATAGRAM_SEND, BW_HELLO_SEND, BW_DELAY_REQ_SEND,
BW_DELAY_REQ_FRAME, ASPM_L1_ENTRY, KDP_SESSION_EXPIRE, SUBSCRIPTION_LAPSE and MAILBOX_DONE change nothing of any channel. -/
def Obligations.CommonCommandsLeaveChannels : Prop :=
  ∀ (c : Instr) (s t : State), s.running → exec c s = .next t →
    (match c with
     | .tempSample _ | .thermalCompare | .supplySample _ _ | .udpDatagramSend | .bwHelloSend | .bwDelayReqSend | .bwDelayReqFrame _ _ _
     | .aspmL1Entry | .kdpSessionExpire | .subscriptionLapse | .mailboxDone => True
     | _ => False) → t.chans = s.chans

/-- On a running device (no reset holds it and none is due), for every operand: a position update gives every channel the position and
decides the position-named Slates it brings; a time update runs the clock five cycles and gives every channel the time; an in-flight set is
applied at its stage; a part is published under its generation, and subscriptions are served. -/
def Obligations.BroadcastsComplete : Prop :=
  ∀ s : State, s.running →
    (exec .positionBroadcastUpdate s = .next s.positionUpdate) ∧
    (exec .timeBroadcastUpdate s = .next s.timeUpdate) ∧
    (∀ (c : Fin 6) (stage : Fin 8), exec (.inFlightSetApply c stage) s = .next (s.onUp c (·.applySet stage.val))) ∧
    (∀ (c : Fin 6) (part : Part), exec (.generationPublish c part) s = .next ((s.publish c part).notifyAll))

/-- On a running device (no reset holds it and none is due), for every operand: sessions and subscriptions end; ARP and echo requests are
answered; the mailbox raises its source; a slot or the large-object window is read; an open segmented write is closed. -/
def Obligations.DictionaryEventsComplete : Prop :=
  ∀ s : State, s.running →
    (exec .kdpSessionExpire s = .next s.expireSessions) ∧
    (exec .subscriptionLapse s = .next s.lapseSubs) ∧
    (∀ (p : Fin 2) (ip : Nat), exec (.netArpRequest p ip) s = .next (s.arpAnswer p ip)) ∧
    (∀ (p : Fin 2) (src dst : Nat) (payload : List Nat), exec (.netIcmpEcho p src dst payload) s = .next (s.echoAnswer p src dst payload)) ∧
    (exec .mailboxDone s = .next s.mailboxDone) ∧
    (∀ (f : Fin 7) (b : HostBar) (off size : Nat), exec (.barSlotRead f b off size) s = .next (s.barRead none f b off size)) ∧
    (∀ (f : Fin 7) (off : Fin 1048576) (size : Nat), exec (.largeObjectWindowRead f off size) s = .next (s.hostRead f (·.windowRead none f off.val
      size))) ∧
    (∀ (f : Fin 7), exec (.lowCtrlClose f) s = .next (s.hostWrite f (·.lowClose f)))

/-- On a running device (no reset holds it and none is due), for every operand: each encoder event acts on the encoder block, a grid point
on the head of a channel in service, and an encoder output emits its edge. -/
def Obligations.MotionCommandsComplete : Prop :=
  ∀ s : State, s.running →
    (∀ (i : Fin 8) (a b : Bool) (heldA heldB : Nat) (cycle : Fin 4), exec (.encoderEdge i ⟨a, b⟩ ⟨heldA, heldB, cycle⟩) s =
      .next (s.encoderEdge i.val a b (heldA, heldB) cycle.val)) ∧
    (∀ (i : Fin 8) (z : Bool) (held : Nat), exec (.encoderIndex ⟨i, z, held⟩) s = .next (s.encoderIndex i.val z held)) ∧
    (∀ (i : Fin 8) (pair : Fin 3), exec (.wireFault i pair) s = .next (s.onEnc (wireFault i.val pair.val))) ∧
    (∀ (i : Fin 8), exec (.wireCheckEnd i) s = .next (s.onEnc (wireEnd i.val))) ∧
    (∀ (i : Fin 8), exec (.standstillTimeout i) s = .next (s.onEnc (encStandstill i.val))) ∧
    (exec .failoverSilenceExpire s = .next (s.onEnc failSilence)) ∧
    (∀ (c : Fin 6) (h cycle : Fin 4), exec (.gridPointReached c ⟨h, cycle⟩) s = .next (s.onLive c (·.gridIn h.val cycle.val (s.webPosIn cycle.val)))) ∧
    (∀ (m cycle : Fin 4), exec (.encoutEmit ⟨m, cycle⟩) s = .next (s.onEnc (outEmit m.val cycle.val)))

/-- On a running device (no reset holds it and none is due), for every operand: each event acts on the timebase and its network port, and a
due timed action is executed. -/
def Obligations.ClockCommandsComplete : Prop :=
  ∀ s : State, s.running →
    (∀ (p : Fin 2) (m : PtpMsg), exec (.ptpMessageReceive p m) s = .next (s.onTime (ptpReceive p.val m))) ∧
    (∀ (p : Fin 2), exec (.ptpAnnounceTimeout p) s = .next (s.onTb (ptpAnnTimeout p.val))) ∧
    (∀ (p : Fin 2), exec (.ptpSyncTransmit p) s = .next (s.onTb (ptpSync p.val))) ∧
    (∀ (p : Fin 2), exec (.ptpAnnounceTransmit p) s = .next (s.onTb (ptpAnnounceSend p.val))) ∧
    (∀ (p : Fin 2), exec (.ptpDelayReqTransmit p) s = .next (s.onTb (ptpRequest p.val))) ∧
    (exec .ppsInEdge s = .next (s.onTime ppsEdge)) ∧
    (∀ (err : Int), exec (.ref10mMeasure err) s = .next (s.onTb (refMeasure err))) ∧
    (exec .ppsMissing s = .next (s.onTb ppsMissing)) ∧
    (exec .refMissing s = .next (s.onTb refMissing)) ∧
    (exec .tbSourceTimeout s = .next (s.onTb tbTimeout)) ∧
    (exec .ppsOutRise s = .next (s.onTb ppsRise)) ∧
    (exec .ppsOutFall s = .next (s.onTb ppsFall)) ∧
    (∀ (p : Fin 2) (up : Bool), exec (.netLinkChange p up) s = .next (s.netChange p.val up)) ∧
    (∀ (p : Fin 2), exec (.netRxOverrun (.net p)) s = .next (s.onTb (netOverrun p.val))) ∧
    (∀ (p : Fin 2), exec (.netRxOverrun (.ring p)) s = .next (s.onBw (·.rxOverrun p.val))) ∧
    (∀ (e : Fin 64), exec (.timedActionExecute e) s = .next (s.taExecute e.val))

/-- On a running device (no reset holds it and none is due), for every operand: each unit received on a link that is up acts on the channel
it belongs to, where the channel is in service; lock, loss of lock and time-outs act on the link. -/
def Obligations.BuarnLinkCommandsComplete : Prop :=
  ∀ s : State, s.running →
    (∀ (c : Fin 6) (link : Fin 8) (head : Fin 4) (tap : Fin 8) (first : Bool) (tag offset : Nat) (blocks : Fin 256) (data overrun : List Nat), exec
      (.buarnlinkBurst c link head tap first tag offset blocks data overrun) s = .next (s.onLive c (·.onUpLink link.val fun x => (x.laneItem link.val
      data).blBurst link.val head.val tap.val first tag offset blocks.val data overrun))) ∧
    (∀ (c : Fin 6) (link : Fin 8) (head : Fin 4) (tap : Fin 8) (count crc : Nat), exec (.buarnlinkLineEnd c link head tap count crc) s = .next
      (s.onLive c (·.onUpLink link.val (·.blLineEnd link.val head.val tap.val count crc)))) ∧
    (∀ (c : Fin 6) (link : Fin 8) (head : Fin 4) (overrun : Bool) (num delay : Nat), exec (.buarnlinkTriggerAck c link head overrun num delay) s =
      .next (s.onLive c (·.onUpLink link.val (·.blTriggerAck link.val head.val overrun num delay)))) ∧
    (∀ (c : Fin 6) (link : Fin 8) (head : Fin 4) (t : Int), exec (.buarnlinkTemperature c link head t) s = .next (s.onLive c (·.onUpLink link.val
      (·.blTemperature link.val head.val (toBits 16 t))))) ∧
    (∀ (c : Fin 6) (link : Fin 8) (tag : Fin 256) (v : Nat), exec (.buarnlinkRegData c link tag v) s = .next (s.onLive c (·.onUpLink link.val
      (·.regData link.val tag.val v)))) ∧
    (∀ (c : Fin 6) (link : Fin 8) (tag result : Fin 256), exec (.buarnlinkRegAck c link tag result) s = .next (s.onLive c (·.onUpLink link.val
      (·.regAck link.val tag.val result.val)))) ∧
    (∀ (c : Fin 6) (link : Fin 8) (head : Fin 4) (trig : Nat) (result : Fin 256), exec (.buarnlinkExpoAck c link head trig result) s = .next
      (s.onLive c (·.onUpLink link.val (·.expoAck link.val head.val trig result.val)))) ∧
    (∀ (c : Fin 6) (link : Fin 8) (bs : List AlignBlock), exec (.buarnlinkAlign c link bs) s = .next (s.onUp c (·.blAlign link.val bs))) ∧
    (∀ (c : Fin 6) (link : Fin 8), exec (.buarnlinkDecodeError c link) s = .next (s.onUp c (·.onUpLink link.val (·.decodeErrors link.val 1)))) ∧
    (∀ (c : Fin 6) (l : Fin 8), exec (.blockLock c l) s = .next (s.onUp c (·.blockLock l.val))) ∧
    (∀ (c : Fin 6) (l : Fin 8), exec (.blockLockLoss c l) s = .next (s.onUp c (·.blockLockLoss l.val))) ∧
    (∀ (c : Fin 6) (h : Fin 4), exec (.expoAckTimeout c h) s = .next (s.onLive c (·.expoTimeout h.val))) ∧
    (∀ (c : Fin 6), exec (.blRegTimeout c) s = .next (s.onUp c (·.regTimeout))) ∧
    (∀ (c : Fin 6) (link : Fin 8), exec (.alignMissing c link) s = .next (s.onUp c (·.alignMissing link.val)))

/-- On a running device (no reset holds it and none is due), for every operand: CoaXPress packets, aux lines, trigger pulse ends, line time-
outs and merge passes act on their channel. -/
def Obligations.OtherInputCommandsComplete : Prop :=
  ∀ s : State, s.running →
    (∀ (c : Fin 6) (link : Fin 8) (id : Nat) (u : StreamUnit) (crcOk : Bool) (payload overrun : List Nat), exec (.cxpStreamPacket c link id u crcOk
      payload overrun) s = .next (s.onLive c (·.onUpLink link.val fun x => (x.laneItem link.val payload).cxpStream link.val id u crcOk overrun))) ∧
    (∀ (c : Fin 6) (link : Fin 8) (p : CxpControl), exec (.cxpControlReceive c link p) s = .next (s.onUp c (·.onUpLink link.val (·.cxpControl
      link.val p)))) ∧
    (∀ (c : Fin 6) (h : Fin 4), exec (.cxpExpoWriteTimeout c h) s = .next (s.onLive c (·.cxpExpoTimeout h.val))) ∧
    (∀ (c : Fin 6) (level : Bool), exec (.auxLineStart ⟨c, level⟩) s = .next (s.onLive c (·.auxStart level))) ∧
    (∀ (c : Fin 6) (level : Bool) (es : List AuxEdge), exec (.auxLineEnd ⟨c, level⟩ es) s = .next (s.onLive c (·.auxDone level es))) ∧
    (∀ (c : Fin 6) (t : Fin 4), exec (.trgPulseEnd c t) s = .next (s.onUp c (·.pulseEnd t.val))) ∧
    (∀ (c : Fin 6) (t : Fin 4), exec (.trgGapEnd c t) s = .next (s.onUp c (·.gapEnd t.val))) ∧
    (∀ (c : Fin 6) (h : Fin 4), exec (.lineTimeout c h) s = .next (s.onLive c (·.lineTimeout h.val))) ∧
    (∀ (c : Fin 6), exec (.mergePassLine c) s = .next (s.onClocked c (·.mergePass))) ∧
    (∀ (c : Fin 6) (link : Fin 8), exec (.cxpLinkUp c link) s = .next (s.onUp c (·.cxpLinkUp link.val)))

/-- On a running device (no reset holds it and none is due), for every operand: each lane event acts on the lane it names, of a channel or
of the common block; WANDER writes under the camera lane’s source or under code 0204h of a duplex lane. -/
def Obligations.LaneCommandsComplete : Prop :=
  ∀ s : State, s.running →
    (∀ (r : LaneRef) (freq : Int), exec (.cdrLock r freq) s = .next (s.cdrLock r freq)) ∧
    (∀ (r : LaneRef), exec (.losAssert r) s = .next (s.losAssert r)) ∧
    (∀ (r : LaneRef), exec (.losDeassert r) s = .next (s.laneAct r fun _ x => (x.1, { x.2 with los := false }))) ∧
    (∀ (r : LaneRef) (freq : Int) (slips : Nat), exec (.lolAssert ⟨r, freq, slips⟩) s = .next (s.lolAct r fun kb => laneMeasure kb freq slips)) ∧
    (∀ (r : LaneRef) (f1 f2 f3 : Int), exec (.lolDeassert ⟨r, f1, f2, f3⟩) s = .next (s.laneAct r fun kb => laneRegain kb [f1, f2, f3])) ∧
    (∀ (r : LaneRef), exec (.lolTrimReload r) s = .next (s.laneAct r laneLolReload)) ∧
    (∀ (r : LaneRef) (changes idle total compared errors : Nat) (locked : Bool), exec (.idleMonitorWindow r changes idle total ⟨compared, errors, locked⟩) s = .next (s.laneAct r fun kb => laneWindow kb changes idle total compared errors (s.laneLocked r locked) (s.scanning r))) ∧
    (∀ (r : LaneRef) (steps : List Int), exec (.dfeUpdate r steps) s = .next (s.laneAct r fun kb => laneDfe kb steps)) ∧
    (∀ (r : LaneRef) (step : Int), exec (.ctleUpdate r step) s = .next (s.laneAct r fun kb => laneCtle kb step)) ∧
    (∀ (r : LaneRef), exec (.oneShotConverge r) s = .next (s.laneAct r laneConverge)) ∧
    (∀ (r : LaneRef), exec (.wander r) s = .next (s.laneAct r fun kb => laneWander kb fun n =>
        match r with
        | .camera _ l => n.alarm (19 + 3 * l.val)
        | .duplex d => n.log 2 0x204 d.val)) ∧
    (∀ (r : LaneRef), exec (.trimUpdate r) s = .next (s.trimUpdate r)) ∧
    (∀ (r : LaneRef), exec (.trimRampStep r) s = .next (s.laneTrim r laneRamp)) ∧
    (∀ (r : LaneRef) (bits errors : Nat) (wrong : List Bool), exec (.prbsSyncLoss r bits ⟨errors, wrong⟩) s = .next (s.laneAct r fun kb => lanePrbsLoss
      kb bits errors wrong)) ∧
    (∀ (r : ScanRef) (errors : Nat), exec (.scanPointDone r errors) s = .next (s.scanPointDone r errors)) ∧
    (∀ (r : LaneRef) (bits : List Bool), exec (.prbsSyncGain ⟨r, bits⟩) s = .next (s.laneAct r fun kb => lanePrbsGain kb (s.patWord r) bits))

/-- On a running device (no reset holds it and none is due), for every operand: a head line goes through the front end, an output line
leaves the stitcher, an illumination output steps, a monitor sample is taken. -/
def Obligations.PixelAndLightCommandsComplete : Prop :=
  ∀ s : State, s.running →
    (∀ (c : Fin 6) (h : Fin 4), exec (.frontEndLine c h) s = .next (if (s.chan c).inReset then s else s.frontLine c h)) ∧
    (∀ (c : Fin 6) (late : List Nat), exec (.outputLine c late) s = .next (s.onClocked c (·.outputNext late))) ∧
    (∀ (c : Fin 6) (i : Fin 2), exec (.illPwmPeriod c i) s = .next (s.onUp c (·.illStep i.val))) ∧
    (∀ (c : Fin 6) (i : Fin 2) (code : Nat), exec (.lmonSample c i code) s = .next (s.onUp c (·.lmonSample i.val code)))

/-- On a running device (no reset holds it and none is due), for every operand: each event of segmentation, the record ring, the Cue sheet,
the strike pins, the recorder and Retake acts on its channel out of reset. -/
def Obligations.DefectCommandsComplete : Prop :=
  ∀ s : State, s.running →
    (∀ (c : Fin 6), exec (.segmentationLine c) s = .next (s.onClocked c (·.segNext))) ∧
    (∀ (c : Fin 6), exec (.recordRingWrite c) s = .next (s.onUp c (·.recWrite))) ∧
    (∀ (c : Fin 6), exec (.recIrqTimeExpire c) s = .next (s.onUp c (·.recIrqTime))) ∧
    (∀ (c : Fin 6), exec (.cuePieceCompare c) s = .next (s.onClocked c (·.pieceCompare))) ∧
    (∀ (c : Fin 6) (entry : Fin 2048), exec (.cueHorizon c entry) s = .next (s.onUp c (·.dueHorizon entry.val))) ∧
    (∀ (c : Fin 6) (entry : Fin 2048), exec (.cueFire c entry) s = .next (s.onUp c (·.dueFire entry.val))) ∧
    (∀ (c : Fin 6) (entry : Fin 2048), exec (.cueResolveLimit c entry) s = .next (s.onUp c (·.dueLimit entry.val))) ∧
    (∀ (c : Fin 6) (o : Fin 4), exec (.stkPulseEnd c o) s = .next (s.onUp c (·.strikeEnd o.val))) ∧
    (∀ (c : Fin 6), exec (.cueSnapCapture c) s = .next (s.onUp c (·.cueSnap))) ∧
    (∀ (c : Fin 6), exec (.postEnd c) s = .next (s.onUp c (·.postEnd))) ∧
    (∀ (c : Fin 6), exec (.retakeLoaded c) s = .next (s.onUp c (·.retakeLoaded))) ∧
    (∀ (c : Fin 6), exec (.retakeEntry c) s = .next (s.onUp c (·.retakeEntry)))

/-- On a running device (no reset holds it and none is due), for every operand: a request arrives, an access completes, refresh, MR4, self-
refresh, frequency change and training events act on the channel’s controller; the WCK2DQ update changes no state the model holds. -/
def Obligations.MemoryCommandsComplete : Prop :=
  ∀ s : State, s.running →
    (∀ (c : Fin 6) (cls : Fin 3) (tag : Fin 65536) (write : Bool) (addr len : Nat) (bytes : List Nat), exec (.memRequest c cls tag write addr len
      bytes) s = .next (s.onChan c (·.memRequest { tag := tag.val, cls := cls.val, write := write, addr := addr, len := len, bytes := bytes }))) ∧
    (∀ (c : Fin 6) (sub : Fin 4) (j : Fin 32), exec (.memAccessComplete c sub j) s = .next (s.onChan c (·.memComplete sub.val j.val))) ∧
    (∀ (c : Fin 6) (i : Fin 8), exec (.refreshSlot c i) s = .next (s.onChan c (·.refSlot i.val))) ∧
    (∀ (c : Fin 6) (i : Fin 8), exec (.forcedBurstStep c i) s = .next (s.onChan c (·.burstStep i.val))) ∧
    (∀ (c : Fin 6) (vals : List (Fin 256 × Fin 4)), exec (.mr4Poll c vals) s = .next (s.onChan c (·.whenReady fun x => x.mr4All false (mr4Vals
      vals)))) ∧
    (∀ (c : Fin 6), exec (.wck2dqUpdate c) s = .next (s)) ∧
    (∀ (c : Fin 6), exec (.srEntry c) s = .next (s.onChan c (·.srStart))) ∧
    (∀ (c : Fin 6), exec (.srCommit c) s = .next (s.onChan c (·.srCommit))) ∧
    (∀ (c : Fin 6) (vals : List (Fin 256 × Fin 4)), exec (.srExit c vals) s = .next (s.onChan c fun x => (x.srExit (mr4Vals vals)).memAgain)) ∧
    (∀ (c : Fin 6) (vals : List (Fin 256 × Fin 4)), exec (.freqChangeDone c vals) s = .next (s.onChan c fun x =>
      (x.freqDone (mr4Vals vals)).memAgain)) ∧
    (∀ (c : Fin 6) (fail : Option (Fin 6 × Fin 16)), exec (.trainingDone c fail) s = .next (s.onChan c fun x =>
      (x.trainDone (fail.map fun p => (p.1.val + 1, 16 * p.2.val))).memAgain)) ∧
    (∀ (c : Fin 6), exec (.memPllLoss c) s = .next (s.onChan c (·.pllLoss))) ∧
    (∀ (c : Fin 6) (i : Fin 8), exec (.refpbDone c i) s = .next (s.onChan c (·.refDone i.val)))

/-- On a running device (no reset holds it and none is due), for every operand: a job starts and completes, each DMA instruction acts on its
thread, and a completion or its time-out reaches the thread that waits for it. -/
def Obligations.TransferCommandsComplete : Prop :=
  ∀ s : State, s.running →
    (∀ (c : Fin 6), exec (.cmpJobStart c) s = .next (s.onUp c (·.cmpStart s.contexts))) ∧
    (∀ (c : Fin 6), exec (.cmpJobComplete c) s = .next (s.onUp c (·.cmpDone false))) ∧
    (∀ (c : Fin 6), exec (.recorderLineCompress c) s = .next (s.onUp c (·.lineCompressed))) ∧
    (∀ (c : Fin 6) (t : Fin 8), exec (.move c t) s = .next (s.onUp c (·.dmaMove t.val))) ∧
    (∀ (c : Fin 6) (t : Fin 8), exec (.moveRing c t) s = .next (s.onUp c (·.dmaMoveRing t.val))) ∧
    (∀ (c : Fin 6) (t : Fin 8), exec (.movsg c t) s = .next (s.onUp c (·.dmaMovsg t.val))) ∧
    (∀ (c : Fin 6) (t : Fin 8), exec (.loop c t) s = .next (s.onUp c (·.dmaLoop t.val))) ∧
    (∀ (c : Fin 6) (t : Fin 8), exec (.wait c t) s = .next (s.onUp c (·.dmaWait t.val))) ∧
    (∀ (c : Fin 6) (t : Fin 8), exec (.waitSatisfied c t) s = .next (s.onUp c (·.dmaSatisfied t.val))) ∧
    (∀ (c : Fin 6) (t : Fin 8), exec (.waitTimeout c t) s = .next (s.onUp c (·.dmaTimeout t.val))) ∧
    (∀ (c : Fin 6) (t : Fin 8), exec (.signal c t) s = .next (s.onUp c (·.dmaSignal t.val))) ∧
    (∀ (c : Fin 6) (t : Fin 8), exec (.threadEnd c t) s = .next (s.onUp c (·.dmaEnd t.val))) ∧
    (∀ (c : Fin 6) (t : Fin 8), exec (.nop c t) s = .next (s.onUp c (·.dmaNop t.val))) ∧
    (∀ (c : Fin 6) (t : Fin 8), exec (.dmaBadOpcode c t) s = .next (s.onUp c (·.dmaBadOpcode t.val))) ∧
    (∀ (c : Fin 6) (tag : Nat) (status : Fin 4) (bytes : List Nat), exec (.busReadCompletion c tag status bytes) s = .next (s.readDone c tag
      status.val bytes)) ∧
    (∀ (c : Fin 6) (t : Fin 8) (tag : Nat), exec (.pcieCompletionTimeout c t tag) s = .next (s.cplTimeout c t.val tag)) ∧
    (∀ (c : Fin 6) (tag : Nat), exec (.unexpectedCompletion c tag) s = .next (if s.linkUp ∧ (s.chan c).tagThread tag = none then s.unexpected ⟨c.val
      + 1, by omega⟩ else s))

/-- On a running device (no reset holds it and none is due), for every operand: the PERST# level, link entry, exit and resets, function-
level resets, configuration requests, errors, windows, messages and claims act on the host port, each where the link state lets it. -/
def Obligations.HostPortCommandsComplete : Prop :=
  ∀ s : State, s.running →
    (exec .perstAssert s = .next s.perstLow) ∧
    (exec .perstDeassert s = .next s.perstHigh) ∧
    (∀ (rate : Fin 6) (width : Fin 5) (flit reversed : Bool), exec (.linkL0Entry rate width flit reversed) s = .next (s.linkL0 (rate.val + 1) (2 ^
      width.val) flit reversed)) ∧
    (exec .pcieLinkDown s = .next (if s.linkOn then s.portReset 1 else s)) ∧
    (∀ (disable : Bool), exec (.hotReset disable) s = .next (if s.linkOn then s.portReset (if disable then 5 else 1) else s)) ∧
    (∀ (f : Fin 7), exec (.flr f) s = .next (if s.linkUp ∧ (s.fnNode f).fn.flr = false then s.flr f else s)) ∧
    (∀ (f : Fin 7), exec (.flrComplete f) s = .next (s.flrDone f)) ∧
    (∀ (f : Fin 7) (r : ConfigReg) (w : Option Nat), exec (.pcieConfigRequest f r w) s = .next (s.configRequest f r w)) ∧
    (∀ (f : Fin 7) (read : Bool), exec (.pcieUnsupportedRequest f read) s = .next (if s.linkUp then s.unsupported f read else s)) ∧
    (∀ (f : Fin 7) (e : PcieError), exec (.pcieErrorDetected f e) s = .next (s.pcieError f e)) ∧
    (∀ (c : Fin 6) (tag : Fin 65536) (off len : Nat), exec (.bar4WindowRead c tag off len) s = .next (s.bar4Read c tag.val off len)) ∧
    (∀ (c : Fin 6) (off : Nat) (data : List Nat), exec (.bar4WindowWrite c off data) s = .next (s.bar4Write c off data)) ∧
    (∀ (f : Fin 7), exec (.busMasterDisable f) s = .next (if s.linkUp then s.busMasterSet f false else s)) ∧
    (∀ (f : Fin 7) (v : Fin 64), exec (.msixMessageSend f v) s = .next (s.onFn f (·.msixSend v.val))) ∧
    (∀ (f : Fin 7) (v : Fin 64), exec (.claim f v) s = .next (s.barRead none f .bar2 (0x9000 + 8 * v.val) 4)) ∧
    (exec .aspmL1Entry s = .next (if s.linkUp then s.onN (·.putN K.HP_LINK_STATE 3) else s))

/-- On a running device (no reset holds it and none is due), for every operand: records are accepted and leave, store writes end,
calibration steps end, and an ARP reply is taken. -/
def Obligations.RecordCommandsComplete : Prop :=
  ∀ s : State, s.running →
    (exec .logRecordAccept s = .next s.acceptNext) ∧
    (∀ (f : Fin 7), exec (.logRingDrain f) s = .next (s.ringLeave f)) ∧
    (exec .udpDatagramSend s = .next (s.onLog udpSend)) ∧
    (∀ (result : Fin 3), exec (.storeWriteComplete result) s = .next (s.storeDone (result.val + 1))) ∧
    (exec .storeStepTimeout s = .next (s.storeDone 4)) ∧
    (exec .calTimeout s = .next ((s.onCal calTimeout).calSync)) ∧
    (exec .calComputeDone s = .next s.calFinish) ∧
    (∀ (p : Fin 2) (ip mac : Nat), exec (.arpReply p ip mac) s = .next (s.arpReply p.val ip mac))

/-- On a running device (no reset holds it and none is due), for every operand: frames received, frames due, the election and the port
states act on the ring part. -/
def Obligations.RingCommandsComplete : Prop :=
  ∀ s : State, s.running →
    (∀ (p : Fin 2) (f : RingFrame), exec (.bwPositionFrame p f) s = .next (s.ringPosition p.val f)) ∧
    (∀ (p : Fin 2) (f : RingFrame), exec (.bwSlateFrame p f) s = .next (s.ringSlate p.val f)) ∧
    (exec .bwCommitApply s = .next s.ringCommit) ∧
    (∀ (p : Fin 2) (f : RingFrame), exec (.bwRelayFrame p f) s = .next (s.ringRelay p.val f)) ∧
    (∀ (p : Fin 2) (f : RingFrame), exec (.bwEchoFrame p f) s = .next (s.onRing (·.echoFrame p.val f))) ∧
    (exec .bwEchoExecute s = .next s.ringEcho) ∧
    (∀ (p : Fin 2) (f : RingFrame), exec (.bwHelloFrame p f) s = .next (s.onRing (·.helloFrame p.val f))) ∧
    (∀ (p : Fin 2) (f : RingFrame) (turn : Nat), exec (.bwDelayReqFrame p f turn) s = .next (s.onBw (·.delayReq p.val f turn))) ∧
    (∀ (p : Fin 2) (f : RingFrame), exec (.bwDelayRespFrame p f) s = .next (s.onRing (·.delayResp p.val f))) ∧
    (∀ (p : Fin 2), exec (.bwFrameCrcDrop p) s = .next (s.ringDrop p.val)) ∧
    (exec .bwHelloSend s = .next (s.onBw (·.helloSend))) ∧
    (exec .bwDelayReqSend s = .next (s.onBw (·.delayReqSend))) ∧
    (exec .bwPositionSend s = .next s.ringSend) ∧
    (exec .bwElectWaitExpire s = .next (s.onRing (·.elect))) ∧
    (exec .bwRootTimeout s = .next (s.onRing (·.rootTimeout))) ∧
    (∀ (p : Fin 2) (st : Fin 3), exec (.bwPortLinkChange p st) s = .next (s.ringPort p.val st.val))

/-- On a running device (no reset holds it and none is due), for every operand: the power manager decides, state entries and wakes end, a
thermal trip takes the device down, and the monitors take their samples. -/
def Obligations.PowerEventsComplete : Prop :=
  ∀ s : State, s.running →
    (∀ (c : Fin 6), exec (.powerDecision c) s = .next (s.onChan c (·.pwrDecide (s.powerView c)))) ∧
    (∀ (c : Fin 6), exec (.stateEntryDone c) s = .next (s.onUp c (·.entryDone))) ∧
    (∀ (c : Fin 6), exec (.wakeComplete c) s = .next (s.wakeEnd c)) ∧
    (exec .thermalTrip s = .next (s.deviceDown .thermal 1)) ∧
    (exec .thermalCompare s = .next (s.onMon thermalCompare)) ∧
    (∀ (mv : List Nat) (current : Nat), exec (.supplySample mv current) s = .next (s.onMon (supplySample mv current))) ∧
    (∀ (ts : List Int), exec (.tempSample ts) s = .next (s.onN (tempSample ts)))

/-- PORST# low takes any device that it does not already hold down with reset cause 0. At its end, and at the end of a thermal trip, the
device that it held starts with the fuse reading and the store that answer, and with reset cause 0 and 1; a device that it does not hold is
left as it is. -/
def Obligations.DeviceResetsAct : Prop :=
  ∀ (s : State) (fuse : Fin 3) (dev : Option StoreDev),
    (s.common.held ≠ .porst → exec .porstAssert s = .next (s.deviceDown .porst 0)) ∧
    (s.common.held = .porst → exec .porstAssert s = .next s) ∧
    (s.common.held = .porst → exec (.porstRelease fuse dev) s = .next (s.boot 0 fuse.val dev)) ∧
    (s.common.held ≠ .porst → exec (.porstRelease fuse dev) s = .next s) ∧
    (s.common.held = .thermal → exec (.thermalTripRelease fuse dev) s = .next (s.boot 1 fuse.val dev)) ∧
    (s.common.held ≠ .thermal → exec (.thermalTripRelease fuse dev) s = .next s)

/-- On a running device a well-formed READ, WRITE, STAGE, SLATE (as SLATE_BAD_ACTION where its action is none of R80), SNAPSHOT or SUBSCRIBE
of version 1 is counted, executed in its session, and answered where the port has a way to the sender; a device reset that it brings about
acts at its end (log entry 31). -/
def Obligations.KdpRequestsComplete : Prop :=
  ∀ (s : State) (d : Datagram), s.running → (kdpHeader d.payload).version = 1 →
    (kdpHeader d.payload).payloadLen = (kdpPayload d).length →
    let r := (s.onN (·.addE 32 K.KDP_RX_COUNT d.port.val 1)).inSession none d (kdpHeader d.payload) (kdpPayload d)
    let t := (s.onN (·.addE 32 K.KDP_RX_COUNT d.port.val 1)).answerTo r.1 d r.2
    (s.kdpTakes d 1 → exec (.kdpRead d) s = .next t.dueReset) ∧
    (s.kdpTakes d 2 → exec (.kdpWrite d) s = .next t.dueReset) ∧
    (s.kdpTakes d 3 → exec (.kdpStage d) s = .next t.dueReset) ∧
    (s.kdpTakes d 4 → (d.payload.getD 20 0 = 0 ∨ 4 < d.payload.getD 20 0) → exec (.slateBadAction d) s = .next t.dueReset) ∧
    (s.kdpTakes d 5 → exec (.kdpSnapshot d) s = .next t.dueReset) ∧
    (s.kdpTakes d 6 → exec (.kdpSubscribe d) s = .next t.dueReset)

/-- On a running device a request of version 1 and right length whose opcode is 0 or above 6 is counted on its port and answered with the
status BAD_OPCODE, where the port has a way to the sender; no session is opened. -/
def Obligations.KdpBadOpcodeAnswered : Prop :=
  ∀ (s : State) (d : Datagram) (op : Nat), s.running → s.kdpTakes d op → (op = 0 ∨ 6 < op) → (kdpHeader d.payload).version = 1 →
    (kdpHeader d.payload).payloadLen = (kdpPayload d).length →
    exec (.kdpBadOpcode d) s = .next
      ((s.onN (·.addE 32 K.KDP_RX_COUNT d.port.val 1)).answerTo (s.onN (·.addE 32 K.KDP_RX_COUNT d.port.val 1)) d
        (kdpAnswer (kdpHeader d.payload) (op % 128 + 128) 0 Status.badOpcode.code
          (s.onN (·.addE 32 K.KDP_RX_COUNT d.port.val 1)).common.n.gen []))

/-- On a running device a datagram to a port that is down, has address 0 or KDP_ENABLE 0, that carries a VLAN tag, IP options or is a
fragment, or whose length is below 24 or above 1,472 bytes, changes nothing; one whose MAGIC or CRC is wrong only counts in KDP_CRC_DROPS of
its port. -/
def Obligations.KdpDropsWithoutAnswer : Prop :=
  ∀ (s : State) (d : Datagram), s.running →
    ((s.kdpUp d.port.val = false ∨ d.vlan = true ∨ d.ipOptions = true ∨ d.fragment = true ∨ d.payload.length < 24 ∨ 1472 < d.payload.length) →
      exec (.kdpRead d) s = .next s ∧ exec (.kdpWrite d) s = .next s ∧ exec (.kdpStage d) s = .next s ∧ exec (.kdpSnapshot d) s = .next s ∧
      exec (.kdpSubscribe d) s = .next s ∧ exec (.kdpBadOpcode d) s = .next s) ∧
    (s.kdpUp d.port.val = true → d.vlan = false → d.ipOptions = false → d.fragment = false → 24 ≤ d.payload.length →
      d.payload.length ≤ 1472 → (kdpMagic d.payload = false ∨ kdpCrcOk d.payload = false) →
      exec (.kdpRead d) s = .next (s.onN (·.addE 32 K.KDP_CRC_DROPS d.port.val 1)))

/-- On a running device a write that is heard by its path acts as its object names: FAILBACK and DEVIATION_RESET on the encoder block;
TB_SOURCE on the timebase; TB_SET and TB_STEP_ADJ step device time while TB_SOURCE is 0 or 3; ARM and DISARM do what their operation
accepts. -/
def Obligations.TimebaseWritesComplete : Prop :=
  ∀ s : State, s.running →
    (∀ via, s.hears (K.FAILBACK / 256) via → exec (.failback via 1) s = .next (s.onEnc failback)) ∧
    (∀ via, s.hears (K.DEVIATION_RESET / 256) via → exec (.deviationReset via 1) s = .next (s.onEnc devReference)) ∧
    (∀ via v, s.hears (K.TB_SOURCE / 256) via → v < 4 → exec (.tbSourceWrite via v) s = .next (s.onTb (tbSourceWrite v))) ∧
    (∀ via v, s.hears (K.TB_SET / 256) via → v < 2 ^ 80 → (s.common.n.num K.TB_SOURCE = 0 ∨ s.common.n.num K.TB_SOURCE = 3) → exec (.tbSet via v) s =
      .next (s.onTime fun t => (tbStep ((ofTime64 v : Nat) - (s.common.n.now : Nat)) t, some ((ofTime64 v : Nat) - (s.common.n.now : Nat))))) ∧
    (∀ via v, s.hears (K.TB_STEP_ADJ / 256) via → -(2 ^ 63 : Int) ≤ v → v < (2 ^ 63 : Int) → (s.common.n.num K.TB_SOURCE = 0 ∨ s.common.n.num
      K.TB_SOURCE = 3) → exec (.tbStepAdj via v) s = .next (s.onTime fun t => (tbStep (v * 65536) t, some (v * 65536)))) ∧
    (∀ via (e : Fin 64) t, s.hears (K.TA_CTRL / 256 + e.val) via → s.taArm e.val = (.ok, t) → exec (.taArm via e) s = .next t) ∧
    (∀ via (e : Fin 64) t, s.hears (K.TA_CTRL / 256 + e.val) via → s.taDisarm e.val = (.ok, t) → exec (.taDisarm via e) s = .next t)

/-- On a running device a write that is heard by its path names a Slate where the naming is accepted, cancels the pending Slate on a device
that is no ring member, discards every staged entry, or sets an automatic period where it is accepted. -/
def Obligations.SlateControlWritesComplete : Prop :=
  ∀ s : State, s.running →
    (∀ via v b t, s.hears (K.SLATE_NAME_POS / 256) via → v < 2 ^ 64 → s.namePos (toSigned 64 v) = (.ok, b, t) →
      exec (.slateNamePos (.write via v)) s = .next t) ∧
    (∀ via v b t, s.hears (K.SLATE_NAME_TIME / 256) via → v < 2 ^ 80 → s.nameTime (ofTime64 v) = (.ok, b, t) →
      exec (.slateNameTime (.write via v)) s = .next t) ∧
    (∀ via, s.hears (K.SLATE_CANCEL / 256) via → s.ring.bound = false → exec (.slateCancel (.write via 1)) s =
      .next (s.modSlate fun q => { q with pending := .none })) ∧
    (∀ via, s.hears (K.STAGE_DISCARD / 256) via → exec (.stageDiscard (.write via 1)) s = .next s.discard) ∧
    (∀ via v t, s.hears (K.AUTO_PERIOD_POS / 256) via → v < 2 ^ 64 → s.autoWrite K.AUTO_PERIOD_POS v = (.ok, t) →
      exec (.autoPeriodPosWrite via v) s = .next t) ∧
    (∀ via v t, s.hears (K.AUTO_PERIOD_TIME / 256) via → (v = 0 ∨ (1000000 ≤ v ∧ v < 2 ^ 47)) → s.autoWrite K.AUTO_PERIOD_TIME v = (.ok, t) →
      exec (.autoPeriodTimeWrite via v) s = .next t)

/-- On a running device a well-formed KDP SLATE request of ACTION 01h to 04h is counted, executed in its session, and answered where the
port has a way to the sender. -/
def Obligations.KdpSlateRequestsComplete : Prop :=
  ∀ (s : State) (d : Datagram), s.running → s.kdpTakes d 4 → (kdpHeader d.payload).version = 1 →
    (kdpHeader d.payload).payloadLen = (kdpPayload d).length →
    let r := (s.onN (·.addE 32 K.KDP_RX_COUNT d.port.val 1)).inSession none d (kdpHeader d.payload) (kdpPayload d)
    let t := (s.onN (·.addE 32 K.KDP_RX_COUNT d.port.val 1)).answerTo r.1 d r.2
    (d.payload.getD 20 0 = 1 → exec (.slateNamePos (.kdp d)) s = .next t.dueReset) ∧
    (d.payload.getD 20 0 = 2 → exec (.slateNameTime (.kdp d)) s = .next t.dueReset) ∧
    (d.payload.getD 20 0 = 3 → exec (.slateCancel (.kdp d)) s = .next t.dueReset) ∧
    (d.payload.getD 20 0 = 4 → exec (.stageDiscard (.kdp d)) s = .next t.dueReset)

/-- On a running device a write that is heard by its path starts the store write it names where the store takes one, captures the trims,
starts or aborts a calibration run, saves or loads a bank where accepted, marks the logbook, moves BUF_RD, clears the monitor peaks or sets
the ring role. -/
def Obligations.StoreLogAndRingWritesComplete : Prop :=
  ∀ s : State, s.running →
    (∀ via, s.hears (K.PERSIST_SAVE / 256) via → storeReject s.common.n = none → exec (.persistSave via 1) s = .next (s.onCal (storeStart 0
      s.persistItems))) ∧
    (∀ via, s.hears (K.PERSIST_CLEAR / 256) via → storeReject s.common.n = none → exec (.persistClear via 1) s = .next (s.onCal (storeStart 0 []))) ∧
    (∀ via, s.hears (K.TRIM_SAVE / 256) via → storeReject s.common.n = none → exec (.trimSave via) s = .next (s.onCal (storeStart 1
      (workingImage s.common.n)))) ∧
    (∀ via, s.hears (K.TRIM_CAPTURE / 256) via → exec (.trimCapture via) s = .next s.trimCaptureAct) ∧
    (∀ via t, s.hears (K.CAL_CTRL / 256) via → s.calCtrl 1 = (.ok, t) → exec (.calStart via) s = .next t) ∧
    (∀ via t, s.hears (K.CAL_CTRL / 256) via → s.calCtrl 2 = (.ok, t) → exec (.calAbort via) s = .next t) ∧
    (∀ via v t, s.hears (K.PIX_SAVE / 256) via → v < 6 → s.pixSave v = (.ok, t) → exec (.pixSave via v) s = .next t) ∧
    (∀ via v t, s.hears (K.PIX_LOAD / 256) via → v < 6 → s.pixLoadAct v = (.ok, t) → exec (.pixLoad via v) s = .next t) ∧
    (∀ via v, s.hears (K.LOG_MARK / 256) via → v < 2 ^ 32 → exec (.logMark via v) s = .next (s.onN (·.event 0x300 v))) ∧
    (∀ via v, s.hears (K.BUF_RD / 256) via → v < 2 ^ 16 → v % 64 = 0 → exec (.bufRdWrite via v) s = .next (s.onLog (bufRd v))) ∧
    (∀ via, s.hears (K.MON_CLEAR / 256) via → exec (.monClear via) s = .next (s.onN monClear)) ∧
    (∀ via v, s.hears (K.BW_ROLE / 256) via → v < 3 → exec (.bwRoleWrite via v) s = .next (s.onRing (·.roleWrite v)))

/-- On a running device a write that is heard by its path wakes a channel, resets it or takes its reset cause away, resets the device, gives
a network port its address, or releases the writers it names where all of those functions are bus masters. -/
def Obligations.PowerAndPortWritesComplete : Prop :=
  ∀ s : State, s.running →
    (∀ via (c : Fin 6), s.hears (K.PWR_WAKE / 256) via → exec (.pwrWake via c) s =
      .next ((s.onUp c Chan.pwrWakeWrite).segmentEnd K.PWR_WAKE)) ∧
    (∀ via (c : Fin 6), s.hears (K.CH_RESET / 256) via → exec (.chResetAssert via c) s =
      .next (((s.onN (·.putE K.CH_RESET c.val 1)).chanReset c).segmentEnd K.CH_RESET)) ∧
    (∀ via (c : Fin 6), s.hears (K.CH_RESET / 256) via → exec (.chResetRelease via c) s =
      .next (((s.onN (·.putE K.CH_RESET c.val 0)).chanRelease c).segmentEnd K.CH_RESET)) ∧
    (∀ via, s.hears (K.DEVICE_RESET / 256) via → exec (.deviceReset via) s =
      .next (State.dueReset { s with common := { s.common with resetDue := true } })) ∧
    (∀ via (p : Fin 2) ip t, s.hears (K.NET_IPV4_ADDR / 256) via → ip < 2 ^ 32 → (s.common.n.elems K.NET_IPV4_ADDR).length = 2 →
      s.ipWrite { vals := listPut (s.common.n.elems K.NET_IPV4_ADDR) p.val ip, lo := p.val, hi := p.val + 1 } = (.ok, t) →
      exec (.netIpv4AddrWrite via p ip) s = .next (t.segmentEnd K.NET_IPV4_ADDR)) ∧
    (∀ via (data : List Nat) t, s.hears (K.WRITER_RELEASE / 256) via → data.length = 7 → (∀ x ∈ data, x < 2) →
      s.writerRelease { vals := data } = (.ok, t) → exec (.writerRelease via none data) s = .next t)

/-- On a running device, for a channel in Run that takes the write: register accesses start where none runs, control packets go out or are
popped, a sensor temperature is taken, and lane roles, widths and speeds are set where accepted, links falling and starting again. -/
def Obligations.InputWritesComplete : Prop :=
  ∀ s : State, s.running →
    (∀ via (c : Fin 6) x, s.open_ via c K.BL_REG_CMD → (s.chan c).regCmdWrite 1 = (.ok, x) → exec (.blRegRead via c) s =
      .next (s.wrote c K.BL_REG_CMD [1] x)) ∧
    (∀ via (c : Fin 6) x, s.open_ via c K.BL_REG_CMD → (s.chan c).regCmdWrite 2 = (.ok, x) → exec (.blRegWrite via c) s =
      .next (s.wrote c K.BL_REG_CMD [2] x)) ∧
    (∀ via (c : Fin 6) p, s.open_ via c K.CXP_CTRL_TX → p.length ≤ 1024 → (∀ b ∈ p, b < 256) → exec (.cxpCtrlTx via c p) s =
      .next (s.wrote c K.CXP_CTRL_TX p ((s.chan c).cxpSend p))) ∧
    (∀ via (c : Fin 6), s.open_ via c K.CXP_CTRL_POP → exec (.cxpCtrlPop via c 1) s =
      .next (s.wrote c K.CXP_CTRL_POP [1] (s.chan c).cxpPop)) ∧
    (∀ via (c : Fin 6) (h : Fin 4) t, s.open_ via c (ik K.SENSOR_TEMP_SET h.val) → exec (.sensorTempSet via c h t) s =
      .next (s.wrote c (ik K.SENSOR_TEMP_SET h.val) [toBits 16 t] ((s.chan c).sensorTempSet h.val (toBits 16 t)))) ∧
    (∀ via (c : Fin 6) v x, s.open_ via c K.LANE_ROLE → v.length = 8 → (∀ r ∈ v, r < 4) → (s.chan c).laneConfigWrite K.LANE_ROLE { vals := v } =
      (.ok, x) →
      exec (.laneConfigWrite via c .role v) s =
      .next (s.wrote c K.LANE_ROLE v x)) ∧
    (∀ via (c : Fin 6) v x, s.open_ via c K.LK_LINK_WIDTH → v.length = 8 → (∀ r ∈ v, r < 256) → (s.chan c).laneConfigWrite K.LK_LINK_WIDTH { vals :=
      v } = (.ok, x) →
      exec (.laneConfigWrite via c .width v) s =
      .next (s.wrote c K.LK_LINK_WIDTH v x)) ∧
    (∀ via (c : Fin 6) v x, s.open_ via c K.CXP_SPEED → v.length = 8 → (∀ r ∈ v, r ∈ [1, 2, 3, 5, 6, 10, 12]) →
      (s.chan c).laneConfigWrite K.CXP_SPEED { vals := v } = (.ok, x) → exec (.laneConfigWrite via c .speed v) s =
      .next (s.wrote c K.CXP_SPEED v x))

/-- On a running device a heard write of a camera lane (its channel in Run and taking it) or of a duplex lane sets the adaptation mode, the
lane test, the transmit equaliser within its limits, clears the PRBS counts, and starts or aborts an eye scan where accepted. -/
def Obligations.LaneWritesComplete : Prop :=
  ∀ s : State, s.running →
    (∀ via (c : Fin 6) (l : Fin 8) v, s.open_ via c (K.ADAPT_MODE + 256 * l.val) → v < 3 →
      exec (.adaptModeWrite via (.camera c l) v) s = .next (s.wrote c (K.ADAPT_MODE + 256 * l.val) [v] ((s.chan c).adaptModeWrite l.val v).2)) ∧
    (∀ via (d : Fin 6) v, s.hears (0x21F0 + d.val) via → v < 3 → exec (.adaptModeWrite via (.duplex d) v) s = .next (s.duplexPins (s.duplexAdapt
      d.val v).2)) ∧
    (∀ via (c : Fin 6) (l : Fin 8) v, s.open_ via c (K.LANE_TEST + 256 * l.val) → v < 3 →
      exec (.laneTestWrite via (.camera c l) v) s = .next (s.wrote c (K.LANE_TEST + 256 * l.val) [v] ((s.chan c).laneTestWrite l.val v).2)) ∧
    (∀ via (d : Fin 6) v, s.hears (0x21F0 + d.val) via → v < 5 → exec (.laneTestWrite via (.duplex d) v) s = .next (s.duplexPins (s.duplexTest d.val
      v).2)) ∧
    (∀ via (c : Fin 6) (l : Fin 8), s.open_ via c (0x81801C + 256 * l.val) → exec (.prbsClear via (.camera c l) 1) s =
      .next (s.wrote c (0x81801C + 256 * l.val) [1] ((s.chan c).mapN (lanePrbsClear (0x818000 + 256 * l.val))))) ∧
    (∀ via (d : Fin 6), s.hears (0x21F0 + d.val) via → exec (.prbsClear via (.duplex d) 1) s = .next (s.duplexPins (s.onN (lanePrbsClear (duplexKey
      d.val))))) ∧
    (∀ via (d : Fin 6) (pre main post : Fin 256), s.hears (0x21F0 + d.val) via → txFirOk [pre.val, main.val, post.val] = true →
      exec (.txFirWrite via d pre main post) s = .next (s.duplexPins (s.onN (·.put (duplexKey d.val + 0x21) [pre.val, main.val, post.val])))) ∧
    (∀ via (c : Fin 6) x, s.open_ via c 0x818909 → (s.chan c).scanCtrl 1 = (.ok, x) → exec (.scanStart via (.camera c)) s =
      .next (s.wrote c 0x818909 [1] x)) ∧
    (∀ via (c : Fin 6) x, s.open_ via c 0x818909 → (s.chan c).scanCtrl 2 = (.ok, x) → exec (.scanAbort via (.camera c)) s =
      .next (s.wrote c 0x818909 [2] x)) ∧
    (∀ via t, s.hears 0x21F8 via → s.duplexScan 1 = (.ok, t) → exec (.scanStart via .duplex) s = .next (s.duplexPins t)) ∧
    (∀ via t, s.hears 0x21F8 via → s.duplexScan 2 = (.ok, t) → exec (.scanAbort via .duplex) s = .next (s.duplexPins t))

/-- On a running device, for a channel in Run that takes the write: snapshots start where none is pending, strike outputs are enabled or
cleared with their cues, the recorder freezes and is released outside Retake, Retake starts where accepted, aborts and exits, and a check
unit runs its test string. -/
def Obligations.DefectWritesComplete : Prop :=
  ∀ s : State, s.running →
    (∀ via (c : Fin 6) x, s.open_ via c K.OPEN_SNAP → (s.chan c).openSnapWrite = (.ok, x) → exec (.openSnap via c) s =
      .next (s.wrote c K.OPEN_SNAP [1] x)) ∧
    (∀ via (c : Fin 6) v, s.open_ via c K.STK_ENABLE → v < 256 → exec (.stkEnableWrite via c v) s =
      .next (s.wrote c K.STK_ENABLE [v % 16] ((s.chan c).strikeEnable (v % 16)))) ∧
    (∀ via (c : Fin 6) x, s.open_ via c K.CUE_SNAP → (s.chan c).cueSnapWrite = (.ok, x) → exec (.cueSnap via c) s =
      .next (s.wrote c K.CUE_SNAP [1] x)) ∧
    (∀ via (c : Fin 6), s.open_ via c K.FREEZE_NOW → exec (.freezeNow via c) s =
      .next (s.wrote c K.FREEZE_NOW [1] ((s.chan c).freeze 0))) ∧
    (∀ via (c : Fin 6), s.open_ via c K.FREEZE_RELEASE → (s.chan c).n.num K.RETAKE_STATE = 0 → exec (.freezeRelease via c) s =
      .next (s.wrote c K.FREEZE_RELEASE [1] (s.chan c).freezeRelease)) ∧
    (∀ via (c : Fin 6) x, s.open_ via c K.RETAKE_CTRL → (s.chan c).retakeCtrl 1 = (.ok, x) → exec (.retakeStart via c) s =
      .next (s.wrote c K.RETAKE_CTRL [1] x)) ∧
    (∀ via (c : Fin 6), s.open_ via c K.RETAKE_CTRL → exec (.retakeAbort via c) s =
      .next (s.wrote c K.RETAKE_CTRL [2] (s.chan c).retakeAbort)) ∧
    (∀ via (c : Fin 6), s.open_ via c K.RETAKE_CTRL → exec (.retakeExit via c) s =
      .next (s.wrote c K.RETAKE_CTRL [3] (s.chan c).retakeExit)) ∧
    (∀ via (c : Fin 6) (k : Fin 8), s.open_ via c (ik K.K_TEST k.val) → exec (.kTest via c k) s =
      .next (s.wrote c (ik K.K_TEST k.val) [1] ((s.chan c).kTest k.val)))

/-- On a running device, for a channel in Run that takes the write: self-refresh is entered and left for a test, the other timing set is
switched to from READY or SELF_REFRESH where its rate is supported, training starts in READY and FAILED, the neighbour-refresh generator is
seeded, and an object of the inactive timing set is written, whole or in a segment, its SET_TRAINED cleared. -/
def Obligations.MemoryWritesComplete : Prop :=
  ∀ s : State, s.running →
    (∀ via (c : Fin 6), s.open_ via c K.SR_TEST → exec (.srTestEnter via c) s =
      .next (s.wrote c K.SR_TEST [1] ((s.chan c).srCause .test))) ∧
    (∀ via (c : Fin 6), s.open_ via c K.SR_TEST → exec (.srTestLeave via c) s =
      .next (s.wrote c K.SR_TEST [2] ((s.chan c).srEnd .test))) ∧
    (∀ via (c : Fin 6), s.open_ via c K.FREQ_SWITCH → (s.chan c).rateOk (1 - (s.chan c).n.num K.ACTIVE_SET) = true → ((s.chan c).memState = 2 ∨
      (s.chan c).memState = 4) →
      exec (.freqSwitch via c) s =
      .next (s.wrote c K.FREQ_SWITCH [1] (s.chan c).freqStart)) ∧
    (∀ via (c : Fin 6), s.open_ via c K.MEM_TRAIN → ((s.chan c).memState = 2 ∨ (s.chan c).memState = 7) → exec (.memTrain via c) s =
      .next (s.wrote c K.MEM_TRAIN [1] (s.chan c).trainStart)) ∧
    (∀ via (c : Fin 6) v, s.open_ via c K.NBR_SEED → 1 ≤ v → v < 2 ^ 32 → exec (.nbrSeedWrite via c v) s =
      .next (s.wrote c K.NBR_SEED [v] (Chan.modMc ((s.chan c).mapN (·.putN K.NBR_SEED v)) fun m => { m with lfsr := v }))) ∧
    (∀ via (c : Fin 6) (a : Fin 2) (k : Fin 256) row data w, s.open_ via c (setKey a.val k.val) → k.val ≠ 0 → objInfo (setKey a.val k.val) = some row
      →
      row.acc = .rw → row.incoming [] none data = .ok w → a.val ≠ (s.chan c).n.num K.ACTIVE_SET →
      exec (.timingSetWrite via c a k none data) s =
      .next (s.wrote c (setKey a.val k.val) w.vals ((s.chan c).mapN fun n => (n.put (setKey a.val k.val) w.vals).putN (setKey a.val 5) 0))) ∧
    (∀ via (c : Fin 6) (a : Fin 2) (k : Fin 256) row o m data w, s.open_ via c (setKey a.val k.val) → k.val ≠ 0 →
      objInfo (setKey a.val k.val) = some row → row.acc = .rw →
      row.incoming (s.valueBytes ⟨some c, setKey a.val k.val, row⟩) (some ⟨o, m⟩) data = .ok w → a.val ≠ (s.chan c).n.num K.ACTIVE_SET →
      exec (.timingSetWrite via c a k (some (o, m)) data) s =
      .next ((s.wrote c (setKey a.val k.val) w.vals ((s.chan c).mapN fun n => (n.put (setKey a.val k.val) w.vals).putN (setKey a.val 5)
        0)).setOpenDirect
        ⟨some c, setKey a.val k.val, row⟩ m))

/-- On a running device, for a channel in Run that takes the write: a job of 64 bytes is queued where the queue has room, jobs are aborted,
a thread starts where it may, pauses or resumes, DMA_ENABLE drops the threads it turns off, and a doorbell takes its value. -/
def Obligations.TransferWritesComplete : Prop :=
  ∀ s : State, s.running →
    (∀ via (c : Fin 6) d x, s.open_ via c K.CMP_SUBMIT → d.length = 64 → (∀ b ∈ d, b < 256) → (s.chan c).cmpSubmit d = some x → exec (.cmpSubmit via
      c d) s =
      .next (s.wrote c K.CMP_SUBMIT d x)) ∧
    (∀ via (c : Fin 6), s.open_ via c K.CMP_ABORT → exec (.cmpAbortRunning via c) s =
      .next (s.wrote c K.CMP_ABORT [1] ((s.chan c).cmpAbort false))) ∧
    (∀ via (c : Fin 6), s.open_ via c K.CMP_ABORT → exec (.cmpAbortAll via c) s =
      .next (s.wrote c K.CMP_ABORT [2] ((s.chan c).cmpAbort true))) ∧
    (∀ via (c : Fin 6) (i : Fin 8) x, s.open_ via c (ik K.THREAD_CTRL i.val) → (s.chan c).threadStart i.val = some x → exec (.threadStart via c i) s =
      .next (s.wrote c (ik K.THREAD_CTRL i.val) [1] x)) ∧
    (∀ via (c : Fin 6) (i : Fin 8), s.open_ via c (ik K.THREAD_CTRL i.val) → exec (.threadPause via c i) s =
      .next (s.wrote c (ik K.THREAD_CTRL i.val) [2] ((s.chan c).threadPause i.val))) ∧
    (∀ via (c : Fin 6) (i : Fin 8), s.open_ via c (ik K.THREAD_CTRL i.val) → exec (.threadResume via c i) s =
      .next (s.wrote c (ik K.THREAD_CTRL i.val) [3] ((s.chan c).threadResume i.val))) ∧
    (∀ via (c : Fin 6) v, s.open_ via c K.DMA_ENABLE → v < 256 → exec (.dmaEnableWrite via c v) s =
      .next (s.wrote c K.DMA_ENABLE [v] ((s.chan c).dmaEnable v))) ∧
    (∀ via (c : Fin 6) (i : Fin 8) v, s.open_ via c (ik K.DOORBELL i.val) → v < 2 ^ 32 → exec (.doorbellWrite via c i v) s =
      .next (s.wrote c (ik K.DOORBELL i.val) [v] ((s.chan c).mapN (·.put (ik K.DOORBELL i.val) [v]))))

/-- On a running device, for a channel in Run that takes the write and a bank that is neither in use nor named by a staged write: the bank
takes the whole value or the segment, the write is journaled, and the bank is no longer prepared. -/
def Obligations.BankWritesComplete : Prop :=
  ∀ (s : State) (via : Via) (c : Fin 6) (b : Fin 2) (row : ObjInfo) (data : List Nat) (w : Written),
    let k := if b = 0 then K.CORR_BANK0 else K.CORR_BANK1
    s.open_ via c k → objInfo k = some row → (s.chan c).bankInUse b.val = false → (s.chan c).bankStaged b.val = false →
    (row.incoming [] none data = .ok w → exec (.corrBankWrite via c b none data) s =
      .next ((s.wrote c k w.vals ((s.chan c).mapN (·.put k w.vals))).mapN (putPrepared c.val false))) ∧
    (∀ o m, row.incoming (s.valueBytes ⟨some c, k, row⟩) (some ⟨o, m⟩) data = .ok w →
      exec (.corrBankWrite via c b (some (o, m)) data) s =
      .next (((s.wrote c k w.vals ((s.chan c).mapN (·.put k w.vals))).mapN (putPrepared c.val false)).setOpenDirect ⟨some c, k, row⟩ m))

/-- On a running device whose function answers on its BARs: a slot write that covers the whole scalar, a large-object window write and a
register write that the object accepts leave what the accepted write leaves; a register write by any path, of any object that accepts it,
does the same. A device reset that it brings about acts at its end (log entry 31). -/
def Obligations.BarWritesComplete : Prop :=
  ∀ s : State, s.running →
    (∀ (f : Fin 7) addr data i k p t, s.hears i (.bar f) → f.val = 0 ∨ addr < 2 ^ 24 → 0x200000 ≤ addr → slotAt f addr = some (i, k, 0) →
      place i k = some p → p.row.isScalar = true → p.row.ty.size ≤ data.length → (data.length = 4 ∨ data.length = 8) → addr % data.length = 0 →
      0 < p.row.ty.size → s.barEffect none p none (data.take p.row.ty.size) = (.ok, t) →
      exec (.barSlotWrite f addr data) s = .next t.dueReset) ∧
    (∀ (f : Fin 7) (off : Fin 1048576) data i k p base t, s.hears i (.bar f) → s.windowOf f = (some p, base, i, k) →
      s.barEffect none p (some { off := base + off.val, more := (s.fnNode f).fn.lowMore }) data = (.ok, t) →
      exec (.largeObjectWindowWrite f off data) s = .next t.dueReset) ∧
    (∀ via i k seg data p t, s.hears i via → place i k = some p →
      s.barEffect none p (seg.map fun x => { off := x.1, more := x.2 }) data = (.ok, t) →
      exec (.registerWrite (.object via i k seg data)) s = .next t.dueReset) ∧
    (∀ (f : Fin 7) b addr data, exec (.registerWrite (.bar f b addr data)) s = .next (s.barWrite none f b addr data).dueReset) ∧
    (∀ i, s.hears i (.bar 0) → exec .mailboxGo s = .next (s.mailboxGo none).dueReset) ∧
    (∀ (c : Fin 6) r, exec (.dictChannelTimeout c r) s = .next (s.dictRequest (some c) r).dueReset)

/-- On a running device, for PF0 or for a channel function whose channel is in Run, whose function answers on its BARs: COMPLETE ends the
source it names, SRC_CFG sets a source up, GCTRL enables or disables delivery, and SWI_SET makes its software sources occur. -/
def Obligations.ControllerWritesComplete : Prop :=
  ∀ (s : State) (f : Fin 7), s.running → s.linkUp = true → (s.fnNode f).fn.flr = false → (s.fnNode f).fn.memEnable = true →
    (s.fnNode f).fn.d3hot = false → s.bar2Asleep f = false →
    (∀ v, v < 2 ^ 32 → exec (.complete f v) s = .next (s.onFn f (·.complete (v % 1024)))) ∧
    (∀ (src : Fin 256) v, v < 2 ^ 32 → exec (.srcCfgWrite f src v) s = .next (s.onFn f (·.srcCfgWrite src.val v))) ∧
    (∀ v, v < 2 ^ 32 → exec (.gctrlWrite f v) s = .next (s.onFn f fun n => n.putN (n.icKey 1) (v % 2))) ∧
    (∀ v, v < 2 ^ 32 → exec (.swiSet f v) s = .next (s.onFn f (·.swiSet (v % 256))))

/-- An item whose object’s channel is in reset or does not answer ends with CHANNEL_DOWN or TIMEOUT and changes nothing but that a sleeping
channel is woken. Any other direct write item of an RS object is rejected with ACCESS, and so is a staged item of an object that is not RS;
neither changes more than that a sleeping channel is woken. A write through a BAR of an RS object is a staged write, and one of an RW, WO or
W1C object a direct one. (R62) -/
def Obligations.AccessCodesDecideThePath : Prop :=
  ∀ (s : State) (mute : Option (Fin 6)) (p : Place) (seg : Option Segment) (data : List Nat),
    (∀ st, s.reach mute p = .error st → s.writeItem mute p seg data = (st, s.wakeFor p) ∧ s.stageItem mute p seg data = (st, s.wakeFor p)) ∧
    (∀ t, s.reach mute p = .ok t → p.row.acc = .rs → s.writeItem mute p seg data = (.access, t)) ∧
    (∀ t, s.reach mute p = .ok t → p.row.acc ≠ .rs → s.stageItem mute p seg data = (.access, t)) ∧
    (p.row.acc = .rs → s.barEffect mute p seg data = s.stageItem mute p seg data) ∧
    (p.row.acc = .rw ∨ p.row.acc = .wo ∨ p.row.acc = .w1c → s.barEffect mute p seg data = s.writeItem mute p seg data)

/-- On a running device a write item of an object of the common block or of a channel that answers whose access is RO or CONST leaves the
state as it is when it comes by KDP; through a BAR that holds the object it only records ACCESS in BAR_ERR and raises the function’s source.
-/
def Obligations.ReadOnlyObjectsKeepTheirValue : Prop :=
  ∀ (s : State) (i k : Nat) (seg : Option (Nat × Bool)) (data : List Nat) (p : Place), s.running → place i k = some p →
    (∀ c, p.chan = some c → (s.chan c).answers) → (p.row.acc = .ro ∨ p.row.acc = .const) →
    exec (.registerWrite (.object .kdp i k seg data)) s = .next s ∧
    (∀ f, s.hears i (.bar f) → exec (.registerWrite (.object (.bar f) i k seg data)) s = .next (s.barReject f i k .access).dueReset)

/-- A staged value of an object that already has an entry takes that entry’s place: the area has as many entries as before, holds the new
value for the object, and what it holds for every other object is unchanged. A staged item whose channel is reached and whose value is in
order, but that would need an entry in a full area, is rejected with STAGING_FULL and leaves the state as it was but for a channel woken.
(R35) -/
def Obligations.StagedWritesReplaceOrAreTurnedAway : Prop :=
  (∀ (l : List Staged) (x : Staged), (stagedFind l x.key).isSome →
      (stagePut l x).length = l.length ∧ stagedFind (stagePut l x) x.key = some x ∧
      ∀ k, k ≠ x.key → stagedFind (stagePut l x) k = stagedFind l k) ∧
    (∀ (s : State) (mute : Option (Fin 6)) (p : Place) (seg : Option Segment) (data : List Nat) (t : State) (e : Staged),
      s.reach mute p = .ok t → t.stageCheck p seg data = .ok e →
      stageFull (t.stagedOf p.chan) p.key = true → s.stageItem mute p seg data = (.stagingFull, t))

/-- A source is eligible when it is pending, enabled and not active. A source wins a vector exactly when it is an eligible source of the
controller routed to that vector and every other such source has a lower priority, or the same priority and a higher number; a vector has no
winner exactly when it has no eligible source. (R465) -/
def Obligations.WinnerIsTheHighestPriorityThenTheLowestNumber : Prop :=
  ∀ n : Node,
    (∀ x, n.eligible x = true ↔ n.pending x = true ∧ (n.src x).enable = true ∧ (n.src x).active = false) ∧
    (∀ v w, n.winner v = some w ↔
      (1 ≤ w ∧ w ≤ n.sources ∧ n.eligible w = true ∧ (n.src w).vec = v) ∧
      ∀ x, 1 ≤ x → x ≤ n.sources → n.eligible x = true → (n.src x).vec = v → x ≠ w →
        (n.src x).prio < (n.src w).prio ∨ ((n.src x).prio = (n.src w).prio ∧ w < x)) ∧
    (∀ v, n.winner v = none ↔ ∀ x, 1 ≤ x → x ≤ n.sources → n.eligible x = true → (n.src x).vec ≠ v)

/-- Whether or not the source is enabled, active or the controller globally disabled: one occurrence adds one to COUNT, which saturates at
255, an edge source is pending afterwards, and ENABLE, ACTIVE, PRIORITY and VECTOR of every source stay as they are. -/
def Obligations.OccurrencesCountWhateverIsEnabled : Prop :=
  ∀ (n : Node) (x : Nat),
    ((n.occur x).src x).count = min 255 ((n.src x).count + 1) ∧
    (n.level x = none → (n.occur x).pending x = true) ∧
    (∀ y, y ≠ x → (n.occur x).src y = n.src y) ∧
    ((n.occur x).src x).enable = (n.src x).enable ∧ ((n.occur x).src x).active = (n.src x).active ∧
    ((n.occur x).src x).prio = (n.src x).prio ∧ ((n.occur x).src x).vec = (n.src x).vec

/-- The order of two 32-bit generations is their difference read as a signed 32-bit number; the order of two times is the difference of
their low 48 bits read as a signed 48-bit number. -/
def Obligations.OrderOfWrappingQuantities : Prop :=
  (∀ a b : BitVec 32, genOrder a.toNat b.toNat = (b - a).toInt) ∧
    (∀ a b : BitVec 64, timeOrder48 (a.toNat % 2 ^ 48) (b.toNat % 2 ^ 48) = ((b - a).truncate 48).toInt)

/-- The n bytes of a value below 256^n are n bytes, the first the least significant, and read back as the value. -/
def Obligations.BytesRoundTrip : Prop :=
  ∀ n v : Nat, v < 256 ^ n → (leBytes n v).length = n ∧ (∀ i, i < n → (leBytes n v).getD i 0 = v / 256 ^ i % 256) ∧ ofLe (leBytes n v) = v

/-- On a running device, after a time update every channel holds the device time of the common block. -/
def Obligations.ChannelsTakeTheTime : Prop :=
  ∀ s t : State, s.running → exec .timeBroadcastUpdate s = .next t → ∀ c, (t.chan c).n.now = t.common.n.now

/-- With 64 sessions held, a request that belongs to none of them is answered with BUSY and leaves the state as it was; sessions whose idle
time has run out are removed, the others stay. -/
def Obligations.SessionsAreBounded : Prop :=
  (∀ (s : State) (d : Datagram) (h : KdpHeader) (payload : List Nat),
      64 ≤ s.common.server.sessions.length → (∀ x ∈ s.common.server.sessions, sessionIs d.srcIp d.srcPort h.session x = false) →
      s.inSession none d h payload = (s, kdpAnswer h (answerOp h) 0 Status.busy.code s.common.n.gen [])) ∧
    (∀ s : State, s.running → ∃ t, exec .kdpSessionExpire s = .next t ∧
      t.common.server.sessions = s.common.server.sessions.filter fun x => decide (s.common.n.mono < x.last + s.idleTicks))

/-- In mode 3 every change of one of A and B counts +1 along the positive sequence and −1 against it, in mode 2 only 00-10 and 11-01, in
mode 1 only 00-10, in mode 0 nothing; a change of both is illegal; in modes 4 and 5 the rising edges count with the signs of the table. An
edge counted by an encoder whose ENC_POLARITY bit 3 is set has the opposite sign. -/
def Obligations.QuadratureCountsInThePositiveSequence : Prop :=
  (∀ a b a1 b1 : Bool, edgeKind 0 a b a1 b1 = .none) ∧
    (∀ m, m = 1 ∨ m = 2 ∨ m = 3 →
      (edgeKind m false false true false = .count 1 ∧ edgeKind m true false false false = .count (-1)) ∧
      (edgeKind m true false true true = if m = 3 then .count 1 else .none) ∧
      (edgeKind m true true true false = if m = 3 then .count (-1) else .none) ∧
      (edgeKind m true true false true = if m = 1 then .none else .count 1) ∧
      (edgeKind m false true true true = if m = 1 then .none else .count (-1)) ∧
      (edgeKind m false true false false = if m = 3 then .count 1 else .none) ∧
      (edgeKind m false false false true = if m = 3 then .count (-1) else .none) ∧
      (∀ a b, edgeKind m a b a b = .none ∧ edgeKind m a b (!a) (!b) = .illegal)) ∧
    (∀ b, edgeKind 4 false b true b = .count (if b then 1 else -1) ∧ edgeKind 4 true b false b = .none ∧
      edgeKind 5 false b true b = .count 1 ∧ edgeKind 5 b false b true = .count (-1)) ∧
    (∀ (i : Nat) (a b : Bool) (held : Nat × Nat) (cycle : Nat) (x : EncNode) (d : Int), (encEdge i a b held cycle x).2 = some d →
      edgeKind (x.1.num (encKey i 1)) (x.2.enc i).a (x.2.enc i).b (encLevel x.1 i 0 held.1 a (x.2.enc i).a) (encLevel x.1 i 1 held.2 b (x.2.enc i).b)
        = .count (if bit (x.1.num (encKey i 3)) 3 then -d else d))

/-- A request of a controller that serves whose range goes beyond its capacity (MEM_CAPACITY, or while it trains that of the
configuration it trains) leaves the memory as it was and is answered with status ADDR, a read with zeros; ADDR_ERR_COUNT rises by one,
ADDR_ERR is set, with it source 122 of a channel pending, and ADDR_ERR_ADDR takes the address unless ADDR_ERR was already set. -/
def Obligations.WritersOutOfCapacityAreRefused : Prop :=
  ∀ (c : Chan) (r : MemReq), c.memUp = true → r.len ≠ 0 → c.memSize < r.addr + r.len → r.tag < 65536 →
    (c.memGrant r).mem = c.mem ∧
    (c.memGrant r).n.out = .memResp c.num r.tag 1 (if r.write then [] else zeros r.len) :: (c.memBadAddr r.addr).n.out ∧
    (c.memGrant r).n.num K.ADDR_ERR_COUNT = (c.n.num K.ADDR_ERR_COUNT + 1) % 2 ^ 32 ∧
    (c.memGrant r).n.bitOf K.MEM_FLAGS 1 = true ∧ (c.n.chan = true → (c.memGrant r).n.pending 122 = true) ∧
    (c.memGrant r).n.num K.ADDR_ERR_ADDR = (if c.n.bitOf K.MEM_FLAGS 1 then c.n.num K.ADDR_ERR_ADDR else r.addr)

/-- A byte written reads back as written, modulo 256; every other byte reads as before; the list of cells stays in canonical form. -/
def Obligations.MemoryReadsBackWhatWasWritten : Prop :=
  ∀ (m : List Host.Cell) (a : Nat) (bs : List Nat), memWf m = true →
    memWf (memWrite m a bs) = true ∧
    (∀ i, i < bs.length → (memGet (memWrite m a bs) (a + i)).toNat = bs.getD i 0 % 256) ∧
    (∀ b, (b < a ∨ a + bs.length ≤ b) → memGet (memWrite m a bs) b = memGet m b)

/-- A write request within the capacity of a controller that serves stores its bytes, padded with zeros to its length, at its address, and
every byte outside that range reads as before; a read request leaves the memory as it was. -/
def Obligations.GrantedWritesStoreTheirBytes : Prop :=
  ∀ (c : Chan) (r : MemReq), memWf c.mem = true → c.memUp = true → r.len ≠ 0 → r.addr + r.len ≤ c.memSize →
    (r.write = false → (c.memGrant r).mem = c.mem) ∧
    (r.write = true → ∀ b, (b < r.addr ∨ r.addr + r.len ≤ b) → memGet (c.memGrant r).mem b = memGet c.mem b) ∧
    (r.write = true → ∀ i, i < r.len → (memGet (c.memGrant r).mem (r.addr + i)).toNat = r.bytes.getD i 0 % 256)

/-- Where the record ring has room for a record, the record ends at or before the byte 64 below the read offset, so that the ring keeps 64
bytes unused and its offsets, once unequal, stay unequal by it. -/
def Obligations.RecordRingKeepsItsGap : Prop :=
  ∀ (held : Bool) (size wr rd : Nat), size % 64 = 0 → 0 < size → wr < size → rd < size → wr % 64 = 0 → rd % 64 = 0 →
    ringRoom held size wr rd 64 = true → held = false ∧ (wr + 64) % size ≠ rd

/-- A descriptor that is not of 64 bytes is rejected with RANGE and one that finds 64 jobs queued with BUSY, both without effect; another is
queued last. While a job runs, none is started. (R402) -/
def Obligations.CompressionQueueIsOrderedAndBounded : Prop :=
  ∀ (c : Chan) (d : List Nat),
    (d.length ≠ 64 → c.cmpSubmitWrite d = (.range, c)) ∧
    (d.length = 64 → 64 ≤ c.cmp.queue.length → c.cmpSubmitWrite d = (.busy, c)) ∧
    (d.length = 64 → c.cmp.queue.length < 64 → c.cmpSubmitWrite d = (.ok, c.modCmp fun m => { m with queue := m.queue ++ [{ desc := d }] })) ∧
    (∀ saved, c.cmp.job.isSome → c.cmpStart saved = c)

/-- On a running device with its link up, BUS_MASTER_DISABLE of PF0, or of the function of a channel that has nothing left to report, leaves
its Bus Master Enable clear and its writers held; no message of that function is then sent. -/
def Obligations.MasterDisableHoldsTheWriters : Prop :=
  ∀ (s t : State) (f : Fin 7), s.running → s.linkUp = true → (∀ c : Fin 6, c.val + 1 = f.val → (s.chan c).silent) →
    exec (.busMasterDisable f) s = .next t →
    (t.fnNode f).fn.busMaster = false ∧ (t.fnNode f).fn.held = true ∧ ∀ v, (t.fnNode f).msixOpen v = false

/-- After reset device time is 0, the timebase is FREE with f = 0, the Slate generation is 0, RESET_CAUSE is 0, every channel’s memory
controller is in TRAINING for set A and lists no byte, no Slate is pending and no session is open. -/
def Obligations.ResetValuesOfTheSpec : Prop :=
  State.reset.common.n.now = 0 ∧ State.reset.common.time.tb.state = .free ∧ State.reset.common.n.num K.TB_FREQ_ADJ = 0 ∧
    State.reset.common.n.gen = 0 ∧ State.reset.common.n.num K.RESET_CAUSE = 0 ∧ State.reset.common.slate.pending = .none ∧
    State.reset.common.server.sessions = [] ∧
    ∀ c, (State.reset.chan c).memState = 1 ∧ (State.reset.chan c).n.num K.ACTIVE_SET = 0 ∧ (State.reset.chan c).mem = []

/-- With fuses that read, PTP_CLOCK_ID is the EUI-64 of NET0’s MAC address: its high three octets, FFFEh, its low three octets. The
announced class is 6 LOCKED or ACQUIRING on EXTERNAL, 7 in HOLDOVER from EXTERNAL, 248 in FREE and otherwise. (R142) -/
def Obligations.PtpIdentityAndClass : Prop :=
  (∀ (st : Nat) (n : Node), st ≠ 2 → (fuseRead st n).num K.PTP_CLOCK_ID =
      (fuseRead st n).elem K.NET_MAC 0 / 2 ^ 24 * 2 ^ 40 + 0xFFFE * 2 ^ 24 + (fuseRead st n).elem K.NET_MAC 0 % 2 ^ 24) ∧
    (∀ x : TimeNode, clockClass x =
      if x.1.num K.TB_SOURCE = 2 ∧ (x.2.tb.state = .locked ∨ x.2.tb.state = .acquiring) then 6
      else if x.1.num K.TB_SOURCE = 2 ∧ x.2.tb.state = .holdover then 7 else 248)

/-- For every filter of R406, a line of whole samples of 1 or 2 bytes and 1 to 3 planes, with any line above it, comes back from the filter
and its inverse as it was. -/
def Obligations.PreFiltersAreUndone : Prop :=
  ∀ (f sb planes : Nat) (prev cur : List Nat), f ≤ 4 → (sb = 1 ∨ sb = 2) → 1 ≤ planes → planes ≤ 3 → cur.length % sb = 0 →
    (∀ b ∈ prev, b < 256) → (∀ b ∈ cur, b < 256) → (prev = [] ∨ prev.length = cur.length) →
    filtLine true f sb planes prev (filtLine false f sb planes prev cur) = cur
end

