-- ==== Sys2Proof/Laws/Frame.lean ====
section
/-!
SUPPORT. What the operations of the block leave as it is: the queue of waiting commands; the device reset that holds it; and, where no
object is written, the reset that is due. One lemma an operation.
-/

set_option Elab.async false

namespace Sys2Proof.Machine

/-- A projection that no step of a fold changes. -/
theorem foldl_const {α β γ : Type} (p : β → γ) (f : β → α → β) (h : ∀ b a, p (f b a) = p b) (l : List α) (b : β) :
    p (l.foldl f b) = p b := by
  induction l generalizing b with
  | nil => rfl
  | cons a l ih => simp [ih, h]

/-- What the parts of a command leave: the queue, the hold and the due reset. -/
abbrev State.Kept (s t : State) : Prop := t.pending = s.pending ∧ t.common.held = s.common.held ∧ t.common.resetDue = s.common.resetDue

theorem State.Kept.trans {s t u : State} (h : s.Kept t) (g : t.Kept u) : s.Kept u :=
  ⟨g.1.trans h.1, g.2.1.trans h.2.1, g.2.2.trans h.2.2⟩

theorem State.Kept.ite {s t u : State} {p : Prop} [Decidable p] (h : s.Kept t) (g : s.Kept u) : s.Kept (if p then t else u) := by
  split <;> assumption

theorem State.Kept.ite2 {s : State} {r q : Status × State} {p : Prop} [Decidable p] (h : s.Kept r.2) (g : s.Kept q.2) :
    s.Kept (if p then r else q).2 := by
  split <;> assumption

theorem foldl_frame {α : Type} (f : State → α → State) (h : ∀ s a, (f s a).pending = s.pending ∧ (f s a).common.held = s.common.held ∧
    (f s a).common.resetDue = s.common.resetDue) (l : List α) (s : State) : (l.foldl f s).pending = s.pending ∧
    (l.foldl f s).common.held = s.common.held ∧ (l.foldl f s).common.resetDue = s.common.resetDue :=
  ⟨foldl_const (·.pending) f (fun s a => (h s a).1) l s, foldl_const (·.common.held) f (fun s a => (h s a).2.1) l s,
   foldl_const (·.common.resetDue) f (fun s a => (h s a).2.2) l s⟩

theorem foldl_frame1 {α β : Type} (f : State × β → α → State × β) (h : ∀ s a, (f s a).1.pending = s.1.pending ∧
    (f s a).1.common.held = s.1.common.held ∧ (f s a).1.common.resetDue = s.1.common.resetDue) (l : List α) (s : State × β) :
    (l.foldl f s).1.pending = s.1.pending ∧
    (l.foldl f s).1.common.held = s.1.common.held ∧ (l.foldl f s).1.common.resetDue = s.1.common.resetDue :=
  ⟨foldl_const (·.1.pending) f (fun s a => (h s a).1) l s, foldl_const (·.1.common.held) f (fun s a => (h s a).2.1) l s,
   foldl_const (·.1.common.resetDue) f (fun s a => (h s a).2.2) l s⟩

theorem State.putChan_keeps (s : State) (x1 : Fin 6) (x2 : Chan) :
    (State.putChan s x1 x2).pending = s.pending ∧ (State.putChan s x1 x2).common.held = s.common.held ∧ (State.putChan s x1
      x2).common.resetDue = s.common.resetDue := by
  unfold State.putChan; grind

theorem State.mapN_keeps (s : State) (x1 : Node → Node) :
    (State.mapN s x1).pending = s.pending ∧ (State.mapN s x1).common.held = s.common.held ∧ (State.mapN s x1).common.resetDue =
      s.common.resetDue := by
  unfold State.mapN; grind

theorem State.onLogs_keeps (s : State) (x1 : LogNode → LogNode) :
    (State.onLogs s x1).pending = s.pending ∧ (State.onLogs s x1).common.held = s.common.held ∧ (State.onLogs s x1).common.resetDue =
      s.common.resetDue := by
  unfold State.onLogs; grind

theorem State.refuse1_keeps (s : State) (x1 : LogRec) :
    (State.refuse1 s x1).pending = s.pending ∧ (State.refuse1 s x1).common.held = s.common.held ∧ (State.refuse1 s x1).common.resetDue
      = s.common.resetDue := by
  unfold State.refuse1
  grind [State.onLogs_keeps]

theorem State.tidy_keeps (s : State) :
    (State.tidy s).pending = s.pending ∧ (State.tidy s).common.held = s.common.held ∧ (State.tidy s).common.resetDue =
      s.common.resetDue := by
  have hf := foldl_frame State.refuse1 State.refuse1_keeps
  unfold State.tidy
  grind [State.mapN_keeps, State.onLogs_keeps]

theorem State.onN_keeps (s : State) (x1 : Node → Node) :
    (State.onN s x1).pending = s.pending ∧ (State.onN s x1).common.held = s.common.held ∧ (State.onN s x1).common.resetDue =
      s.common.resetDue := by
  unfold State.onN
  grind [State.mapN_keeps, State.tidy_keeps]

theorem State.onBw_keeps (s : State) (x1 : BwNode → BwNode) :
    (State.onBw s x1).pending = s.pending ∧ (State.onBw s x1).common.held = s.common.held ∧ (State.onBw s x1).common.resetDue =
      s.common.resetDue := by
  unfold State.onBw
  grind [State.tidy_keeps]

theorem State.report_keeps (x0 : Fin 6) (s : State) (x2 : Signal) :
    (State.report x0 s x2).pending = s.pending ∧ (State.report x0 s x2).common.held = s.common.held ∧ (State.report x0 s
      x2).common.resetDue = s.common.resetDue := by
  unfold State.report
  grind [State.onBw_keeps, State.onN_keeps]

theorem State.putChanLog_keeps (s : State) (x1 : Fin 6) (x2 : LogPath) :
    (State.putChanLog s x1 x2).pending = s.pending ∧ (State.putChanLog s x1 x2).common.held = s.common.held ∧ (State.putChanLog s x1
      x2).common.resetDue = s.common.resetDue := ⟨rfl, rfl, rfl⟩

theorem State.shedChan_keeps (x0 : Fin 6) (s : State) :
    (State.shedChan x0 s).pending = s.pending ∧ (State.shedChan x0 s).common.held = s.common.held ∧ (State.shedChan x0
      s).common.resetDue = s.common.resetDue := by
  unfold State.shedChan
  refine ⟨?_, ?_, ?_⟩
  · rw [foldl_const (fun (b : State) => b.pending) _ (by
      intro b a; grind [State.refuse1_keeps, State.putChan_keeps, State.putChanLog_keeps])]; rfl
  · rw [foldl_const (fun (b : State) => b.common.held) _ (by
      intro b a; grind [State.refuse1_keeps, State.putChan_keeps, State.putChanLog_keeps])]; rfl
  · rw [foldl_const (fun (b : State) => b.common.resetDue) _ (by
      intro b a; grind [State.refuse1_keeps, State.putChan_keeps, State.putChanLog_keeps])]; rfl

theorem State.shedIntake_keeps (x0 : Fin 6) (s : State) :
    (State.shedIntake x0 s).pending = s.pending ∧ (State.shedIntake x0 s).common.held = s.common.held ∧ (State.shedIntake x0
      s).common.resetDue = s.common.resetDue := by
  unfold State.shedIntake
  grind [State.shedChan_keeps, State.putChan_keeps]

theorem State.startStep_keeps (s : State) :
    (State.startStep s).pending = s.pending ∧ (State.startStep s).common.held = s.common.held ∧ (State.startStep s).common.resetDue =
      s.common.resetDue := by
  unfold State.startStep
  grind [State.mapN_keeps]

theorem State.settle_keeps (s : State) (x1 : Fin 6) (x2 : Chan) :
    (State.settle s x1 x2).pending = s.pending ∧ (State.settle s x1 x2).common.held = s.common.held ∧ (State.settle s x1
      x2).common.resetDue = s.common.resetDue := by
  have hf := foldl_frame (State.report x1) (State.report_keeps x1)
  unfold State.settle
  grind [State.putChan_keeps, State.startStep_keeps, State.tidy_keeps, State.shedChan_keeps]

theorem State.onChan_keeps (s : State) (x1 : Fin 6) (x2 : Chan → Chan) :
    (State.onChan s x1 x2).pending = s.pending ∧ (State.onChan s x1 x2).common.held = s.common.held ∧ (State.onChan s x1
      x2).common.resetDue = s.common.resetDue := by
  unfold State.onChan
  grind [State.settle_keeps]

theorem State.onUp_keeps (s : State) (x1 : Fin 6) (x2 : Chan → Chan) :
    (State.onUp s x1 x2).pending = s.pending ∧ (State.onUp s x1 x2).common.held = s.common.held ∧ (State.onUp s x1 x2).common.resetDue
      = s.common.resetDue := by
  unfold State.onUp
  grind [State.onChan_keeps]

theorem State.onClocked_keeps (s : State) (x1 : Fin 6) (x2 : Chan → Chan) :
    (State.onClocked s x1 x2).pending = s.pending ∧ (State.onClocked s x1 x2).common.held = s.common.held ∧ (State.onClocked s x1
      x2).common.resetDue = s.common.resetDue := by
  unfold State.onClocked
  grind [State.onUp_keeps]

theorem State.onLive_keeps (s : State) (x1 : Fin 6) (x2 : Chan → Chan) :
    (State.onLive s x1 x2).pending = s.pending ∧ (State.onLive s x1 x2).common.held = s.common.held ∧ (State.onLive s x1
      x2).common.resetDue = s.common.resetDue := by
  unfold State.onLive
  grind [State.onUp_keeps]

theorem State.onAll_keeps (s : State) (x1 : Chan → Chan) :
    (State.onAll s x1).pending = s.pending ∧ (State.onAll s x1).common.held = s.common.held ∧ (State.onAll s x1).common.resetDue =
      s.common.resetDue := by
  unfold State.onAll
  exact foldl_frame _ (fun s c => State.onChan_keeps s c x1) _ s

theorem State.edgeEntry_keeps (s : State) (x1 : Nat) (x2 : Pos) (x3 : Int) (x4 : Int) (x5 : Nat) (x6 : Nat) (x7 : Nat) :
    (State.edgeEntry s x1 x2 x3 x4 x5 x6 x7).pending = s.pending ∧ (State.edgeEntry s x1 x2 x3 x4 x5 x6 x7).common.held =
      s.common.held ∧ (State.edgeEntry s x1 x2 x3 x4 x5 x6 x7).common.resetDue = s.common.resetDue := by
  unfold State.edgeEntry
  grind [State.onAll_keeps]

theorem State.ownEntry_keeps (s : State) (x1 : Nat) :
    (State.ownEntry s x1).pending = s.pending ∧ (State.ownEntry s x1).common.held = s.common.held ∧ (State.ownEntry s
      x1).common.resetDue = s.common.resetDue := by
  unfold State.ownEntry
  grind [State.edgeEntry_keeps]

theorem State.wakeAll_keeps (s : State) :
    (State.wakeAll s).pending = s.pending ∧ (State.wakeAll s).common.held = s.common.held ∧ (State.wakeAll s).common.resetDue =
      s.common.resetDue := by
  unfold State.wakeAll
  grind [State.onAll_keeps]

theorem State.motionChange_keeps (was : Nat) (s : State) :
    (State.motionChange was s).pending = s.pending ∧ (State.motionChange was s).common.held = s.common.held ∧ (State.motionChange was
      s).common.resetDue = s.common.resetDue := by
  unfold State.motionChange
  grind [State.onN_keeps, State.wakeAll_keeps]

theorem State.onRing_keeps (s : State) (x1 : BwNode → BwNode) :
    (State.onRing s x1).pending = s.pending ∧ (State.onRing s x1).common.held = s.common.held ∧ (State.onRing s x1).common.resetDue =
      s.common.resetDue := by
  unfold State.onRing
  grind [State.onBw_keeps, State.motionChange_keeps]

theorem State.onEncFrom_keeps (s0 s : State) (x1 : EncNode → EncNode × List Nat) :
    (State.onEncFrom s0 s x1).pending = s.pending ∧ (State.onEncFrom s0 s x1).common.held = s.common.held ∧ (State.onEncFrom s0 s
      x1).common.resetDue = s.common.resetDue := by
  have hf := foldl_frame State.ownEntry State.ownEntry_keeps
  unfold State.onEncFrom
  grind [State.tidy_keeps, State.motionChange_keeps]

theorem State.onEncWith_keeps (s : State) (x1 : EncNode → EncNode × List Nat) :
    (State.onEncWith s x1).pending = s.pending ∧ (State.onEncWith s x1).common.held = s.common.held ∧ (State.onEncWith s
      x1).common.resetDue = s.common.resetDue := by
  unfold State.onEncWith; exact State.onEncFrom_keeps s s x1

theorem State.onEnc_keeps (s : State) (x1 : EncNode → EncNode) :
    (State.onEnc s x1).pending = s.pending ∧ (State.onEnc s x1).common.held = s.common.held ∧ (State.onEnc s x1).common.resetDue =
      s.common.resetDue := by
  unfold State.onEnc
  grind [State.onEncWith_keeps]

theorem State.onCal_keeps (s : State) (x1 : CalNode → CalNode) :
    (State.onCal s x1).pending = s.pending ∧ (State.onCal s x1).common.held = s.common.held ∧ (State.onCal s x1).common.resetDue =
      s.common.resetDue := by
  unfold State.onCal
  grind [State.tidy_keeps]

theorem State.onMon_keeps (s : State) (x1 : MonNode → MonNode) :
    (State.onMon s x1).pending = s.pending ∧ (State.onMon s x1).common.held = s.common.held ∧ (State.onMon s x1).common.resetDue =
      s.common.resetDue := by
  unfold State.onMon
  grind [State.tidy_keeps]

theorem State.onLog_keeps (s : State) (x1 : LogNode → LogNode) :
    (State.onLog s x1).pending = s.pending ∧ (State.onLog s x1).common.held = s.common.held ∧ (State.onLog s x1).common.resetDue =
      s.common.resetDue := by
  unfold State.onLog
  grind [State.onLogs_keeps, State.tidy_keeps]

theorem State.modSlate_keeps (s : State) (x1 : Sequencer → Sequencer) :
    (State.modSlate s x1).pending = s.pending ∧ (State.modSlate s x1).common.held = s.common.held ∧ (State.modSlate s
      x1).common.resetDue = s.common.resetDue := by
  unfold State.modSlate; grind

theorem State.commitNow_keeps (s : State) (x1 : Nat) (x2 : Pos) (x3 : Int) (x4 : Bool) (x5 : Bool) :
    (State.commitNow s x1 x2 x3 x4 x5).pending = s.pending ∧ (State.commitNow s x1 x2 x3 x4 x5).common.held = s.common.held ∧
      (State.commitNow s x1 x2 x3 x4 x5).common.resetDue = s.common.resetDue := by
  unfold State.commitNow
  extract_lets before old items n0 n1 n2 n3 n4 n5 src s0 s1 s2 at_ folded sel was s3 s4 more s5
  have h0 : s0.pending = s.pending ∧ s0.common.held = s.common.held ∧ s0.common.resetDue = s.common.resetDue := ⟨rfl, rfl, rfl⟩
  have e1 : s1 = s0.modSlate fun q => { q with staged := q.staged.filter (·.isOpen), origin := n5.now, committed := true } := rfl
  have h1 : s1.pending = s0.pending ∧ s1.common.held = s0.common.held ∧ s1.common.resetDue = s0.common.resetDue := by
    rw [e1]; exact State.modSlate_keeps s0 _
  have e2 : s2 = State.onEncFrom s s1 fun x => (encCommit old x, []) := rfl
  have h2 : s2.pending = s1.pending ∧ s2.common.held = s1.common.held ∧ s2.common.resetDue = s1.common.resetDue := by
    rw [e2]; exact State.onEncFrom_keeps s s1 _
  have e3 : s3 = s2.onAll fun c => c.commit x1 x2 x3 x4 x5 s2.webPos := rfl
  have h3 : s3.pending = s2.pending ∧ s3.common.held = s2.common.held ∧ s3.common.resetDue = s2.common.resetDue := by
    rw [e3]; exact State.onAll_keeps s2 _
  clear e1 e2 e3
  clear_value was sel s3
  have h4 : s4.pending = s3.pending ∧ s4.common.held = s3.common.held ∧ s4.common.resetDue = s3.common.resetDue :=
    foldl_frame _ (by
      intro s a
      split
      split
      · exact ⟨rfl, rfl, rfl⟩
      · exact State.mapN_keeps _ _) _ _
  have e5 : s5 = s4.onN (·.add 32 K.SLATE_HELD_COUNT more) := rfl
  have h5 : s5.pending = s4.pending ∧ s5.common.held = s4.common.held ∧ s5.common.resetDue = s4.common.resetDue := by
    rw [e5]; exact State.onN_keeps s4 _
  clear e5
  have h6 := State.onN_keeps s5 (·.setFlag K.BW_FLAGS 5)
  clear_value s5 s4
  split
  · exact ⟨by rw [h6.1, h5.1, h4.1, h3.1, h2.1, h1.1, h0.1], by rw [h6.2.1, h5.2.1, h4.2.1, h3.2.1, h2.2.1, h1.2.1, h0.2.1],
      by rw [h6.2.2, h5.2.2, h4.2.2, h3.2.2, h2.2.2, h1.2.2, h0.2.2]⟩
  · exact ⟨by rw [h5.1, h4.1, h3.1, h2.1, h1.1, h0.1], by rw [h5.2.1, h4.2.1, h3.2.1, h2.2.1, h1.2.1, h0.2.1],
      by rw [h5.2.2, h4.2.2, h3.2.2, h2.2.2, h1.2.2, h0.2.2]⟩

theorem State.decideCommit_keeps (s : State) (x1 : Pos) (x2 : Int) (x3 : Bool) (x4 : Bool) :
    (State.decideCommit s x1 x2 x3 x4).pending = s.pending ∧ (State.decideCommit s x1 x2 x3 x4).common.held = s.common.held ∧
      (State.decideCommit s x1 x2 x3 x4).common.resetDue = s.common.resetDue := by
  unfold State.decideCommit
  grind [State.commitNow_keeps, State.onBw_keeps]

theorem State.countFails_keeps (s : State) (x1 : List (Fin 6 × List NamingFail)) (x2 : Fin 6 → Nat) :
    (State.countFails s x1 x2).pending = s.pending ∧ (State.countFails s x1 x2).common.held = s.common.held ∧ (State.countFails s x1
      x2).common.resetDue = s.common.resetDue := by
  unfold State.countFails
  exact foldl_frame _ (by intro s a; grind [State.onChan_keeps]) _ s

theorem State.rejectNaming_keeps (s : State) :
    (State.rejectNaming s).pending = s.pending ∧ (State.rejectNaming s).common.held = s.common.held ∧ (State.rejectNaming
      s).common.resetDue = s.common.resetDue := by
  unfold State.rejectNaming
  grind [State.modSlate_keeps]

theorem State.nameCheck_keeps (s : State) :
    ∀ a t, State.nameCheck s = some (a, t) → t.pending = s.pending ∧ t.common.held = s.common.held ∧ t.common.resetDue =
      s.common.resetDue := by
  unfold State.nameCheck
  grind [State.countFails_keeps, State.rejectNaming_keeps]

theorem State.namePos_keeps (s : State) (x1 : Pos) :
    (State.namePos s x1).2.2.pending = s.pending ∧ (State.namePos s x1).2.2.common.held = s.common.held ∧ (State.namePos s
      x1).2.2.common.resetDue = s.common.resetDue := by
  unfold State.namePos
  grind [State.decideCommit_keeps, State.modSlate_keeps, State.nameCheck_keeps, State.rejectNaming_keeps]

theorem State.nameTime_keeps (s : State) (x1 : Ticks) :
    (State.nameTime s x1).2.2.pending = s.pending ∧ (State.nameTime s x1).2.2.common.held = s.common.held ∧ (State.nameTime s
      x1).2.2.common.resetDue = s.common.resetDue := by
  unfold State.nameTime
  grind [State.decideCommit_keeps, State.modSlate_keeps, State.nameCheck_keeps, State.rejectNaming_keeps]

theorem State.slateAns_keeps (r : Status × Bool × State) :
    (State.slateAns r).1.pending = r.2.2.pending ∧ (State.slateAns r).1.common.held = r.2.2.common.held ∧
    (State.slateAns r).1.common.resetDue = r.2.2.common.resetDue := by
  unfold State.slateAns
  grind

theorem State.cancelSlate_keeps (s : State) :
    (State.cancelSlate s).2.pending = s.pending ∧ (State.cancelSlate s).2.common.held = s.common.held ∧ (State.cancelSlate
      s).2.common.resetDue = s.common.resetDue := by
  unfold State.cancelSlate
  grind [State.modSlate_keeps]

theorem State.discard_keeps (s : State) :
    (State.discard s).pending = s.pending ∧ (State.discard s).common.held = s.common.held ∧ (State.discard s).common.resetDue =
      s.common.resetDue := by
  unfold State.discard
  grind [State.modSlate_keeps]

theorem State.slatePosition_keeps (s : State) :
    (State.slatePosition s).pending = s.pending ∧ (State.slatePosition s).common.held = s.common.held ∧ (State.slatePosition
      s).common.resetDue = s.common.resetDue := by
  unfold State.slatePosition
  grind [State.decideCommit_keeps, State.modSlate_keeps]

theorem State.slateTime_keeps (s : State) (x1 : Bool) :
    (State.slateTime s x1).pending = s.pending ∧ (State.slateTime s x1).common.held = s.common.held ∧ (State.slateTime s
      x1).common.resetDue = s.common.resetDue := by
  unfold State.slateTime
  grind [State.decideCommit_keeps, State.modSlate_keeps]

theorem State.modTa_keeps (s : State) (x1 : TimeBlock → TimeBlock) :
    (State.modTa s x1).pending = s.pending ∧ (State.modTa s x1).common.held = s.common.held ∧ (State.modTa s x1).common.resetDue =
      s.common.resetDue := by
  unfold State.modTa; grind

theorem State.taChan_keeps (s : State) (x1 : Fin 6) (x2 : Nat) (x3 : Nat) (x4 : Nat) :
    (State.taChan s x1 x2 x3 x4).1.pending = s.pending ∧ (State.taChan s x1 x2 x3 x4).1.common.held = s.common.held ∧ (State.taChan s
      x1 x2 x3 x4).1.common.resetDue = s.common.resetDue := by
  unfold State.taChan
  grind [State.onLive_keeps]

theorem State.taAct_keeps (s : State) (x1 : Nat) (x2 : TaEntry) (x3 : Ticks) :
    (State.taAct s x1 x2 x3).1.pending = s.pending ∧ (State.taAct s x1 x2 x3).1.common.held = s.common.held ∧
      (State.taAct s x1 x2 x3).1.common.resetDue = s.common.resetDue := by
  unfold State.taAct
  refine foldl_frame1 _ (fun a c => ?_) _ (s, ({} : TaResult))
  obtain ⟨s, r⟩ := a
  dsimp only
  split
  · exact ⟨rfl, rfl, rfl⟩
  split
  · exact State.onN_keeps _ _
  · split
    · exact ⟨rfl, rfl, rfl⟩
    · have h := State.onChan_keeps s c fun x => x.wakeCause
      generalize s.onChan c (fun x => x.wakeCause) = t at h ⊢
      exact State.Kept.trans h (State.modTa_keeps t _)
  · exact State.taChan_keeps _ _ _ _ _

theorem State.taFired_keeps (s : State) (x1 : Nat) (x2 x3 : Bool) :
    (State.taFired s x1 x2 x3).pending = s.pending ∧ (State.taFired s x1 x2 x3).common.held = s.common.held ∧
      (State.taFired s x1 x2 x3).common.resetDue = s.common.resetDue := by
  unfold State.taFired; exact State.onN_keeps _ _

theorem State.taMiss_keeps (s : State) (x1 : Nat) (x2 : Nat) :
    (State.taMiss s x1 x2).pending = s.pending ∧ (State.taMiss s x1 x2).common.held = s.common.held ∧ (State.taMiss s x1
      x2).common.resetDue = s.common.resetDue := by
  unfold State.taMiss
  grind [State.onN_keeps]

theorem State.taSendEcho_keeps (s : State) (x1 x2 x3 x4 x5 : Nat) (x6 : Bool) :
    (State.taSendEcho s x1 x2 x3 x4 x5 x6).pending = s.pending ∧ (State.taSendEcho s x1 x2 x3 x4 x5 x6).common.held = s.common.held ∧
      (State.taSendEcho s x1 x2 x3 x4 x5 x6).common.resetDue = s.common.resetDue := by
  unfold State.taSendEcho
  grind [State.onBw_keeps]

theorem State.taRun_keeps (s : State) (x1 : Nat) (x2 : TaEntry) (x3 : Bool) :
    (State.taRun s x1 x2 x3).pending = s.pending ∧ (State.taRun s x1 x2 x3).common.held = s.common.held ∧ (State.taRun s x1 x2
      x3).common.resetDue = s.common.resetDue := by
  unfold State.taRun
  extract_lets next due0 due j last skip passed ended x' s1 status s2 s3 s4
  have h1 : s.Kept s1 := State.modTa_keeps _ _
  have h2 : s1.Kept s2 := State.onN_keeps _ _
  have h3 : s2.Kept s3 := State.Kept.ite (State.onN_keeps _ _) ⟨rfl, rfl, rfl⟩
  have h := (h1.trans h2).trans h3
  clear_value s3
  split
  · exact h.trans (State.taMiss_keeps _ _ _)
  have h4 : s3.Kept s4 := State.taMiss_keeps _ _ _
  clear_value s4
  have h5 := State.taAct_keeps s4 x1 x2 last
  split
  rename_i t r hr
  rw [hr] at h5
  extract_lets t1 t2
  have h6 : t.Kept t1 := State.Kept.ite (State.onN_keeps _ _) ⟨rfl, rfl, rfl⟩
  have h7 : t1.Kept t2 := by
    refine State.Kept.ite ?_ (State.Kept.ite ⟨rfl, rfl, rfl⟩ (State.taMiss_keeps _ _ _))
    exact State.Kept.trans (State.taFired_keeps _ _ _ _) (State.modTa_keeps _ _)
  refine ((h.trans (h4.trans h5)).trans (h6.trans h7)).trans ?_
  exact State.Kept.ite (State.taSendEcho_keeps ..) ⟨rfl, rfl, rfl⟩

theorem State.taExecute_keeps (s : State) (x1 : Nat) :
    (State.taExecute s x1).pending = s.pending ∧ (State.taExecute s x1).common.held = s.common.held ∧ (State.taExecute s
      x1).common.resetDue = s.common.resetDue := by
  unfold State.taExecute
  split
  · exact State.slateTime_keeps _ _
  split
  · split
    · exact State.taRun_keeps _ _ _ _
    · exact ⟨rfl, rfl, rfl⟩
  · exact ⟨rfl, rfl, rfl⟩

theorem State.taArm_keeps (s : State) (x1 : Nat) :
    (State.taArm s x1).2.pending = s.pending ∧ (State.taArm s x1).2.common.held = s.common.held ∧ (State.taArm s x1).2.common.resetDue
      = s.common.resetDue := by
  unfold State.taArm
  extract_lets n x s1 s2
  have h1 : s.Kept s1 := State.modTa_keeps _ _
  have h2 : s1.Kept s2 := State.onN_keeps _ _
  clear_value s2
  split
  · exact ⟨rfl, rfl, rfl⟩
  split
  · exact ⟨rfl, rfl, rfl⟩
  · exact (h1.trans h2).trans (State.Kept.ite (State.taRun_keeps _ _ _ _) ⟨rfl, rfl, rfl⟩)

theorem State.taDisarm_keeps (s : State) (x1 : Nat) :
    (State.taDisarm s x1).2.pending = s.pending ∧ (State.taDisarm s x1).2.common.held = s.common.held ∧ (State.taDisarm s
      x1).2.common.resetDue = s.common.resetDue := by
  unfold State.taDisarm
  split
  · exact ⟨rfl, rfl, rfl⟩
  · exact (State.Kept.trans (State.modTa_keeps _ _) (State.taMiss_keeps _ _ _)).trans (State.onN_keeps _ _)

theorem State.taSettle_keeps (s : State) (x1 : TaWait) (x2 : Bool) :
    (State.taSettle s x1 x2).pending = s.pending ∧ (State.taSettle s x1 x2).common.held = s.common.held ∧ (State.taSettle s x1
      x2).common.resetDue = s.common.resetDue := by
  unfold State.taSettle
  extract_lets same s1
  have h1 : s.Kept s1 := State.onN_keeps _ _
  clear_value s1
  refine State.Kept.ite ⟨rfl, rfl, rfl⟩ (State.Kept.ite (State.Kept.ite h1 ?_) (State.Kept.ite ⟨rfl, rfl, rfl⟩ (State.taMiss_keeps _ _ _)))
  exact h1.trans (State.Kept.trans (State.Kept.trans (State.taFired_keeps _ _ _ _) (State.modTa_keeps _ _)) (State.taSendEcho_keeps ..))

theorem State.taWoken_keeps (s : State) (x1 : Fin 6) :
    (State.taWoken s x1).pending = s.pending ∧ (State.taWoken s x1).common.held = s.common.held ∧ (State.taWoken s x1).common.resetDue
      = s.common.resetDue := by
  unfold State.taWoken
  refine foldl_frame _ (fun s _ => ?_) _ _
  split
  · exact ⟨rfl, rfl, rfl⟩
  rename_i w _
  dsimp only
  have h := State.modTa_keeps s fun b => { b with waits := b.waits.erase w }
  split
  · refine (State.Kept.trans h ?_).trans (State.taSettle_keeps _ _ _)
    exact State.Kept.ite (State.onN_keeps _ _) ⟨rfl, rfl, rfl⟩
  · exact (State.Kept.trans h (State.taChan_keeps _ _ _ _ _)).trans (State.taSettle_keeps _ _ _)

theorem State.taEcho_keeps (s : State) (x1 : BwEcho) :
    (State.taEcho s x1).pending = s.pending ∧ (State.taEcho s x1).common.held = s.common.held ∧ (State.taEcho s x1).common.resetDue =
      s.common.resetDue := by
  unfold State.taEcho
  exact foldl_frame _ (by intro s a; grind [State.onChan_keeps, State.modTa_keeps, State.taChan_keeps]) _ s

theorem State.taStepped_keeps (s : State) :
    (State.taStepped s).pending = s.pending ∧ (State.taStepped s).common.held = s.common.held ∧ (State.taStepped s).common.resetDue =
      s.common.resetDue := by
  unfold State.taStepped
  refine State.Kept.trans (foldl_frame _ (fun s p => ?_) _ _) (State.slateTime_keeps _ _)
  obtain ⟨e, _⟩ := p
  dsimp only
  split
  · exact ⟨rfl, rfl, rfl⟩
  · refine State.Kept.ite ?_ (State.Kept.ite (State.taRun_keeps _ _ _ _) ⟨rfl, rfl, rfl⟩)
    exact State.Kept.trans (State.modTa_keeps _ _) (State.onN_keeps _ _)

theorem State.timeJournal_keeps (s : State) (x1 : Nat) (x2 : Int) (x3 : Int) :
    (State.timeJournal s x1 x2 x3).pending = s.pending ∧ (State.timeJournal s x1 x2 x3).common.held = s.common.held ∧
      (State.timeJournal s x1 x2 x3).common.resetDue = s.common.resetDue := by
  unfold State.timeJournal
  grind [State.onAll_keeps]

theorem State.stepped_keeps (s : State) (x1 : Int) :
    (State.stepped s x1).pending = s.pending ∧ (State.stepped s x1).common.held = s.common.held ∧ (State.stepped s x1).common.resetDue
      = s.common.resetDue := by
  unfold State.stepped
  grind [State.taStepped_keeps, State.timeJournal_keeps]

theorem State.onTime_keeps (s : State) (x1 : TimeNode → TimeNode × Option Int) :
    (State.onTime s x1).pending = s.pending ∧ (State.onTime s x1).common.held = s.common.held ∧ (State.onTime s x1).common.resetDue =
      s.common.resetDue := by
  unfold State.onTime
  grind [State.stepped_keeps, State.tidy_keeps, State.timeJournal_keeps]

theorem State.onTb_keeps (s : State) (x1 : TimeNode → TimeNode) :
    (State.onTb s x1).pending = s.pending ∧ (State.onTb s x1).common.held = s.common.held ∧ (State.onTb s x1).common.resetDue =
      s.common.resetDue := by
  unfold State.onTb
  grind [State.onTime_keeps]


theorem State.persistApply_keeps (s : State) (x1 : Option (Fin 6)) (x2 : Nat) (x3 : ObjInfo) (x4 : List Nat) :
    (State.persistApply s x1 x2 x3 x4).pending = s.pending ∧ (State.persistApply s x1 x2 x3 x4).common.held = s.common.held ∧
      (State.persistApply s x1 x2 x3 x4).common.resetDue = s.common.resetDue := by
  unfold State.persistApply
  grind [State.modSlate_keeps, State.onBw_keeps, State.onRing_keeps, State.onN_keeps, State.putChan_keeps]

theorem State.persistLoad_keeps (s : State) :
    (State.persistLoad s).pending = s.pending ∧ (State.persistLoad s).common.held = s.common.held ∧ (State.persistLoad
      s).common.resetDue = s.common.resetDue := by
  unfold State.persistLoad
  split
  · grind [State.onN_keeps]
  · rename_i p _
    dsimp only
    generalize hr : List.foldl _ (s, false) _ = r
    have h : r.1.pending = s.pending ∧ r.1.common.held = s.common.held ∧ r.1.common.resetDue = s.common.resetDue := by
      rw [← hr]
      exact foldl_frame1 _ (by intro s a; (repeat' split) <;> grind [State.onN_keeps, State.persistApply_keeps]) _ _
    clear hr
    grind [State.onN_keeps, State.mapN_keeps]

theorem State.chanReset_keeps (s : State) (x1 : Fin 6) :
    (State.chanReset s x1).pending = s.pending ∧ (State.chanReset s x1).common.held = s.common.held ∧ (State.chanReset s
      x1).common.resetDue = s.common.resetDue := by
  unfold State.chanReset
  grind [State.onCal_keeps, State.onChan_keeps, State.taWoken_keeps, State.shedIntake_keeps]

theorem State.chanRelease_keeps (s : State) (x1 : Fin 6) :
    (State.chanRelease s x1).pending = s.pending ∧ (State.chanRelease s x1).common.held = s.common.held ∧ (State.chanRelease s
      x1).common.resetDue = s.common.resetDue := by
  unfold State.chanRelease
  grind [State.onChan_keeps]

theorem State.onFn_keeps (s : State) (x1 : Fin 7) (x2 : Node → Node) :
    (State.onFn s x1 x2).pending = s.pending ∧ (State.onFn s x1 x2).common.held = s.common.held ∧ (State.onFn s x1 x2).common.resetDue
      = s.common.resetDue := by
  unfold State.onFn
  grind [State.onChan_keeps, State.onN_keeps]

theorem State.modHost_keeps (s : State) (x1 : HostPort → HostPort) :
    (State.modHost s x1).pending = s.pending ∧ (State.modHost s x1).common.held = s.common.held ∧ (State.modHost s x1).common.resetDue
      = s.common.resetDue := by
  unfold State.modHost; grind

theorem State.takeLimits_keeps (s : State) :
    (State.takeLimits s).pending = s.pending ∧ (State.takeLimits s).common.held = s.common.held ∧ (State.takeLimits
      s).common.resetDue = s.common.resetDue := State.modHost_keeps ..

theorem State.linkExit_keeps (s : State) (x1 : Nat) :
    (State.linkExit s x1).pending = s.pending ∧ (State.linkExit s x1).common.held = s.common.held ∧ (State.linkExit s
      x1).common.resetDue = s.common.resetDue := by
  unfold State.linkExit
  grind [State.onN_keeps, State.takeLimits_keeps]

theorem State.flrEnd_keeps (s : State) (x1 : Fin 7) :
    (State.flrEnd s x1).pending = s.pending ∧ (State.flrEnd s x1).common.held = s.common.held ∧ (State.flrEnd s x1).common.resetDue =
      s.common.resetDue := by
  unfold State.flrEnd
  grind [State.chanRelease_keeps, State.onFn_keeps]

theorem State.mailboxClear_keeps (s : State) :
    (State.mailboxClear s).pending = s.pending ∧ (State.mailboxClear s).common.held = s.common.held ∧ (State.mailboxClear
      s).common.resetDue = s.common.resetDue := by
  unfold State.mailboxClear; grind

theorem State.hostReset_keeps (s : State) :
    (State.hostReset s).pending = s.pending ∧ (State.hostReset s).common.held = s.common.held ∧ (State.hostReset s).common.resetDue =
      s.common.resetDue := by
  unfold State.hostReset
  dsimp only
  generalize List.finRange 7 = l
  refine ⟨?_, ?_, ?_⟩
  · rw [(State.modHost_keeps _ _).1, foldl_const (fun (s : State) => s.pending) _ (by intro s f; grind [State.flrEnd_keeps])]
    grind [State.onN_keeps, State.onAll_keeps]
  · rw [(State.modHost_keeps _ _).2.1, foldl_const (fun (s : State) => s.common.held) _ (by intro s f; grind [State.flrEnd_keeps])]
    grind [State.onN_keeps, State.onAll_keeps]
  · rw [(State.modHost_keeps _ _).2.2, foldl_const (fun (s : State) => s.common.resetDue) _ (by intro s f; grind [State.flrEnd_keeps])]
    grind [State.onN_keeps, State.onAll_keeps]

theorem State.flr_keeps (s : State) (x1 : Fin 7) :
    (State.flr s x1).pending = s.pending ∧ (State.flr s x1).common.held = s.common.held ∧ (State.flr s x1).common.resetDue =
      s.common.resetDue := by
  unfold State.flr
  grind [State.chanReset_keeps, State.mailboxClear_keeps, State.modHost_keeps, State.onChan_keeps, State.onFn_keeps, State.onN_keeps]

theorem State.cleared_keeps (s : State) (x1 : Held) (x2 : Nat) :
    (State.cleared s x1 x2).pending = s.pending := by
  unfold State.cleared; grind

theorem State.deviceDown_keeps (s : State) (x1 : Held) (x2 : Nat) :
    (State.deviceDown s x1 x2).pending = s.pending := by
  unfold State.deviceDown
  grind [State.cleared_keeps, State.mapN_keeps, State.onCal_keeps]

theorem State.startUp_keeps (s : State) (x1 : Nat) (x2 : Nat) (x3 : Option StoreDev) :
    (State.startUp s x1 x2 x3).pending = s.pending := by
  unfold State.startUp
  extract_lets
  rename_i s1 s2 s3 auto s4 vid sid win on s5 s6
  have h1 : s1.pending = s.pending := by grind [State.onN_keeps, State.cleared_keeps]
  have h2 : s2.pending = s1.pending := by grind [State.onCal_keeps]
  have h3 : s3.pending = s2.pending := by grind [State.onN_keeps, State.persistLoad_keeps]
  have h4 : s4.pending = s3.pending := foldl_const (fun (s : State) => s.pending) _ (by intro s c; grind [State.onN_keeps,
    State.putChan_keeps]) _ _
  have h6 : s6.pending = s4.pending := by
    have h5 : s5.pending = s4.pending := by grind [State.modHost_keeps]
    clear_value s5
    grind [State.onN_keeps, State.takeLimits_keeps]
  clear_value s6 s4
  rw [(State.onAll_keeps _ _).1]
  grind

theorem State.onDuplex_keeps (s : State) (x1 : Nat) (x2 : LaneNode → LaneNode) :
    (State.onDuplex s x1 x2).pending = s.pending ∧ (State.onDuplex s x1 x2).common.held = s.common.held ∧ (State.onDuplex s x1
      x2).common.resetDue = s.common.resetDue := by
  unfold State.onDuplex
  grind [State.tidy_keeps]

theorem State.duplexScanStop_keeps (s : State) (x1 : Nat) (x2 : Nat) :
    (State.duplexScanStop s x1 x2).pending = s.pending ∧ (State.duplexScanStop s x1 x2).common.held = s.common.held ∧
      (State.duplexScanStop s x1 x2).common.resetDue = s.common.resetDue := by
  unfold State.duplexScanStop; grind

theorem State.duplexScan_keeps (s : State) (x1 : Nat) :
    (State.duplexScan s x1).2.pending = s.pending ∧ (State.duplexScan s x1).2.common.held = s.common.held ∧ (State.duplexScan s
      x1).2.common.resetDue = s.common.resetDue := by
  unfold State.duplexScan
  grind [State.duplexScanStop_keeps, State.onDuplex_keeps]

theorem State.duplexTest_keeps (s : State) (x1 : Nat) (x2 : Nat) :
    (State.duplexTest s x1 x2).2.pending = s.pending ∧ (State.duplexTest s x1 x2).2.common.held = s.common.held ∧ (State.duplexTest s
      x1 x2).2.common.resetDue = s.common.resetDue := by
  unfold State.duplexTest
  grind [State.duplexScanStop_keeps, State.onBw_keeps, State.onRing_keeps, State.onDuplex_keeps, State.onN_keeps, State.onTb_keeps]

theorem State.duplexAdapt_keeps (s : State) (x1 : Nat) (x2 : Nat) :
    (State.duplexAdapt s x1 x2).2.pending = s.pending ∧ (State.duplexAdapt s x1 x2).2.common.held = s.common.held ∧ (State.duplexAdapt
      s x1 x2).2.common.resetDue = s.common.resetDue := by
  unfold State.duplexAdapt
  grind [State.duplexScanStop_keeps, State.onDuplex_keeps]

theorem State.duplexPins_keeps (was s : State) : s.Kept (State.duplexPins was s) := by
  unfold State.duplexPins
  exact foldl_frame _ (fun s d => State.Kept.ite ⟨rfl, rfl, rfl⟩ (State.mapN_keeps _ _)) _ _

theorem State.trimAt_keeps (s : State) (x1 : Nat) : s.Kept (State.trimAt s x1) := by
  unfold State.trimAt
  extract_lets t set
  split
  · exact State.onUp_keeps _ _ _
  · exact State.onDuplex_keeps _ _ _

theorem State.trimCaptureAct_keeps (s : State) : s.Kept (State.trimCaptureAct s) := by
  unfold State.trimCaptureAct
  exact State.Kept.trans (State.onN_keeps _ _) (foldl_frame _ State.trimAt_keeps _ _)

theorem State.duplexAct_keeps (s : State) (x1 : Nat) (x2 : Written) :
    (State.duplexAct s x1 x2).2.pending = s.pending ∧ (State.duplexAct s x1 x2).2.common.held = s.common.held ∧ (State.duplexAct s x1
      x2).2.common.resetDue = s.common.resetDue := by
  unfold State.duplexAct
  grind [State.duplexAdapt_keeps, State.duplexScan_keeps, State.duplexTest_keeps, State.onN_keeps]

theorem State.autoWrite_keeps (s : State) (x1 : Nat) (x2 : Nat) :
    (State.autoWrite s x1 x2).2.pending = s.pending ∧ (State.autoWrite s x1 x2).2.common.held = s.common.held ∧ (State.autoWrite s x1
      x2).2.common.resetDue = s.common.resetDue := by
  unfold State.autoWrite
  grind [State.countFails_keeps, State.modSlate_keeps, State.onN_keeps]

theorem State.calSync_keeps (s : State) :
    (State.calSync s).pending = s.pending ∧ (State.calSync s).common.held = s.common.held ∧ (State.calSync s).common.resetDue =
      s.common.resetDue := by
  unfold State.calSync; grind

theorem State.storeAct_keeps (s : State) (x1 : Nat) (x2 : List Nat) :
    (State.storeAct s x1 x2).2.pending = s.pending ∧ (State.storeAct s x1 x2).2.common.held = s.common.held ∧ (State.storeAct s x1
      x2).2.common.resetDue = s.common.resetDue := by
  unfold State.storeAct
  grind [State.onCal_keeps]

theorem State.calCtrl_keeps (s : State) (x1 : Nat) :
    (State.calCtrl s x1).2.pending = s.pending ∧ (State.calCtrl s x1).2.common.held = s.common.held ∧ (State.calCtrl s
      x1).2.common.resetDue = s.common.resetDue := by
  unfold State.calCtrl
  grind [State.calSync_keeps, State.onCal_keeps, State.settle_keeps]

theorem State.stageBank_keeps (s : State) (x1 : Fin 6) :
    (State.stageBank s x1).2.pending = s.pending ∧ (State.stageBank s x1).2.common.held = s.common.held ∧ (State.stageBank s
      x1).2.common.resetDue = s.common.resetDue := by
  unfold State.stageBank
  grind [State.mapN_keeps, State.putChan_keeps]

theorem State.pixSave_keeps (s : State) (x1 : Nat) :
    (State.pixSave s x1).2.pending = s.pending ∧ (State.pixSave s x1).2.common.held = s.common.held ∧ (State.pixSave s
      x1).2.common.resetDue = s.common.resetDue := by
  unfold State.pixSave
  grind [State.storeAct_keeps]

theorem State.pixLoadAct_keeps (s : State) (x1 : Nat) :
    (State.pixLoadAct s x1).2.pending = s.pending ∧ (State.pixLoadAct s x1).2.common.held = s.common.held ∧ (State.pixLoadAct s
      x1).2.common.resetDue = s.common.resetDue := by
  unfold State.pixLoadAct
  grind [State.mapN_keeps, State.settle_keeps, State.stageBank_keeps]

theorem State.writerRelease_keeps (s : State) (x1 : Written) :
    (State.writerRelease s x1).2.pending = s.pending ∧ (State.writerRelease s x1).2.common.held = s.common.held ∧ (State.writerRelease
      s x1).2.common.resetDue = s.common.resetDue := by
  unfold State.writerRelease
  simp only
  split
  · exact ⟨rfl, rfl, rfl⟩
  · exact foldl_frame _ (fun s a => State.onFn_keeps s a _) _ s

theorem State.winBase_keeps (s : State) (x1 : Written) :
    (State.winBase s x1).2.pending = s.pending ∧ (State.winBase s x1).2.common.held = s.common.held ∧ (State.winBase s
      x1).2.common.resetDue = s.common.resetDue := by
  unfold State.winBase
  grind [State.onN_keeps]

theorem State.chResetWrite_keeps (s : State) (x1 : Written) :
    (State.chResetWrite s x1).2.pending = s.pending ∧ (State.chResetWrite s x1).2.common.held = s.common.held ∧ (State.chResetWrite s
      x1).2.common.resetDue = s.common.resetDue := by
  unfold State.chResetWrite
  exact foldl_frame _ (by intro s a; grind [State.onN_keeps, State.chanReset_keeps, State.chanRelease_keeps]) _ s

theorem State.pwrWakeAct_keeps (s : State) (x1 : Written) :
    (State.pwrWakeAct s x1).2.pending = s.pending ∧ (State.pwrWakeAct s x1).2.common.held = s.common.held ∧ (State.pwrWakeAct s
      x1).2.common.resetDue = s.common.resetDue := by
  unfold State.pwrWakeAct
  exact foldl_frame _ (by intro s a; grind [State.onUp_keeps]) _ s

theorem State.traceLog2Write_keeps (s : State) (x1 : Nat) :
    (State.traceLog2Write s x1).2.pending = s.pending ∧ (State.traceLog2Write s x1).2.common.held = s.common.held ∧
      (State.traceLog2Write s x1).2.common.resetDue = s.common.resetDue := by
  unfold State.traceLog2Write
  grind [State.onN_keeps]

theorem State.ipWrite_keeps (s : State) (x1 : Written) :
    (State.ipWrite s x1).2.pending = s.pending ∧ (State.ipWrite s x1).2.common.held = s.common.held ∧ (State.ipWrite s
      x1).2.common.resetDue = s.common.resetDue := by
  unfold State.ipWrite
  grind [State.mapN_keeps, State.tidy_keeps]

theorem State.udpSet_keeps (s : State) (x1 : Nat) (x2 : Written) :
    (State.udpSet s x1 x2).2.pending = s.pending ∧ (State.udpSet s x1 x2).2.common.held = s.common.held ∧ (State.udpSet s x1
      x2).2.common.resetDue = s.common.resetDue := by
  unfold State.udpSet
  grind [State.mapN_keeps, State.tidy_keeps]

theorem State.w1c_keeps (s : State) (x1 : Nat) (x2 : Nat) :
    (State.w1c s x1 x2).pending = s.pending ∧ (State.w1c s x1 x2).common.held = s.common.held ∧ (State.w1c s x1 x2).common.resetDue =
      s.common.resetDue := by
  unfold State.w1c
  grind [State.onDuplex_keeps, State.onEnc_keeps, State.onN_keeps]

theorem State.taWrite_keeps (s : State) (x1 : Nat) (x2 : Written) :
    (State.taWrite s x1 x2).2.pending = s.pending ∧ (State.taWrite s x1 x2).2.common.held = s.common.held ∧ (State.taWrite s x1
      x2).2.common.resetDue = s.common.resetDue := by
  unfold State.taWrite
  extract_lets e after
  clear_value e after
  split
  · exact ⟨rfl, rfl, rfl⟩
  split
  · exact ⟨rfl, rfl, rfl⟩
  split
  · split
    · exact State.taArm_keeps s e
    · exact State.taDisarm_keeps s e
  · exact State.onN_keeps s _

theorem State.hostStep_keeps (s : State) (x1 : Int) :
    (State.hostStep s x1).2.pending = s.pending ∧ (State.hostStep s x1).2.common.held = s.common.held ∧ (State.hostStep s
      x1).2.common.resetDue = s.common.resetDue := by
  unfold State.hostStep
  grind [State.onTime_keeps]

theorem State.linkModeWrite_keeps (s : State) (x1 : Nat) (x2 : Written) : s.Kept (State.linkModeWrite s x1 x2).2 := by
  unfold State.linkModeWrite
  extract_lets was t
  have h : s.Kept t := State.onTb_keeps _ _
  split
  · exact h
  · exact (h.trans (State.duplexScanStop_keeps _ _ _)).trans (State.onDuplex_keeps _ _ _)

theorem State.actTime_keeps (s : State) (x1 : Nat) (x2 : Written) :
    (State.actTime s x1 x2).2.pending = s.pending ∧ (State.actTime s x1 x2).2.common.held = s.common.held ∧ (State.actTime s x1
      x2).2.common.resetDue = s.common.resetDue := by
  have hl := State.linkModeWrite_keeps s
  have hd := State.Kept.trans (State.duplexAct_keeps s x1 x2) (State.duplexPins_keeps s _)
  unfold State.actTime
  extract_lets i
  generalize s.duplexPins (s.duplexAct x1 x2).2 = q at hd ⊢
  iterate 11
    apply State.Kept.ite2
    rotate_left
  all_goals grind [State.hostStep_keeps, State.onEnc_keeps, State.onN_keeps, State.onTb_keeps, State.taWrite_keeps]

theorem State.act_keeps (s : State) (x1 : Nat) (x2 : Written) :
    (State.act s x1 x2).2.pending = s.pending ∧ (State.act s x1 x2).2.common.held = s.common.held := by
  unfold State.act
  extract_lets put v
  have hp : put.2.pending = s.pending ∧ put.2.common.held = s.common.held := by grind [State.onN_keeps]
  clear_value put
  have hi := fun (p : Prop) [Decidable p] (a b : Status × State) (ha : a.2.pending = s.pending ∧ a.2.common.held = s.common.held)
    (hb : b.2.pending = s.pending ∧ b.2.common.held = s.common.held) => iteInduction (c := p) (t := a) (e := b)
    (motive := fun (r : Status × State) => r.2.pending = s.pending ∧ r.2.common.held = s.common.held) (fun _ => ha) (fun _ => hb)
  iterate 24
    refine hi _ _ _ ?_ ?_
    rotate_left
  all_goals grind [State.actTime_keeps, State.ipWrite_keeps, State.udpSet_keeps, State.storeAct_keeps, State.namePos_keeps,
    State.nameTime_keeps, State.cancelSlate_keeps, State.discard_keeps, State.autoWrite_keeps, State.writerRelease_keeps,
    State.winBase_keeps, State.onN_keeps, State.traceLog2Write_keeps, State.onLog_keeps, State.calCtrl_keeps, State.pixSave_keeps,
    State.pixLoadAct_keeps, State.pwrWakeAct_keeps, State.chResetWrite_keeps, State.onBw_keeps, State.onRing_keeps,
    State.trimCaptureAct_keeps]

theorem State.direct_keeps (s : State) (x1 : Place) (x2 : Written) :
    (State.direct s x1 x2).2.pending = s.pending ∧ (State.direct s x1 x2).2.common.held = s.common.held := by
  unfold State.direct
  grind [State.act_keeps, State.mapN_keeps, State.settle_keeps, State.w1c_keeps]

theorem State.wakeFor_keeps (s : State) (x1 : Place) : s.Kept (State.wakeFor s x1) := by
  unfold State.wakeFor
  split
  · exact ⟨rfl, rfl, rfl⟩
  · exact State.Kept.ite ⟨rfl, rfl, rfl⟩ (State.onChan_keeps _ _ _)

theorem State.reach_keeps (s : State) (x1 : Option (Fin 6)) (x2 : Place) :
    ∀ t, State.reach s x1 x2 = .ok t → t.pending = s.pending ∧ t.common.held = s.common.held ∧ t.common.resetDue = s.common.resetDue := by
  unfold State.reach
  grind [State.wakeFor_keeps]

theorem State.setOpenDirect_keeps (s : State) (x1 : Place) (x2 : Bool) :
    (State.setOpenDirect s x1 x2).pending = s.pending ∧ (State.setOpenDirect s x1 x2).common.held = s.common.held ∧
      (State.setOpenDirect s x1 x2).common.resetDue = s.common.resetDue := by
  unfold State.setOpenDirect
  grind [State.modSlate_keeps, State.putChan_keeps]

theorem State.nameFail_keeps (s : State) (x1 : Place) :
    (State.nameFail s x1).pending = s.pending ∧ (State.nameFail s x1).common.held = s.common.held ∧ (State.nameFail s
      x1).common.resetDue = s.common.resetDue := by
  unfold State.nameFail
  grind [State.rejectNaming_keeps]

theorem State.writeItem_keeps (s : State) (x1 : Option (Fin 6)) (x2 : Place) (x3 : Option Segment) (x4 : List Nat) :
    (State.writeItem s x1 x2 x3 x4).2.pending = s.pending ∧ (State.writeItem s x1 x2 x3 x4).2.common.held = s.common.held := by
  unfold State.writeItem
  (repeat' split) <;> grind [State.reach_keeps, State.wakeFor_keeps, State.nameFail_keeps, State.direct_keeps, State.setOpenDirect_keeps]

theorem State.stageOne_keeps (s : State) (x1 : Place) (x2 : Staged) :
    (State.stageOne s x1 x2).pending = s.pending ∧ (State.stageOne s x1 x2).common.held = s.common.held ∧ (State.stageOne s x1
      x2).common.resetDue = s.common.resetDue := by
  unfold State.stageOne
  grind [State.modSlate_keeps, State.putChan_keeps]

theorem State.stageSet_keeps (s : State) (x1 : List (Place × Staged)) :
    (State.stageSet s x1).2.2.pending = s.pending ∧ (State.stageSet s x1).2.2.common.held = s.common.held ∧ (State.stageSet s
      x1).2.2.common.resetDue = s.common.resetDue := by
  unfold State.stageSet
  extract_lets fulls firstBad l t fails
  have ht : t.pending = s.pending ∧ t.common.held = s.common.held ∧ t.common.resetDue = s.common.resetDue :=
    foldl_frame _ (by intro s a; grind [State.stageOne_keeps]) _ _
  clear_value t
  split
  · exact ⟨rfl, rfl, rfl⟩
  split
  · dsimp only; exact ht
  split
  · dsimp only; exact ht
  · dsimp only; exact State.countFails_keeps _ _ _

theorem State.stageItem_keeps (s : State) (x1 : Option (Fin 6)) (x2 : Place) (x3 : Option Segment) (x4 : List Nat) :
    (State.stageItem s x1 x2 x3 x4).2.pending = s.pending ∧ (State.stageItem s x1 x2 x3 x4).2.common.held = s.common.held ∧
      (State.stageItem s x1 x2 x3 x4).2.common.resetDue = s.common.resetDue := by
  unfold State.stageItem
  grind [State.reach_keeps, State.wakeFor_keeps, State.stageSet_keeps]

theorem State.closeOpen_keeps (s : State) (x1 : Place) :
    (State.closeOpen s x1).2.pending = s.pending ∧ (State.closeOpen s x1).2.common.held = s.common.held ∧ (State.closeOpen s
      x1).2.common.resetDue = s.common.resetDue := by
  unfold State.closeOpen
  grind [State.setOpenDirect_keeps, State.stageSet_keeps]

theorem State.barReject_keeps (s : State) (x1 : Fin 7) (x2 : Nat) (x3 : Nat) (x4 : Status) :
    (State.barReject s x1 x2 x3 x4).pending = s.pending ∧ (State.barReject s x1 x2 x3 x4).common.held = s.common.held ∧
      (State.barReject s x1 x2 x3 x4).common.resetDue = s.common.resetDue := by
  unfold State.barReject
  grind [State.onFn_keeps]

theorem State.barEnd_keeps (f : Fin 7) (i k : Nat) (r : Status × State) :
    (State.barEnd f i k r).pending = r.2.pending ∧ (State.barEnd f i k r).common.held = r.2.common.held ∧
    (State.barEnd f i k r).common.resetDue = r.2.common.resetDue := by
  unfold State.barEnd
  grind [State.barReject_keeps]

theorem State.slotCapture_keeps (s : State) (x1 : Option (Fin 6)) (x2 : Nat) (x3 : Nat) : s.Kept (State.slotCapture s x1 x2 x3).1 := by
  unfold State.slotCapture
  have := State.reach_keeps s x1
  have := State.wakeFor_keeps s
  split
  · exact ⟨rfl, rfl, rfl⟩
  · split
    · exact State.wakeFor_keeps _ _
    · exact State.reach_keeps _ _ _ _ ‹_›

theorem State.slotMiss_keeps (s : State) (x1 x2 : Nat) : s.Kept (State.slotMiss s x1 x2) := by
  unfold State.slotMiss
  split
  · exact State.nameFail_keeps _ _
  · exact ⟨rfl, rfl, rfl⟩

theorem State.slotRead_keeps (s : State) (x1 : Option (Fin 6)) (x2 : Fin 7) (x3 : Nat) (x4 : Nat) (x5 : Nat) (x6 : Nat) :
    (State.slotRead s x1 x2 x3 x4 x5 x6).1.pending = s.pending ∧ (State.slotRead s x1 x2 x3 x4 x5 x6).1.common.held = s.common.held ∧
      (State.slotRead s x1 x2 x3 x4 x5 x6).1.common.resetDue = s.common.resetDue := by
  have h := State.slotCapture_keeps s x1 x3 x4
  unfold State.slotRead
  grind [State.barReject_keeps, State.onFn_keeps]

theorem State.barEffect_keeps (s : State) (x1 : Option (Fin 6)) (x2 : Place) (x3 : Option Segment) (x4 : List Nat) :
    (State.barEffect s x1 x2 x3 x4).2.pending = s.pending ∧ (State.barEffect s x1 x2 x3 x4).2.common.held = s.common.held := by
  unfold State.barEffect
  grind [State.stageItem_keeps, State.writeItem_keeps]

theorem State.slotWrite_keeps (s : State) (x1 : Option (Fin 6)) (x2 : Fin 7) (x3 : Nat) (x4 : Nat) (x5 : Nat) (x6 : List Nat) :
    (State.slotWrite s x1 x2 x3 x4 x5 x6).pending = s.pending ∧ (State.slotWrite s x1 x2 x3 x4 x5 x6).common.held = s.common.held := by
  unfold State.slotWrite
  grind [State.barEffect_keeps, State.barEnd_keeps, State.barReject_keeps, State.onFn_keeps, State.slotMiss_keeps]

theorem State.windowRead_keeps (s : State) (x1 : Option (Fin 6)) (x2 : Fin 7) (x3 : Nat) (x4 : Nat) :
    (State.windowRead s x1 x2 x3 x4).1.pending = s.pending ∧ (State.windowRead s x1 x2 x3 x4).1.common.held = s.common.held ∧
      (State.windowRead s x1 x2 x3 x4).1.common.resetDue = s.common.resetDue := by
  unfold State.windowRead
  grind [State.barReject_keeps, State.reach_keeps, State.wakeFor_keeps]

theorem State.windowWrite_keeps (s : State) (x1 : Option (Fin 6)) (x2 : Fin 7) (x3 : Nat) (x4 : List Nat) :
    (State.windowWrite s x1 x2 x3 x4).pending = s.pending ∧ (State.windowWrite s x1 x2 x3 x4).common.held = s.common.held := by
  unfold State.windowWrite
  grind [State.barEffect_keeps, State.barEnd_keeps, State.barReject_keeps]

theorem State.lowClose_keeps (s : State) (x1 : Fin 7) :
    (State.lowClose s x1).pending = s.pending ∧ (State.lowClose s x1).common.held = s.common.held ∧ (State.lowClose s
      x1).common.resetDue = s.common.resetDue := by
  unfold State.lowClose
  grind [State.barEnd_keeps, State.closeOpen_keeps]

theorem State.readItem_keeps (s : State) (x1 : Option (Fin 6)) (x2 : Option Nat) (x3 : Bool) (x4 : Nat) (x5 : KdpItem) :
    (State.readItem s x1 x2 x3 x4 x5).1.pending = s.pending ∧ (State.readItem s x1 x2 x3 x4 x5).1.common.held = s.common.held ∧
      (State.readItem s x1 x2 x3 x4 x5).1.common.resetDue = s.common.resetDue := by
  unfold State.readItem
  (repeat' split) <;> grind [State.reach_keeps, State.wakeFor_keeps]

theorem State.readItems_keeps (x0 : Option (Fin 6)) (x1 : Option Nat) (x2 : Bool) (s : State) (x4 : Nat) (x5 : List KdpItem) :
    (State.readItems x0 x1 x2 s x4 x5).1.pending = s.pending ∧ (State.readItems x0 x1 x2 s x4 x5).1.common.held = s.common.held ∧
      (State.readItems x0 x1 x2 s x4 x5).1.common.resetDue = s.common.resetDue := by
  induction x5 generalizing s x4 with
  | nil => exact ⟨rfl, rfl, rfl⟩
  | cons i r ih =>
    unfold State.readItems
    have h := State.readItem_keeps s x0 x1 x2 (x4 - 12 * (r.length + 1)) i
    split
    · simp_all
    · rename_i t a heq
      have := ih t (x4 - 12 - (pad4 a.bytes).length)
      split <;> simp_all

theorem State.opRead_keeps (s : State) (x1 : Option (Fin 6)) (x2 : Option Nat) (x3 : Bool) (x4 : Nat) (x5 : List Nat) :
    (State.opRead s x1 x2 x3 x4 x5).1.pending = s.pending ∧ (State.opRead s x1 x2 x3 x4 x5).1.common.held = s.common.held ∧
      (State.opRead s x1 x2 x3 x4 x5).1.common.resetDue = s.common.resetDue := by
  unfold State.opRead
  grind [State.readItems_keeps]

theorem State.opSnapshot_keeps (s : State) (x1 : Option (Fin 6)) (x2 : Nat) (x3 : List Nat) :
    (State.opSnapshot s x1 x2 x3).1.pending = s.pending ∧ (State.opSnapshot s x1 x2 x3).1.common.held = s.common.held ∧
      (State.opSnapshot s x1 x2 x3).1.common.resetDue = s.common.resetDue := by
  unfold State.opSnapshot
  grind [State.opRead_keeps]

theorem State.opWriteItem_keeps (s : State) (x1 : Option (Fin 6)) (x2 : KdpItem) :
    (State.opWriteItem s x1 x2).2.pending = s.pending ∧ (State.opWriteItem s x1 x2).2.common.held = s.common.held := by
  unfold State.opWriteItem
  grind [State.writeItem_keeps]

theorem State.opWrite_keeps (s : State) (x1 : Option (Fin 6)) (x2 : List Nat) :
    (State.opWrite s x1 x2).1.pending = s.pending ∧ (State.opWrite s x1 x2).1.common.held = s.common.held := by
  unfold State.opWrite
  split
  · exact ⟨rfl, rfl⟩
  · refine ⟨?_, ?_⟩
    · exact foldl_const (fun (b : State × List (KdpItem × Status)) => b.1.pending) _ (by intro b a; grind [State.opWriteItem_keeps]) _ _
    · exact foldl_const (fun (b : State × List (KdpItem × Status)) => b.1.common.held) _ (by intro b a; grind [State.opWriteItem_keeps]) _ _

theorem State.opStage_keeps (s : State) (x1 : Option (Fin 6)) (x2 : List Nat) :
    (State.opStage s x1 x2).1.pending = s.pending ∧ (State.opStage s x1 x2).1.common.held = s.common.held ∧ (State.opStage s x1
      x2).1.common.resetDue = s.common.resetDue := by
  unfold State.opStage
  split
  · exact ⟨rfl, rfl, rfl⟩
  dsimp only
  generalize hr : List.foldl _ (s, s, []) _ = r
  have h : r.1.pending = s.pending ∧ r.1.common.held = s.common.held ∧ r.1.common.resetDue = s.common.resetDue := by
    rw [← hr]
    refine foldl_frame1 _ ?_ _ _
    intro s i
    have := State.reach_keeps s.1 x1; have := State.wakeFor_keeps s.1
    (repeat' split) <;> grind
  clear hr
  split
  · exact h
  · generalize List.filterMap _ _ = items
    have := State.stageSet_keeps r.1 items
    grind

theorem State.opSlate_keeps (s : State) (x1 : List Nat) :
    (State.opSlate s x1).1.pending = s.pending ∧ (State.opSlate s x1).1.common.held = s.common.held ∧ (State.opSlate s
      x1).1.common.resetDue = s.common.resetDue := by
  unfold State.opSlate
  grind [State.cancelSlate_keeps, State.discard_keeps, State.namePos_keeps, State.nameTime_keeps, State.rejectNaming_keeps,
    State.slateAns_keeps]

theorem State.modServer_keeps (s : State) (x1 : Server → Server) :
    (State.modServer s x1).pending = s.pending ∧ (State.modServer s x1).common.held = s.common.held ∧ (State.modServer s
      x1).common.resetDue = s.common.resetDue := by
  unfold State.modServer; grind

theorem State.udpOut_keeps (s : State) (x1 : Nat) (x2 : Nat) (x3 : Nat) (x4 : List Nat) :
    (State.udpOut s x1 x2 x3 x4).pending = s.pending ∧ (State.udpOut s x1 x2 x3 x4).common.held = s.common.held ∧ (State.udpOut s x1
      x2 x3 x4).common.resetDue = s.common.resetDue := by
  unfold State.udpOut
  grind [State.mapN_keeps]

theorem State.expireSessions_keeps (s : State) :
    (State.expireSessions s).pending = s.pending ∧ (State.expireSessions s).common.held = s.common.held ∧ (State.expireSessions
      s).common.resetDue = s.common.resetDue := by
  unfold State.expireSessions
  grind [State.modServer_keeps]

theorem State.lapseSubs_keeps (s : State) :
    (State.lapseSubs s).pending = s.pending ∧ (State.lapseSubs s).common.held = s.common.held ∧ (State.lapseSubs s).common.resetDue =
      s.common.resetDue := by
  unfold State.lapseSubs
  grind [State.modServer_keeps]

theorem State.opSubscribe_keeps (s : State) (x1 : Option (Fin 6)) (x2 : Datagram) (x3 : Nat) (x4 : List Nat) :
    (State.opSubscribe s x1 x2 x3 x4).1.pending = s.pending ∧ (State.opSubscribe s x1 x2 x3 x4).1.common.held = s.common.held ∧
      (State.opSubscribe s x1 x2 x3 x4).1.common.resetDue = s.common.resetDue := by
  unfold State.opSubscribe
  split
  · exact ⟨rfl, rfl, rfl⟩
  dsimp only
  split
  · exact State.modServer_keeps _ _
  split
  · exact ⟨rfl, rfl, rfl⟩
  split
  · exact ⟨rfl, rfl, rfl⟩
  generalize hr : List.foldl _ (s, []) _ = r
  have h : r.1.pending = s.pending ∧ r.1.common.held = s.common.held ∧ r.1.common.resetDue = s.common.resetDue := by
    rw [← hr]
    exact foldl_frame1 _ (by intro s a; have := State.reach_keeps s.1 x1; have := State.wakeFor_keeps s.1; (repeat' split) <;> grind) _ _
  clear hr
  (repeat' split) <;> grind [State.modServer_keeps]

theorem State.noteFlush_keeps (s : State) : s.Kept (State.noteFlush s) := by
  unfold State.noteFlush
  refine foldl_frame _ (fun s b => ?_) _ _
  split
  · exact State.Kept.ite (State.Kept.trans (State.udpOut_keeps _ _ _ _ _) (State.modServer_keeps _ _)) ⟨rfl, rfl, rfl⟩
  · exact ⟨rfl, rfl, rfl⟩

theorem State.notify_keeps (s : State) (x1 : Subscription) (x2 : Nat) :
    (State.notify s x1 x2).pending = s.pending ∧ (State.notify s x1 x2).common.held = s.common.held ∧ (State.notify s x1
      x2).common.resetDue = s.common.resetDue := by
  unfold State.notify
  grind [State.modServer_keeps, State.onN_keeps, State.noteFlush_keeps]

theorem State.notifyAll_keeps (s : State) :
    (State.notifyAll s).pending = s.pending ∧ (State.notifyAll s).common.held = s.common.held ∧ (State.notifyAll s).common.resetDue =
      s.common.resetDue := by
  unfold State.notifyAll
  exact foldl_frame _ (by intro s a; grind [State.notify_keeps]) _ s

theorem State.opcode_keeps (s : State) (x1 : Option (Fin 6)) (x2 : Option Datagram) (x3 : Nat) (x4 : KdpHeader) (x5 : List Nat) :
    (State.opcode s x1 x2 x3 x4 x5).1.pending = s.pending ∧ (State.opcode s x1 x2 x3 x4 x5).1.common.held = s.common.held := by
  unfold State.opcode
  grind [State.opRead_keeps, State.opSlate_keeps, State.opSnapshot_keeps, State.opStage_keeps, State.opSubscribe_keeps, State.opWrite_keeps]

theorem State.inSession_keeps (s : State) (x1 : Option (Fin 6)) (x2 : Datagram) (x3 : KdpHeader) (x4 : List Nat) :
    (State.inSession s x1 x2 x3 x4).1.pending = s.pending ∧ (State.inSession s x1 x2 x3 x4).1.common.held = s.common.held := by
  have hr : ∀ t : State, (t.opcode x1 (some x2) 1448 x3 x4).1.pending = t.pending ∧ (t.opcode x1 (some x2) 1448 x3 x4).1.common.held =
    t.common.held :=
    fun t => State.opcode_keeps t _ _ _ _ _
  have hm := State.modServer_keeps
  unfold State.inSession
  dsimp only
  split
  · split
    · exact ⟨rfl, rfl⟩
    · rw [(hm _ _).1, (hm _ _).2.1, (hr _).1, (hr _).2, (hm _ _).1, (hm _ _).2.1]; exact ⟨rfl, rfl⟩
  · split
    · rw [(State.onN_keeps _ _).1, (State.onN_keeps _ _).2.1, (hm _ _).1, (hm _ _).2.1]; exact ⟨rfl, rfl⟩
    · split
      · rw [(hm _ _).1, (hm _ _).2.1]; exact ⟨rfl, rfl⟩
      · rw [(hm _ _).1, (hm _ _).2.1, (hr _).1, (hr _).2, (hm _ _).1, (hm _ _).2.1, (hm _ _).1, (hm _ _).2.1]; exact ⟨rfl, rfl⟩

theorem State.kdpServe_keeps (s : State) (x1 : Option (Fin 6)) (x2 : Datagram) (x3 : Nat → Bool) :
    (State.kdpServe s x1 x2 x3).pending = s.pending ∧ (State.kdpServe s x1 x2 x3).common.held = s.common.held := by
  unfold State.kdpServe
  grind [State.inSession_keeps, State.mapN_keeps, State.onN_keeps]

theorem State.mailboxRun_keeps (s : State) (x1 : Option (Fin 6)) :
    (State.mailboxRun s x1).1.pending = s.pending ∧ (State.mailboxRun s x1).1.common.held = s.common.held := by
  unfold State.mailboxRun
  grind [State.onN_keeps, State.opcode_keeps]

theorem State.mailboxGo_keeps (s : State) (x1 : Option (Fin 6)) :
    (State.mailboxGo s x1).pending = s.pending ∧ (State.mailboxGo s x1).common.held = s.common.held := by
  unfold State.mailboxGo
  grind [State.mailboxRun_keeps, State.modServer_keeps, State.onN_keeps]

theorem State.mailboxDone_keeps (s : State) :
    (State.mailboxDone s).pending = s.pending ∧ (State.mailboxDone s).common.held = s.common.held ∧ (State.mailboxDone
      s).common.resetDue = s.common.resetDue := by
  unfold State.mailboxDone
  grind [State.mailboxClear_keeps, State.modServer_keeps, State.onN_keeps]

theorem State.uncorrectable_keeps (s : State) (x1 : Fin 7) (x2 : Nat) (x3 : Bool) :
    (State.uncorrectable s x1 x2 x3).pending = s.pending ∧ (State.uncorrectable s x1 x2 x3).common.held = s.common.held ∧
      (State.uncorrectable s x1 x2 x3).common.resetDue = s.common.resetDue := State.onFn_keeps ..

theorem State.nonFatal_keeps (s : State) (x1 : Fin 7) (x2 : Nat) (x3 : Bool) :
    (State.nonFatal s x1 x2 x3).pending = s.pending ∧ (State.nonFatal s x1 x2 x3).common.held = s.common.held ∧ (State.nonFatal s x1
      x2 x3).common.resetDue = s.common.resetDue := by
  unfold State.nonFatal
  grind [State.uncorrectable_keeps, State.onN_keeps]

theorem State.correctable_keeps (s : State) (x1 : Fin 7) (x2 : Nat) :
    (State.correctable s x1 x2).pending = s.pending ∧ (State.correctable s x1 x2).common.held = s.common.held ∧ (State.correctable s
      x1 x2).common.resetDue = s.common.resetDue := by
  unfold State.correctable
  grind [State.onFn_keeps, State.onN_keeps]

theorem State.complete_keeps (s : State) (x1 : Fin 7) (x2 : Nat) (x3 : List Nat) :
    (State.complete s x1 x2 x3).pending = s.pending ∧ (State.complete s x1 x2 x3).common.held = s.common.held ∧ (State.complete s x1
      x2 x3).common.resetDue = s.common.resetDue := by
  unfold State.complete
  grind [State.onFn_keeps]

theorem State.unsupported_keeps (s : State) (x1 : Fin 7) (x2 : Bool) :
    (State.unsupported s x1 x2).pending = s.pending ∧ (State.unsupported s x1 x2).common.held = s.common.held ∧ (State.unsupported s
      x1 x2).common.resetDue = s.common.resetDue := by
  unfold State.unsupported
  grind [State.complete_keeps, State.nonFatal_keeps]

theorem State.hostGate_keeps (s : State) (f : Fin 7) (r : Bool) (g : State → State) (hg : ∀ s, (g s).pending = s.pending ∧ (g
    s).common.held = s.common.held ∧ (g s).common.resetDue = s.common.resetDue) :
    (State.hostGate s f r g).pending = s.pending ∧ (State.hostGate s f r g).common.held = s.common.held ∧ (State.hostGate s f r
      g).common.resetDue = s.common.resetDue := by
  unfold State.hostGate
  grind [State.unsupported_keeps]

theorem State.hostRead_keeps (s : State) (x1 : Fin 7) (x2 : State → State × List Nat) (h2 : ∀ s, (x2 s).1.pending = s.pending ∧ (x2
    s).1.common.held = s.common.held ∧ (x2 s).1.common.resetDue = s.common.resetDue) :
    (State.hostRead s x1 x2).pending = s.pending ∧ (State.hostRead s x1 x2).common.held = s.common.held ∧ (State.hostRead s x1
      x2).common.resetDue = s.common.resetDue := by
  unfold State.hostRead
  exact State.hostGate_keeps _ _ _ _ (fun s => State.Kept.trans (h2 s) (State.complete_keeps ..))

theorem State.hostWrite_keeps (s : State) (f : Fin 7) (g : State → State) (hg : ∀ s, (g s).pending = s.pending ∧ (g s).common.held =
    s.common.held) :
    (State.hostWrite s f g).pending = s.pending ∧ (State.hostWrite s f g).common.held = s.common.held := by
  unfold State.hostWrite State.hostGate
  grind [State.unsupported_keeps]

theorem State.hostWrite_due (s : State) (f : Fin 7) (g : State → State) (hg : ∀ s, (g s).common.resetDue = s.common.resetDue) :
    (State.hostWrite s f g).common.resetDue = s.common.resetDue := by
  unfold State.hostWrite State.hostGate
  grind [State.unsupported_keeps]

theorem State.pageWrite_keeps (s : State) (x1 : Option (Fin 6)) (x2 : Fin 7) (x3 : Nat) (x4 : Nat) :
    (State.pageWrite s x1 x2 x3 x4).pending = s.pending ∧ (State.pageWrite s x1 x2 x3 x4).common.held = s.common.held := by
  unfold State.pageWrite
  grind [State.barReject_keeps, State.lowClose_keeps, State.mailboxGo_keeps, State.modServer_keeps, State.onFn_keeps]

theorem State.bar0Read_keeps (s : State) (x1 : Option (Fin 6)) (x2 : Fin 7) (x3 : Nat) (x4 : Nat) :
    (State.bar0Read s x1 x2 x3 x4).1.pending = s.pending ∧ (State.bar0Read s x1 x2 x3 x4).1.common.held = s.common.held ∧
      (State.bar0Read s x1 x2 x3 x4).1.common.resetDue = s.common.resetDue := by
  unfold State.bar0Read
  grind [State.slotRead_keeps, State.windowRead_keeps]

theorem State.bar0Write_keeps (s : State) (x1 : Option (Fin 6)) (x2 : Fin 7) (x3 : Nat) (x4 : List Nat) :
    (State.bar0Write s x1 x2 x3 x4).pending = s.pending ∧ (State.bar0Write s x1 x2 x3 x4).common.held = s.common.held := by
  unfold State.bar0Write
  grind [State.modServer_keeps, State.pageWrite_keeps, State.slotWrite_keeps, State.windowWrite_keeps]

theorem State.bar2Access_keeps (s : State) (x1 : Fin 7) (x2 : Bar2Access) :
    (State.bar2Access s x1 x2).pending = s.pending ∧ (State.bar2Access s x1 x2).common.held = s.common.held ∧ (State.bar2Access s
      x1 x2).common.resetDue = s.common.resetDue := by
  unfold State.bar2Access
  grind [State.onChan_keeps, State.onFn_keeps]

theorem State.barRead_keeps (s : State) (x1 : Option (Fin 6)) (x2 : Fin 7) (x3 : HostBar) (x4 : Nat) (x5 : Nat) :
    (State.barRead s x1 x2 x3 x4 x5).pending = s.pending ∧ (State.barRead s x1 x2 x3 x4 x5).common.held = s.common.held ∧
      (State.barRead s x1 x2 x3 x4 x5).common.resetDue = s.common.resetDue := by
  unfold State.barRead
  split
  · exact State.hostRead_keeps _ _ _ (fun s => State.bar0Read_keeps ..)
  · exact State.hostGate_keeps _ _ _ _ (fun s => State.bar2Access_keeps ..)

theorem State.barWrite_keeps (s : State) (x1 : Option (Fin 6)) (x2 : Fin 7) (x3 : HostBar) (x4 : Nat) (x5 : List Nat) :
    (State.barWrite s x1 x2 x3 x4 x5).pending = s.pending ∧ (State.barWrite s x1 x2 x3 x4 x5).common.held = s.common.held := by
  unfold State.barWrite
  refine State.hostWrite_keeps _ _ _ (fun s => ?_)
  split
  · exact State.bar0Write_keeps _ _ _ _ _
  · exact ⟨(State.bar2Access_keeps _ _ _).1, (State.bar2Access_keeps _ _ _).2.1⟩

theorem State.windowGo_keeps (s : State) (x1 : Fin 6) (x2 : MemReq) :
    (State.windowGo s x1 x2).pending = s.pending ∧ (State.windowGo s x1 x2).common.held = s.common.held ∧ (State.windowGo s x1
      x2).common.resetDue = s.common.resetDue := by
  unfold State.windowGo
  grind [State.onFn_keeps, State.onChan_keeps, State.report_keeps]

theorem State.bar4Read_keeps (s : State) (x1 : Fin 6) (x2 : Nat) (x3 : Nat) (x4 : Nat) :
    (State.bar4Read s x1 x2 x3 x4).pending = s.pending ∧ (State.bar4Read s x1 x2 x3 x4).common.held = s.common.held ∧ (State.bar4Read
      s x1 x2 x3 x4).common.resetDue = s.common.resetDue := by
  unfold State.bar4Read
  grind [State.unsupported_keeps, State.windowGo_keeps]

theorem State.bar4Write_keeps (s : State) (x1 : Fin 6) (x2 : Nat) (x3 : List Nat) :
    (State.bar4Write s x1 x2 x3).pending = s.pending ∧ (State.bar4Write s x1 x2 x3).common.held = s.common.held ∧ (State.bar4Write s
      x1 x2 x3).common.resetDue = s.common.resetDue := by
  unfold State.bar4Write
  grind [State.unsupported_keeps, State.windowGo_keeps]

theorem State.busMasterSet_keeps (s : State) (x1 : Fin 7) (x2 : Bool) :
    (State.busMasterSet s x1 x2).pending = s.pending ∧ (State.busMasterSet s x1 x2).common.held = s.common.held ∧ (State.busMasterSet
      s x1 x2).common.resetDue = s.common.resetDue := by
  unfold State.busMasterSet
  grind [State.onFn_keeps]

theorem State.configValue_keeps (s : State) (x1 : Fin 7) (x2 : ConfigReg) :
    (State.configValue s x1 x2).2.pending = s.pending ∧ (State.configValue s x1 x2).2.common.held = s.common.held ∧ (State.configValue
      s x1 x2).2.common.resetDue = s.common.resetDue := by
  unfold State.configValue
  grind [State.onFn_keeps]

theorem State.configPut_keeps (s : State) (x1 : Fin 7) (x2 : ConfigReg) (x3 : Nat) :
    (State.configPut s x1 x2 x3).pending = s.pending ∧ (State.configPut s x1 x2 x3).common.held = s.common.held ∧ (State.configPut s
      x1 x2 x3).common.resetDue = s.common.resetDue := by
  unfold State.configPut
  grind [State.busMasterSet_keeps, State.flr_keeps, State.modHost_keeps, State.onFn_keeps]

theorem State.configReady_keeps (s : State) :
    (State.configReady s).2.pending = s.pending ∧ (State.configReady s).2.common.held = s.common.held ∧ (State.configReady
      s).2.common.resetDue = s.common.resetDue := by
  unfold State.configReady
  grind [State.mapN_keeps, State.modHost_keeps]

theorem State.configRequest_keeps (s : State) (x1 : Fin 7) (x2 : ConfigReg) (x3 : Option Nat) :
    (State.configRequest s x1 x2 x3).pending = s.pending ∧ (State.configRequest s x1 x2 x3).common.held = s.common.held ∧
      (State.configRequest s x1 x2 x3).common.resetDue = s.common.resetDue := by
  unfold State.configRequest
  grind [State.complete_keeps, State.configPut_keeps, State.configReady_keeps, State.configValue_keeps]

theorem State.linkL0_keeps (s : State) (x1 : Nat) (x2 : Nat) (x3 : Bool) (x4 : Bool) :
    (State.linkL0 s x1 x2 x3 x4).pending = s.pending ∧ (State.linkL0 s x1 x2 x3 x4).common.held = s.common.held ∧ (State.linkL0 s x1
      x2 x3 x4).common.resetDue = s.common.resetDue := by
  unfold State.linkL0
  grind [State.onN_keeps, State.onAll_keeps, State.takeLimits_keeps]

theorem State.portReset_keeps (s : State) (x1 : Nat) :
    (State.portReset s x1).pending = s.pending ∧ (State.portReset s x1).common.held = s.common.held ∧ (State.portReset s
      x1).common.resetDue = s.common.resetDue := by
  unfold State.portReset
  grind [State.hostReset_keeps, State.linkExit_keeps]

theorem State.fatal_keeps (s : State) (x1 : Fin 7) (x2 : Nat) (x3 : Bool) :
    (State.fatal s x1 x2 x3).pending = s.pending ∧ (State.fatal s x1 x2 x3).common.held = s.common.held ∧ (State.fatal s x1 x2
      x3).common.resetDue = s.common.resetDue := by
  unfold State.fatal
  grind [State.uncorrectable_keeps, State.onN_keeps, State.portReset_keeps]

theorem State.cplTimeout_keeps (s : State) (x1 : Fin 6) (x2 : Nat) (x3 : Nat) :
    (State.cplTimeout s x1 x2 x3).pending = s.pending ∧ (State.cplTimeout s x1 x2 x3).common.held = s.common.held ∧ (State.cplTimeout
      s x1 x2 x3).common.resetDue = s.common.resetDue := by
  unfold State.cplTimeout
  grind [State.nonFatal_keeps, State.onChan_keeps, State.onN_keeps]

theorem State.boot_keeps (s : State) (x1 : Nat) (x2 : Nat) (x3 : Option StoreDev) :
    (State.boot s x1 x2 x3).pending = s.pending := by
  unfold State.boot
  grind [State.onTb_keeps, State.startUp_keeps]

theorem State.dueReset_keeps (s : State) :
    (State.dueReset s).pending = s.pending := by
  unfold State.dueReset
  grind [State.boot_keeps, State.deviceDown_keeps]

theorem State.viaWrite_keeps (s : State) (x1 : Via) (x2 : Nat) (x3 : Nat) (x4 : Option Segment) (x5 : List Nat) :
    (State.viaWrite s x1 x2 x3 x4 x5).pending = s.pending ∧ (State.viaWrite s x1 x2 x3 x4 x5).common.held = s.common.held := by
  unfold State.viaWrite
  dsimp only
  split
  · split
    · exact ⟨rfl, rfl⟩
    · exact State.barEffect_keeps _ _ _ _ _
  · split
    · refine State.hostWrite_keeps _ _ _ (fun s => ?_)
      rw [(State.barEnd_keeps _ _ _ _).1, (State.barEnd_keeps _ _ _ _).2.1]
      split
      · exact ⟨rfl, rfl⟩
      · exact State.barEffect_keeps _ _ _ _ _
    · exact ⟨rfl, rfl⟩

theorem State.viaScalar_keeps (s : State) (x1 : Via) (x2 : Nat) (x3 : Nat) (x4 : Nat) :
    (State.viaScalar s x1 x2 x3 x4).pending = s.pending ∧ (State.viaScalar s x1 x2 x3 x4).common.held = s.common.held := by
  unfold State.viaScalar
  grind [State.viaWrite_keeps]

theorem State.viaChan_keeps (s : State) (x1 : Via) (x2 : Fin 6) (x3 : Nat) (x4 : Nat) (x5 : Nat) :
    (State.viaChan s x1 x2 x3 x4 x5).pending = s.pending ∧ (State.viaChan s x1 x2 x3 x4 x5).common.held = s.common.held := by
  unfold State.viaChan
  grind [State.viaWrite_keeps]

theorem State.viaElem_keeps (s : State) (x1 : Via) (x2 : Nat) (x3 : Nat) (x4 : Nat) (x5 : Nat) :
    (State.viaElem s x1 x2 x3 x4 x5).pending = s.pending ∧ (State.viaElem s x1 x2 x3 x4 x5).common.held = s.common.held := by
  unfold State.viaElem
  grind [State.viaWrite_keeps]

theorem State.dictRequest_keeps (s : State) (x1 : Option (Fin 6)) (x2 : DictReq) :
    (State.dictRequest s x1 x2).pending = s.pending ∧ (State.dictRequest s x1 x2).common.held = s.common.held := by
  unfold State.dictRequest
  split
  · exact State.kdpServe_keeps _ _ _ _
  · exact State.hostWrite_keeps _ _ _ (fun s => State.mailboxGo_keeps _ _)
  · exact ⟨(State.hostRead_keeps _ _ _ (fun s => State.bar0Read_keeps _ _ _ _ _)).1, (State.hostRead_keeps _ _ _ (fun s =>
    State.bar0Read_keeps _ _ _ _ _)).2.1⟩
  · exact State.hostWrite_keeps _ _ _ (fun s => State.bar0Write_keeps _ _ _ _ _)
  · exact ⟨(State.hostRead_keeps _ _ _ (fun s => State.windowRead_keeps _ _ _ _ _)).1, (State.hostRead_keeps _ _ _ (fun s =>
    State.windowRead_keeps _ _ _ _ _)).2.1⟩
  · exact State.hostWrite_keeps _ _ _ (fun s => State.windowWrite_keeps _ _ _ _ _)

theorem State.sendPosition_keeps (s : State) :
    (State.sendPosition s).pending = s.pending ∧ (State.sendPosition s).common.held = s.common.held ∧ (State.sendPosition
      s).common.resetDue = s.common.resetDue := by
  unfold State.sendPosition; grind

theorem State.positionUpdate_keeps (s : State) :
    (State.positionUpdate s).pending = s.pending ∧ (State.positionUpdate s).common.held = s.common.held ∧ (State.positionUpdate
      s).common.resetDue = s.common.resetDue := by
  unfold State.positionUpdate
  grind [State.mapN_keeps, State.onEnc_keeps, State.sendPosition_keeps, State.slatePosition_keeps]

theorem State.timeUpdate_keeps (s : State) :
    (State.timeUpdate s).pending = s.pending ∧ (State.timeUpdate s).common.held = s.common.held ∧ (State.timeUpdate s).common.resetDue
      = s.common.resetDue := by
  unfold State.timeUpdate
  have h := State.onTb_keeps s (tbRun 5)
  generalize s.onTb (tbRun 5) = t at h ⊢
  dsimp only
  refine State.Kept.trans ?_ (State.noteFlush_keeps _)
  refine State.Kept.trans ?_ (State.onBw_keeps _ _)
  exact h

theorem State.publish_keeps (s : State) (x1 : Fin 6) (x2 : Part) :
    (State.publish s x1 x2).pending = s.pending ∧ (State.publish s x1 x2).common.held = s.common.held ∧ (State.publish s x1
      x2).common.resetDue = s.common.resetDue := by
  unfold State.publish
  grind [State.onUp_keeps]

theorem State.slateKdp_keeps (s : State) (x1 : Datagram) (x2 : Nat → Bool) :
    (State.slateKdp s x1 x2).pending = s.pending ∧ (State.slateKdp s x1 x2).common.held = s.common.held := by
  unfold State.slateKdp
  grind [State.kdpServe_keeps]

theorem State.slateCmd_keeps (s : State) (x1 : SlateReq) (x2 : Nat) (x3 : Nat) (x4 : Nat) :
    (State.slateCmd s x1 x2 x3 x4).pending = s.pending ∧ (State.slateCmd s x1 x2 x3 x4).common.held = s.common.held := by
  unfold State.slateCmd
  grind [State.slateKdp_keeps, State.viaScalar_keeps]

theorem State.arpAnswer_keeps (s : State) (x1 : Fin 2) (x2 : Nat) :
    (State.arpAnswer s x1 x2).pending = s.pending ∧ (State.arpAnswer s x1 x2).common.held = s.common.held ∧ (State.arpAnswer s x1
      x2).common.resetDue = s.common.resetDue := by
  unfold State.arpAnswer
  grind [State.mapN_keeps]

theorem State.echoAnswer_keeps (s : State) (x1 : Fin 2) (x2 : Nat) (x3 : Nat) (x4 : List Nat) :
    (State.echoAnswer s x1 x2 x3 x4).pending = s.pending ∧ (State.echoAnswer s x1 x2 x3 x4).common.held = s.common.held ∧
      (State.echoAnswer s x1 x2 x3 x4).common.resetDue = s.common.resetDue := by
  unfold State.echoAnswer
  grind [State.mapN_keeps]

theorem State.encoderEdge_keeps (s : State) (x1 : Nat) (x2 x3 : Bool) (x4 : Nat × Nat) (x5 : Nat) : s.Kept (State.encoderEdge s x1 x2 x3 x4 x5) := by
  unfold State.encoderEdge
  grind [State.onEncWith_keeps]

theorem State.encoderIndex_keeps (s : State) (x1 : Nat) (x2 : Bool) (x3 : Nat) : s.Kept (State.encoderIndex s x1 x2 x3) := by
  unfold State.encoderIndex
  grind [State.onEncWith_keeps]

theorem State.netChange_keeps (s : State) (x1 : Nat) (x2 : Bool) :
    (State.netChange s x1 x2).pending = s.pending ∧ (State.netChange s x1 x2).common.held = s.common.held ∧ (State.netChange s x1
      x2).common.resetDue = s.common.resetDue := by
  unfold State.netChange
  grind [State.onTb_keeps]

theorem State.laneAct_keeps (s : State) (x1 : LaneRef) (x2 : Nat → LaneNode → LaneNode) :
    (State.laneAct s x1 x2).pending = s.pending ∧ (State.laneAct s x1 x2).common.held = s.common.held ∧ (State.laneAct s x1
      x2).common.resetDue = s.common.resetDue := by
  unfold State.laneAct
  grind [State.onDuplex_keeps, State.onUp_keeps]

theorem State.laneLoss_keeps (s : State) (x1 : LaneRef) :
    (State.laneLoss s x1).pending = s.pending ∧ (State.laneLoss s x1).common.held = s.common.held ∧ (State.laneLoss s
      x1).common.resetDue = s.common.resetDue := by
  unfold State.laneLoss
  grind [State.onBw_keeps, State.onDuplex_keeps, State.onTb_keeps, State.onUp_keeps]

theorem State.scanEndAt_keeps (s : State) (x1 : LaneRef) (x2 : Nat) :
    (State.scanEndAt s x1 x2).pending = s.pending ∧ (State.scanEndAt s x1 x2).common.held = s.common.held ∧ (State.scanEndAt s x1
      x2).common.resetDue = s.common.resetDue := by
  unfold State.scanEndAt
  grind [State.duplexScanStop_keeps, State.onUp_keeps]

theorem State.losAssert_keeps (s : State) (x1 : LaneRef) :
    (State.losAssert s x1).pending = s.pending ∧ (State.losAssert s x1).common.held = s.common.held ∧ (State.losAssert s
      x1).common.resetDue = s.common.resetDue := by
  unfold State.losAssert
  grind [State.laneAct_keeps, State.laneLoss_keeps, State.scanEndAt_keeps]

theorem State.lolAct_keeps (s : State) (x1 : LaneRef) (x2 : Nat → LaneNode → LaneNode) : s.Kept (State.lolAct s x1 x2) := by
  unfold State.lolAct
  extract_lets was t
  have h : s.Kept t := State.laneAct_keeps _ _ _
  exact State.Kept.ite h (h.trans (State.laneLoss_keeps _ _))

theorem State.cdrLock_keeps (s : State) (x1 : LaneRef) (x2 : Int) : s.Kept (State.cdrLock s x1 x2) := by
  unfold State.cdrLock; exact State.lolAct_keeps _ _ _

theorem State.laneTrim_keeps (s : State) (x1 : LaneRef) (x2 : Nat → LaneNode → LaneNode) : s.Kept (State.laneTrim s x1 x2) := by
  unfold State.laneTrim
  split
  · exact State.onUp_keeps _ _ _
  · exact State.onDuplex_keeps _ _ _

theorem State.trimUpdate_keeps (s : State) (x1 : LaneRef) : s.Kept (State.trimUpdate s x1) := by
  unfold State.trimUpdate; exact State.trimAt_keeps _ _

theorem State.laneWrite_keeps (s : State) (x1 : Via) (x2 : LaneRef) (x3 : Nat) (x4 : Nat) (x5 : Nat) :
    (State.laneWrite s x1 x2 x3 x4 x5).pending = s.pending ∧ (State.laneWrite s x1 x2 x3 x4 x5).common.held = s.common.held := by
  unfold State.laneWrite
  grind [State.viaChan_keeps, State.viaScalar_keeps]

theorem State.scanWrite_keeps (s : State) (x1 : Via) (x2 : ScanRef) (x3 : Nat) :
    (State.scanWrite s x1 x2 x3).pending = s.pending ∧ (State.scanWrite s x1 x2 x3).common.held = s.common.held := by
  unfold State.scanWrite
  grind [State.viaChan_keeps, State.viaScalar_keeps]

theorem State.scanPointDone_keeps (s : State) (x1 : ScanRef) (x2 : Nat) :
    (State.scanPointDone s x1 x2).pending = s.pending ∧ (State.scanPointDone s x1 x2).common.held = s.common.held ∧
      (State.scanPointDone s x1 x2).common.resetDue = s.common.resetDue := by
  unfold State.scanPointDone
  grind [State.onUp_keeps]

theorem State.frontLine_keeps (s : State) (x1 : Fin 6) (x2 : Fin 4) :
    (State.frontLine s x1 x2).pending = s.pending ∧ (State.frontLine s x1 x2).common.held = s.common.held ∧ (State.frontLine s x1
      x2).common.resetDue = s.common.resetDue := by
  unfold State.frontLine
  grind [State.calSync_keeps, State.onCal_keeps, State.settle_keeps]

theorem State.unexpected_keeps (s : State) (x1 : Fin 7) :
    (State.unexpected s x1).pending = s.pending ∧ (State.unexpected s x1).common.held = s.common.held ∧ (State.unexpected s
      x1).common.resetDue = s.common.resetDue := by
  unfold State.unexpected
  grind [State.nonFatal_keeps]

theorem State.readDone_keeps (s : State) (x1 : Fin 6) (x2 : Nat) (x3 : Nat) (x4 : List Nat) :
    (State.readDone s x1 x2 x3 x4).pending = s.pending ∧ (State.readDone s x1 x2 x3 x4).common.held = s.common.held ∧ (State.readDone
      s x1 x2 x3 x4).common.resetDue = s.common.resetDue := by
  unfold State.readDone
  grind [State.nonFatal_keeps, State.onChan_keeps, State.unexpected_keeps]

theorem State.perstLow_keeps (s : State) :
    (State.perstLow s).pending = s.pending ∧ (State.perstLow s).common.held = s.common.held ∧ (State.perstLow s).common.resetDue =
      s.common.resetDue := by
  unfold State.perstLow
  grind [State.modHost_keeps, State.portReset_keeps]

theorem State.perstHigh_keeps (s : State) :
    (State.perstHigh s).pending = s.pending ∧ (State.perstHigh s).common.held = s.common.held ∧ (State.perstHigh s).common.resetDue =
      s.common.resetDue := by
  unfold State.perstHigh
  grind [State.modHost_keeps, State.onN_keeps, State.takeLimits_keeps]

theorem State.perstHeld_keeps (s : State) (x1 : Bool) :
    (State.perstHeld s x1).pending = s.pending ∧ (State.perstHeld s x1).common.held = s.common.held ∧ (State.perstHeld s
      x1).common.resetDue = s.common.resetDue := by
  unfold State.perstHeld
  grind [State.modHost_keeps]

theorem State.flrDone_keeps (s : State) (x1 : Fin 7) :
    (State.flrDone s x1).pending = s.pending ∧ (State.flrDone s x1).common.held = s.common.held ∧ (State.flrDone s x1).common.resetDue
      = s.common.resetDue := by
  unfold State.flrDone
  grind [State.flrEnd_keeps, State.onN_keeps]

theorem State.pcieError_keeps (s : State) (x1 : Fin 7) (x2 : PcieError) :
    (State.pcieError s x1 x2).pending = s.pending ∧ (State.pcieError s x1 x2).common.held = s.common.held ∧ (State.pcieError s x1
      x2).common.resetDue = s.common.resetDue := by
  unfold State.pcieError
  grind [State.nonFatal_keeps, State.correctable_keeps, State.fatal_keeps, State.onN_keeps]

theorem State.accept1_keeps (s : State) (x1 : Nat) (x2 : LogRec) :
    (State.accept1 s x1 x2).pending = s.pending ∧ (State.accept1 s x1 x2).common.held = s.common.held ∧ (State.accept1 s x1
      x2).common.resetDue = s.common.resetDue := by
  unfold State.accept1
  grind [State.mapN_keeps, State.onChan_keeps, State.onLogs_keeps, State.putChan_keeps, State.putChanLog_keeps, State.tidy_keeps]

theorem State.acceptNext_keeps (s : State) :
    (State.acceptNext s).pending = s.pending ∧ (State.acceptNext s).common.held = s.common.held ∧ (State.acceptNext s).common.resetDue
      = s.common.resetDue := by
  unfold State.acceptNext
  grind [State.accept1_keeps]

theorem State.ringLeave_keeps (s : State) (x1 : Fin 7) :
    (State.ringLeave s x1).pending = s.pending ∧ (State.ringLeave s x1).common.held = s.common.held ∧ (State.ringLeave s
      x1).common.resetDue = s.common.resetDue := by
  unfold State.ringLeave
  grind [State.onChan_keeps, State.onLog_keeps, State.putChanLog_keeps]

theorem State.arpReply_keeps (s : State) (x1 : Nat) (x2 : Nat) (x3 : Nat) :
    (State.arpReply s x1 x2 x3).pending = s.pending ∧ (State.arpReply s x1 x2 x3).common.held = s.common.held ∧ (State.arpReply s x1
      x2 x3).common.resetDue = s.common.resetDue := by
  unfold State.arpReply
  grind [State.tidy_keeps]

theorem State.storeDone_keeps (s : State) (x1 : Nat) :
    (State.storeDone s x1).pending = s.pending ∧ (State.storeDone s x1).common.held = s.common.held ∧ (State.storeDone s
      x1).common.resetDue = s.common.resetDue := by
  unfold State.storeDone
  grind [State.onCal_keeps]

theorem State.calFinish_keeps (s : State) :
    (State.calFinish s).pending = s.pending ∧ (State.calFinish s).common.held = s.common.held ∧ (State.calFinish s).common.resetDue =
      s.common.resetDue := by
  unfold State.calFinish
  grind [State.calSync_keeps, State.onN_keeps, State.settle_keeps, State.stageBank_keeps]

theorem State.wakeEnd_keeps (s : State) (x1 : Fin 6) :
    (State.wakeEnd s x1).pending = s.pending ∧ (State.wakeEnd s x1).common.held = s.common.held ∧ (State.wakeEnd s x1).common.resetDue
      = s.common.resetDue := by
  unfold State.wakeEnd
  grind [State.onUp_keeps, State.taWoken_keeps]

theorem State.porstLow_keeps (s : State) :
    (State.porstLow s).pending = s.pending := by
  unfold State.porstLow
  grind [State.deviceDown_keeps]

theorem State.holdEnd_keeps (s : State) (x1 : Held) (x2 : Nat) (x3 : Nat) (x4 : Option StoreDev) :
    (State.holdEnd s x1 x2 x3 x4).pending = s.pending := by
  unfold State.holdEnd
  grind [State.boot_keeps]

theorem State.ringPosition_keeps (s : State) (x1 : Nat) (x2 : RingFrame) :
    (State.ringPosition s x1 x2).pending = s.pending ∧ (State.ringPosition s x1 x2).common.held = s.common.held ∧ (State.ringPosition
      s x1 x2).common.resetDue = s.common.resetDue := by
  unfold State.ringPosition
  grind [State.edgeEntry_keeps, State.onN_keeps, State.tidy_keeps, State.motionChange_keeps]

theorem State.ringCommit_keeps (s : State) :
    (State.ringCommit s).pending = s.pending ∧ (State.ringCommit s).common.held = s.common.held ∧ (State.ringCommit s).common.resetDue
      = s.common.resetDue := by
  unfold State.ringCommit
  grind [State.commitNow_keeps, State.mapN_keeps]

theorem State.ringSlate_keeps (s : State) (x1 : Nat) (x2 : RingFrame) :
    (State.ringSlate s x1 x2).pending = s.pending ∧ (State.ringSlate s x1 x2).common.held = s.common.held ∧ (State.ringSlate s x1
      x2).common.resetDue = s.common.resetDue := by
  have hf := foldl_frame (fun (s : State) (_ : Nat) => s.ringCommit) (fun s _ => State.ringCommit_keeps s)
  unfold State.ringSlate
  grind [State.onRing_keeps]

theorem State.ringEcho_keeps (s : State) :
    (State.ringEcho s).pending = s.pending ∧ (State.ringEcho s).common.held = s.common.held ∧ (State.ringEcho s).common.resetDue =
      s.common.resetDue := by
  unfold State.ringEcho
  grind [State.onN_keeps, State.taEcho_keeps]

theorem State.ringRelay_keeps (s : State) (x1 : Nat) (x2 : RingFrame) :
    (State.ringRelay s x1 x2).pending = s.pending ∧ (State.ringRelay s x1 x2).common.held = s.common.held ∧ (State.ringRelay s x1
      x2).common.resetDue = s.common.resetDue := by
  unfold State.ringRelay
  generalize List.finRange 6 = l
  split
  rename_i r what hw
  dsimp only
  have ht := State.tidy_keeps { s with common := { s.common with n := r.n, bw := r.b, enc := r.e } }
  generalize State.tidy { s with common := { s.common with n := r.n, bw := r.b, enc := r.e } } = t at ht ⊢
  cases what with
  | none => exact ht
  | some w =>
    obtain ⟨k0, c0, u0, y0⟩ := w
    have hf := foldl_frame (fun (s : State) (d : Fin 6) => s.onLive d (·.relayArrive k0 c0 u0 y0)) (fun a b => State.onLive_keeps a b
      (·.relayArrive k0 c0 u0 y0)) l t
    exact ⟨hf.1.trans ht.1, hf.2.1.trans ht.2.1, hf.2.2.trans ht.2.2⟩

theorem State.ringDrop_keeps (s : State) (x1 : Nat) :
    (State.ringDrop s x1).pending = s.pending ∧ (State.ringDrop s x1).common.held = s.common.held ∧ (State.ringDrop s
      x1).common.resetDue = s.common.resetDue := by
  unfold State.ringDrop
  grind [State.onN_keeps]

theorem State.ringSend_keeps (s : State) :
    (State.ringSend s).pending = s.pending ∧ (State.ringSend s).common.held = s.common.held ∧ (State.ringSend s).common.resetDue =
      s.common.resetDue := by
  unfold State.ringSend
  grind [State.onBw_keeps]

theorem State.ringPort_keeps (s : State) (x1 : Nat) (x2 : Nat) :
    (State.ringPort s x1 x2).pending = s.pending ∧ (State.ringPort s x1 x2).common.held = s.common.held ∧ (State.ringPort s x1
      x2).common.resetDue = s.common.resetDue := by
  unfold State.ringPort
  grind [State.onRing_keeps]

end Sys2Proof.Machine
end

