-- ==== Sys2Proof/Laws/State.lean ====
section
/-!
SUPPORT. Each plain update of the state, field by field: what it gives the field it is of, and that it leaves the others.
-/

set_option Elab.async false

namespace Sys2Proof.Machine

@[simp] theorem Node.put_chan (n : Node) (k : Nat) (v : List Nat) : (Node.put n k v).chan = n.chan := rfl
@[simp] theorem Node.put_origin (n : Node) (k : Nat) (v : List Nat) : (Node.put n k v).origin = n.origin := rfl
@[simp] theorem Node.put_objs (n : Node) (k : Nat) (v : List Nat) : (Node.put n k v).objs = storePut n.objs k v := rfl
@[simp] theorem Node.put_srcs (n : Node) (k : Nat) (v : List Nat) : (Node.put n k v).srcs = n.srcs := rfl
@[simp] theorem Node.put_vecs (n : Node) (k : Nat) (v : List Nat) : (Node.put n k v).vecs = n.vecs := rfl
@[simp] theorem Node.put_fn (n : Node) (k : Nat) (v : List Nat) : (Node.put n k v).fn = n.fn := rfl
@[simp] theorem Node.put_intake (n : Node) (k : Nat) (v : List Nat) : (Node.put n k v).intake = n.intake := rfl
@[simp] theorem Node.put_shed (n : Node) (k : Nat) (v : List Nat) : (Node.put n k v).shed = n.shed := rfl
@[simp] theorem Node.put_traced (n : Node) (k : Nat) (v : List Nat) : (Node.put n k v).traced = n.traced := rfl
@[simp] theorem Node.put_fresh (n : Node) (k : Nat) (v : List Nat) : (Node.put n k v).fresh = n.fresh := rfl
@[simp] theorem Node.put_traceLog2 (n : Node) (k : Nat) (v : List Nat) : (Node.put n k v).traceLog2 = n.traceLog2 := rfl
@[simp] theorem Node.put_now (n : Node) (k : Nat) (v : List Nat) : (Node.put n k v).now = n.now := rfl
@[simp] theorem Node.put_mono (n : Node) (k : Nat) (v : List Nat) : (Node.put n k v).mono = n.mono := rfl
@[simp] theorem Node.put_posn (n : Node) (k : Nat) (v : List Nat) : (Node.put n k v).posn = n.posn := rfl
@[simp] theorem Node.put_gen (n : Node) (k : Nat) (v : List Nat) : (Node.put n k v).gen = n.gen := rfl
@[simp] theorem Node.put_out (n : Node) (k : Nat) (v : List Nat) : (Node.put n k v).out = n.out := rfl
@[simp] theorem Node.put_free (n : Node) (k : Nat) (v : List Nat) : (Node.put n k v).free = n.free := rfl

@[simp] theorem Node.emit_chan (n : Node) (o : Out) : (Node.emit n o).chan = n.chan := rfl
@[simp] theorem Node.emit_origin (n : Node) (o : Out) : (Node.emit n o).origin = n.origin := rfl
@[simp] theorem Node.emit_objs (n : Node) (o : Out) : (Node.emit n o).objs = n.objs := rfl
@[simp] theorem Node.emit_srcs (n : Node) (o : Out) : (Node.emit n o).srcs = n.srcs := rfl
@[simp] theorem Node.emit_vecs (n : Node) (o : Out) : (Node.emit n o).vecs = n.vecs := rfl
@[simp] theorem Node.emit_fn (n : Node) (o : Out) : (Node.emit n o).fn = n.fn := rfl
@[simp] theorem Node.emit_intake (n : Node) (o : Out) : (Node.emit n o).intake = n.intake := rfl
@[simp] theorem Node.emit_shed (n : Node) (o : Out) : (Node.emit n o).shed = n.shed := rfl
@[simp] theorem Node.emit_traced (n : Node) (o : Out) : (Node.emit n o).traced = n.traced := rfl
@[simp] theorem Node.emit_fresh (n : Node) (o : Out) : (Node.emit n o).fresh = n.fresh := rfl
@[simp] theorem Node.emit_traceLog2 (n : Node) (o : Out) : (Node.emit n o).traceLog2 = n.traceLog2 := rfl
@[simp] theorem Node.emit_now (n : Node) (o : Out) : (Node.emit n o).now = n.now := rfl
@[simp] theorem Node.emit_mono (n : Node) (o : Out) : (Node.emit n o).mono = n.mono := rfl
@[simp] theorem Node.emit_posn (n : Node) (o : Out) : (Node.emit n o).posn = n.posn := rfl
@[simp] theorem Node.emit_gen (n : Node) (o : Out) : (Node.emit n o).gen = n.gen := rfl
@[simp] theorem Node.emit_out (n : Node) (o : Out) : (Node.emit n o).out = o :: n.out := rfl
@[simp] theorem Node.emit_free (n : Node) (o : Out) : (Node.emit n o).free = n.free := rfl

@[simp] theorem Node.putSrc_chan (n : Node) (k : Nat) (v : SrcState) : (Node.putSrc n k v).chan = n.chan := rfl
@[simp] theorem Node.putSrc_origin (n : Node) (k : Nat) (v : SrcState) : (Node.putSrc n k v).origin = n.origin := rfl
@[simp] theorem Node.putSrc_objs (n : Node) (k : Nat) (v : SrcState) : (Node.putSrc n k v).objs = n.objs := rfl
@[simp] theorem Node.putSrc_srcs (n : Node) (k : Nat) (v : SrcState) : (Node.putSrc n k v).srcs = tabPut {} n.srcs k v := rfl
@[simp] theorem Node.putSrc_vecs (n : Node) (k : Nat) (v : SrcState) : (Node.putSrc n k v).vecs = n.vecs := rfl
@[simp] theorem Node.putSrc_fn (n : Node) (k : Nat) (v : SrcState) : (Node.putSrc n k v).fn = n.fn := rfl
@[simp] theorem Node.putSrc_intake (n : Node) (k : Nat) (v : SrcState) : (Node.putSrc n k v).intake = n.intake := rfl
@[simp] theorem Node.putSrc_shed (n : Node) (k : Nat) (v : SrcState) : (Node.putSrc n k v).shed = n.shed := rfl
@[simp] theorem Node.putSrc_traced (n : Node) (k : Nat) (v : SrcState) : (Node.putSrc n k v).traced = n.traced := rfl
@[simp] theorem Node.putSrc_fresh (n : Node) (k : Nat) (v : SrcState) : (Node.putSrc n k v).fresh = n.fresh := rfl
@[simp] theorem Node.putSrc_traceLog2 (n : Node) (k : Nat) (v : SrcState) : (Node.putSrc n k v).traceLog2 = n.traceLog2 := rfl
@[simp] theorem Node.putSrc_now (n : Node) (k : Nat) (v : SrcState) : (Node.putSrc n k v).now = n.now := rfl
@[simp] theorem Node.putSrc_mono (n : Node) (k : Nat) (v : SrcState) : (Node.putSrc n k v).mono = n.mono := rfl
@[simp] theorem Node.putSrc_posn (n : Node) (k : Nat) (v : SrcState) : (Node.putSrc n k v).posn = n.posn := rfl
@[simp] theorem Node.putSrc_gen (n : Node) (k : Nat) (v : SrcState) : (Node.putSrc n k v).gen = n.gen := rfl
@[simp] theorem Node.putSrc_out (n : Node) (k : Nat) (v : SrcState) : (Node.putSrc n k v).out = n.out := rfl
@[simp] theorem Node.putSrc_free (n : Node) (k : Nat) (v : SrcState) : (Node.putSrc n k v).free = n.free := rfl

@[simp] theorem Node.putVec_chan (n : Node) (k : Nat) (v : VecState) : (Node.putVec n k v).chan = n.chan := rfl
@[simp] theorem Node.putVec_origin (n : Node) (k : Nat) (v : VecState) : (Node.putVec n k v).origin = n.origin := rfl
@[simp] theorem Node.putVec_objs (n : Node) (k : Nat) (v : VecState) : (Node.putVec n k v).objs = n.objs := rfl
@[simp] theorem Node.putVec_srcs (n : Node) (k : Nat) (v : VecState) : (Node.putVec n k v).srcs = n.srcs := rfl
@[simp] theorem Node.putVec_vecs (n : Node) (k : Nat) (v : VecState) : (Node.putVec n k v).vecs = tabPut {} n.vecs k v := rfl
@[simp] theorem Node.putVec_fn (n : Node) (k : Nat) (v : VecState) : (Node.putVec n k v).fn = n.fn := rfl
@[simp] theorem Node.putVec_intake (n : Node) (k : Nat) (v : VecState) : (Node.putVec n k v).intake = n.intake := rfl
@[simp] theorem Node.putVec_shed (n : Node) (k : Nat) (v : VecState) : (Node.putVec n k v).shed = n.shed := rfl
@[simp] theorem Node.putVec_traced (n : Node) (k : Nat) (v : VecState) : (Node.putVec n k v).traced = n.traced := rfl
@[simp] theorem Node.putVec_fresh (n : Node) (k : Nat) (v : VecState) : (Node.putVec n k v).fresh = n.fresh := rfl
@[simp] theorem Node.putVec_traceLog2 (n : Node) (k : Nat) (v : VecState) : (Node.putVec n k v).traceLog2 = n.traceLog2 := rfl
@[simp] theorem Node.putVec_now (n : Node) (k : Nat) (v : VecState) : (Node.putVec n k v).now = n.now := rfl
@[simp] theorem Node.putVec_mono (n : Node) (k : Nat) (v : VecState) : (Node.putVec n k v).mono = n.mono := rfl
@[simp] theorem Node.putVec_posn (n : Node) (k : Nat) (v : VecState) : (Node.putVec n k v).posn = n.posn := rfl
@[simp] theorem Node.putVec_gen (n : Node) (k : Nat) (v : VecState) : (Node.putVec n k v).gen = n.gen := rfl
@[simp] theorem Node.putVec_out (n : Node) (k : Nat) (v : VecState) : (Node.putVec n k v).out = n.out := rfl
@[simp] theorem Node.putVec_free (n : Node) (k : Nat) (v : VecState) : (Node.putVec n k v).free = n.free := rfl

@[simp] theorem Chan.mapN_n (c : Chan) (f : Node → Node) : (Chan.mapN c f).n = f c.n := rfl
@[simp] theorem Chan.mapN_slate (c : Chan) (f : Node → Node) : (Chan.mapN c f).slate = c.slate := rfl
@[simp] theorem Chan.mapN_power (c : Chan) (f : Node → Node) : (Chan.mapN c f).power = c.power := rfl
@[simp] theorem Chan.mapN_input (c : Chan) (f : Node → Node) : (Chan.mapN c f).input = c.input := rfl
@[simp] theorem Chan.mapN_lanes (c : Chan) (f : Node → Node) : (Chan.mapN c f).lanes = c.lanes := rfl
@[simp] theorem Chan.mapN_scan (c : Chan) (f : Node → Node) : (Chan.mapN c f).scan = c.scan := rfl
@[simp] theorem Chan.mapN_front (c : Chan) (f : Node → Node) : (Chan.mapN c f).front = c.front := rfl
@[simp] theorem Chan.mapN_geo (c : Chan) (f : Node → Node) : (Chan.mapN c f).geo = c.geo := rfl
@[simp] theorem Chan.mapN_expo (c : Chan) (f : Node → Node) : (Chan.mapN c f).expo = c.expo := rfl
@[simp] theorem Chan.mapN_seg (c : Chan) (f : Node → Node) : (Chan.mapN c f).seg = c.seg := rfl
@[simp] theorem Chan.mapN_stk (c : Chan) (f : Node → Node) : (Chan.mapN c f).stk = c.stk := rfl
@[simp] theorem Chan.mapN_mem (c : Chan) (f : Node → Node) : (Chan.mapN c f).mem = c.mem := rfl
@[simp] theorem Chan.mapN_mc (c : Chan) (f : Node → Node) : (Chan.mapN c f).mc = c.mc := rfl
@[simp] theorem Chan.mapN_cmp (c : Chan) (f : Node → Node) : (Chan.mapN c f).cmp = c.cmp := rfl
@[simp] theorem Chan.mapN_dma (c : Chan) (f : Node → Node) : (Chan.mapN c f).dma = c.dma := rfl
@[simp] theorem Chan.mapN_rushes (c : Chan) (f : Node → Node) : (Chan.mapN c f).rushes = c.rushes := rfl
@[simp] theorem Chan.mapN_calHead (c : Chan) (f : Node → Node) : (Chan.mapN c f).calHead = c.calHead := rfl
@[simp] theorem Chan.mapN_notes (c : Chan) (f : Node → Node) : (Chan.mapN c f).notes = c.notes := rfl

@[simp] theorem Chan.note_n (c : Chan) (x : Note) : (Chan.note c x).n = c.n := rfl
@[simp] theorem Chan.note_slate (c : Chan) (x : Note) : (Chan.note c x).slate = c.slate := rfl
@[simp] theorem Chan.note_power (c : Chan) (x : Note) : (Chan.note c x).power = c.power := rfl
@[simp] theorem Chan.note_input (c : Chan) (x : Note) : (Chan.note c x).input = c.input := rfl
@[simp] theorem Chan.note_lanes (c : Chan) (x : Note) : (Chan.note c x).lanes = c.lanes := rfl
@[simp] theorem Chan.note_scan (c : Chan) (x : Note) : (Chan.note c x).scan = c.scan := rfl
@[simp] theorem Chan.note_front (c : Chan) (x : Note) : (Chan.note c x).front = c.front := rfl
@[simp] theorem Chan.note_geo (c : Chan) (x : Note) : (Chan.note c x).geo = c.geo := rfl
@[simp] theorem Chan.note_expo (c : Chan) (x : Note) : (Chan.note c x).expo = c.expo := rfl
@[simp] theorem Chan.note_seg (c : Chan) (x : Note) : (Chan.note c x).seg = c.seg := rfl
@[simp] theorem Chan.note_stk (c : Chan) (x : Note) : (Chan.note c x).stk = c.stk := rfl
@[simp] theorem Chan.note_mem (c : Chan) (x : Note) : (Chan.note c x).mem = c.mem := rfl
@[simp] theorem Chan.note_mc (c : Chan) (x : Note) : (Chan.note c x).mc = c.mc := rfl
@[simp] theorem Chan.note_cmp (c : Chan) (x : Note) : (Chan.note c x).cmp = c.cmp := rfl
@[simp] theorem Chan.note_dma (c : Chan) (x : Note) : (Chan.note c x).dma = c.dma := rfl
@[simp] theorem Chan.note_rushes (c : Chan) (x : Note) : (Chan.note c x).rushes = c.rushes := rfl
@[simp] theorem Chan.note_calHead (c : Chan) (x : Note) : (Chan.note c x).calHead = c.calHead := rfl
@[simp] theorem Chan.note_notes (c : Chan) (x : Note) : (Chan.note c x).notes = c.notes ++ [x] := rfl

@[simp] theorem Chan.modStk_n (c : Chan) (f : Strike → Strike) : (Chan.modStk c f).n = c.n := rfl
@[simp] theorem Chan.modStk_slate (c : Chan) (f : Strike → Strike) : (Chan.modStk c f).slate = c.slate := rfl
@[simp] theorem Chan.modStk_power (c : Chan) (f : Strike → Strike) : (Chan.modStk c f).power = c.power := rfl
@[simp] theorem Chan.modStk_input (c : Chan) (f : Strike → Strike) : (Chan.modStk c f).input = c.input := rfl
@[simp] theorem Chan.modStk_lanes (c : Chan) (f : Strike → Strike) : (Chan.modStk c f).lanes = c.lanes := rfl
@[simp] theorem Chan.modStk_scan (c : Chan) (f : Strike → Strike) : (Chan.modStk c f).scan = c.scan := rfl
@[simp] theorem Chan.modStk_front (c : Chan) (f : Strike → Strike) : (Chan.modStk c f).front = c.front := rfl
@[simp] theorem Chan.modStk_geo (c : Chan) (f : Strike → Strike) : (Chan.modStk c f).geo = c.geo := rfl
@[simp] theorem Chan.modStk_expo (c : Chan) (f : Strike → Strike) : (Chan.modStk c f).expo = c.expo := rfl
@[simp] theorem Chan.modStk_seg (c : Chan) (f : Strike → Strike) : (Chan.modStk c f).seg = c.seg := rfl
@[simp] theorem Chan.modStk_stk (c : Chan) (f : Strike → Strike) : (Chan.modStk c f).stk = f c.stk := rfl
@[simp] theorem Chan.modStk_mem (c : Chan) (f : Strike → Strike) : (Chan.modStk c f).mem = c.mem := rfl
@[simp] theorem Chan.modStk_mc (c : Chan) (f : Strike → Strike) : (Chan.modStk c f).mc = c.mc := rfl
@[simp] theorem Chan.modStk_cmp (c : Chan) (f : Strike → Strike) : (Chan.modStk c f).cmp = c.cmp := rfl
@[simp] theorem Chan.modStk_dma (c : Chan) (f : Strike → Strike) : (Chan.modStk c f).dma = c.dma := rfl
@[simp] theorem Chan.modStk_rushes (c : Chan) (f : Strike → Strike) : (Chan.modStk c f).rushes = c.rushes := rfl
@[simp] theorem Chan.modStk_calHead (c : Chan) (f : Strike → Strike) : (Chan.modStk c f).calHead = c.calHead := rfl
@[simp] theorem Chan.modStk_notes (c : Chan) (f : Strike → Strike) : (Chan.modStk c f).notes = c.notes := rfl

@[simp] theorem Chan.modMc_n (c : Chan) (f : MemCtl → MemCtl) : (Chan.modMc c f).n = c.n := rfl
@[simp] theorem Chan.modMc_slate (c : Chan) (f : MemCtl → MemCtl) : (Chan.modMc c f).slate = c.slate := rfl
@[simp] theorem Chan.modMc_power (c : Chan) (f : MemCtl → MemCtl) : (Chan.modMc c f).power = c.power := rfl
@[simp] theorem Chan.modMc_input (c : Chan) (f : MemCtl → MemCtl) : (Chan.modMc c f).input = c.input := rfl
@[simp] theorem Chan.modMc_lanes (c : Chan) (f : MemCtl → MemCtl) : (Chan.modMc c f).lanes = c.lanes := rfl
@[simp] theorem Chan.modMc_scan (c : Chan) (f : MemCtl → MemCtl) : (Chan.modMc c f).scan = c.scan := rfl
@[simp] theorem Chan.modMc_front (c : Chan) (f : MemCtl → MemCtl) : (Chan.modMc c f).front = c.front := rfl
@[simp] theorem Chan.modMc_geo (c : Chan) (f : MemCtl → MemCtl) : (Chan.modMc c f).geo = c.geo := rfl
@[simp] theorem Chan.modMc_expo (c : Chan) (f : MemCtl → MemCtl) : (Chan.modMc c f).expo = c.expo := rfl
@[simp] theorem Chan.modMc_seg (c : Chan) (f : MemCtl → MemCtl) : (Chan.modMc c f).seg = c.seg := rfl
@[simp] theorem Chan.modMc_stk (c : Chan) (f : MemCtl → MemCtl) : (Chan.modMc c f).stk = c.stk := rfl
@[simp] theorem Chan.modMc_mem (c : Chan) (f : MemCtl → MemCtl) : (Chan.modMc c f).mem = c.mem := rfl
@[simp] theorem Chan.modMc_mc (c : Chan) (f : MemCtl → MemCtl) : (Chan.modMc c f).mc = f c.mc := rfl
@[simp] theorem Chan.modMc_cmp (c : Chan) (f : MemCtl → MemCtl) : (Chan.modMc c f).cmp = c.cmp := rfl
@[simp] theorem Chan.modMc_dma (c : Chan) (f : MemCtl → MemCtl) : (Chan.modMc c f).dma = c.dma := rfl
@[simp] theorem Chan.modMc_rushes (c : Chan) (f : MemCtl → MemCtl) : (Chan.modMc c f).rushes = c.rushes := rfl
@[simp] theorem Chan.modMc_calHead (c : Chan) (f : MemCtl → MemCtl) : (Chan.modMc c f).calHead = c.calHead := rfl
@[simp] theorem Chan.modMc_notes (c : Chan) (f : MemCtl → MemCtl) : (Chan.modMc c f).notes = c.notes := rfl

@[simp] theorem Chan.modJrn_n (c : Chan) (f : Rushes → Rushes) : (Chan.modJrn c f).n = c.n := rfl
@[simp] theorem Chan.modJrn_slate (c : Chan) (f : Rushes → Rushes) : (Chan.modJrn c f).slate = c.slate := rfl
@[simp] theorem Chan.modJrn_power (c : Chan) (f : Rushes → Rushes) : (Chan.modJrn c f).power = c.power := rfl
@[simp] theorem Chan.modJrn_input (c : Chan) (f : Rushes → Rushes) : (Chan.modJrn c f).input = c.input := rfl
@[simp] theorem Chan.modJrn_lanes (c : Chan) (f : Rushes → Rushes) : (Chan.modJrn c f).lanes = c.lanes := rfl
@[simp] theorem Chan.modJrn_scan (c : Chan) (f : Rushes → Rushes) : (Chan.modJrn c f).scan = c.scan := rfl
@[simp] theorem Chan.modJrn_front (c : Chan) (f : Rushes → Rushes) : (Chan.modJrn c f).front = c.front := rfl
@[simp] theorem Chan.modJrn_geo (c : Chan) (f : Rushes → Rushes) : (Chan.modJrn c f).geo = c.geo := rfl
@[simp] theorem Chan.modJrn_expo (c : Chan) (f : Rushes → Rushes) : (Chan.modJrn c f).expo = c.expo := rfl
@[simp] theorem Chan.modJrn_seg (c : Chan) (f : Rushes → Rushes) : (Chan.modJrn c f).seg = c.seg := rfl
@[simp] theorem Chan.modJrn_stk (c : Chan) (f : Rushes → Rushes) : (Chan.modJrn c f).stk = c.stk := rfl
@[simp] theorem Chan.modJrn_mem (c : Chan) (f : Rushes → Rushes) : (Chan.modJrn c f).mem = c.mem := rfl
@[simp] theorem Chan.modJrn_mc (c : Chan) (f : Rushes → Rushes) : (Chan.modJrn c f).mc = c.mc := rfl
@[simp] theorem Chan.modJrn_cmp (c : Chan) (f : Rushes → Rushes) : (Chan.modJrn c f).cmp = c.cmp := rfl
@[simp] theorem Chan.modJrn_dma (c : Chan) (f : Rushes → Rushes) : (Chan.modJrn c f).dma = c.dma := rfl
@[simp] theorem Chan.modJrn_rushes (c : Chan) (f : Rushes → Rushes) : (Chan.modJrn c f).rushes = f c.rushes := rfl
@[simp] theorem Chan.modJrn_calHead (c : Chan) (f : Rushes → Rushes) : (Chan.modJrn c f).calHead = c.calHead := rfl
@[simp] theorem Chan.modJrn_notes (c : Chan) (f : Rushes → Rushes) : (Chan.modJrn c f).notes = c.notes := rfl

@[simp] theorem Chan.modSeg_n (c : Chan) (f : Seg → Seg) : (Chan.modSeg c f).n = c.n := rfl
@[simp] theorem Chan.modSeg_slate (c : Chan) (f : Seg → Seg) : (Chan.modSeg c f).slate = c.slate := rfl
@[simp] theorem Chan.modSeg_power (c : Chan) (f : Seg → Seg) : (Chan.modSeg c f).power = c.power := rfl
@[simp] theorem Chan.modSeg_input (c : Chan) (f : Seg → Seg) : (Chan.modSeg c f).input = c.input := rfl
@[simp] theorem Chan.modSeg_lanes (c : Chan) (f : Seg → Seg) : (Chan.modSeg c f).lanes = c.lanes := rfl
@[simp] theorem Chan.modSeg_scan (c : Chan) (f : Seg → Seg) : (Chan.modSeg c f).scan = c.scan := rfl
@[simp] theorem Chan.modSeg_front (c : Chan) (f : Seg → Seg) : (Chan.modSeg c f).front = c.front := rfl
@[simp] theorem Chan.modSeg_geo (c : Chan) (f : Seg → Seg) : (Chan.modSeg c f).geo = c.geo := rfl
@[simp] theorem Chan.modSeg_expo (c : Chan) (f : Seg → Seg) : (Chan.modSeg c f).expo = c.expo := rfl
@[simp] theorem Chan.modSeg_seg (c : Chan) (f : Seg → Seg) : (Chan.modSeg c f).seg = f c.seg := rfl
@[simp] theorem Chan.modSeg_stk (c : Chan) (f : Seg → Seg) : (Chan.modSeg c f).stk = c.stk := rfl
@[simp] theorem Chan.modSeg_mem (c : Chan) (f : Seg → Seg) : (Chan.modSeg c f).mem = c.mem := rfl
@[simp] theorem Chan.modSeg_mc (c : Chan) (f : Seg → Seg) : (Chan.modSeg c f).mc = c.mc := rfl
@[simp] theorem Chan.modSeg_cmp (c : Chan) (f : Seg → Seg) : (Chan.modSeg c f).cmp = c.cmp := rfl
@[simp] theorem Chan.modSeg_dma (c : Chan) (f : Seg → Seg) : (Chan.modSeg c f).dma = c.dma := rfl
@[simp] theorem Chan.modSeg_rushes (c : Chan) (f : Seg → Seg) : (Chan.modSeg c f).rushes = c.rushes := rfl
@[simp] theorem Chan.modSeg_calHead (c : Chan) (f : Seg → Seg) : (Chan.modSeg c f).calHead = c.calHead := rfl
@[simp] theorem Chan.modSeg_notes (c : Chan) (f : Seg → Seg) : (Chan.modSeg c f).notes = c.notes := rfl

@[simp] theorem Chan.putLoop_n (c : Chan) (h : Nat) (x : HeadLoop) : (Chan.putLoop c h x).n = c.n := rfl
@[simp] theorem Chan.putLoop_slate (c : Chan) (h : Nat) (x : HeadLoop) : (Chan.putLoop c h x).slate = c.slate := rfl
@[simp] theorem Chan.putLoop_power (c : Chan) (h : Nat) (x : HeadLoop) : (Chan.putLoop c h x).power = c.power := rfl
@[simp] theorem Chan.putLoop_input (c : Chan) (h : Nat) (x : HeadLoop) : (Chan.putLoop c h x).input = c.input := rfl
@[simp] theorem Chan.putLoop_lanes (c : Chan) (h : Nat) (x : HeadLoop) : (Chan.putLoop c h x).lanes = c.lanes := rfl
@[simp] theorem Chan.putLoop_scan (c : Chan) (h : Nat) (x : HeadLoop) : (Chan.putLoop c h x).scan = c.scan := rfl
@[simp] theorem Chan.putLoop_front (c : Chan) (h : Nat) (x : HeadLoop) : (Chan.putLoop c h x).front = c.front := rfl
@[simp] theorem Chan.putLoop_geo (c : Chan) (h : Nat) (x : HeadLoop) : (Chan.putLoop c h x).geo = c.geo := rfl
@[simp] theorem Chan.putLoop_expo (c : Chan) (h : Nat) (x : HeadLoop) : (Chan.putLoop c h x).expo = { c.expo with loops := listPut c.expo.loops h x } := rfl
@[simp] theorem Chan.putLoop_seg (c : Chan) (h : Nat) (x : HeadLoop) : (Chan.putLoop c h x).seg = c.seg := rfl
@[simp] theorem Chan.putLoop_stk (c : Chan) (h : Nat) (x : HeadLoop) : (Chan.putLoop c h x).stk = c.stk := rfl
@[simp] theorem Chan.putLoop_mem (c : Chan) (h : Nat) (x : HeadLoop) : (Chan.putLoop c h x).mem = c.mem := rfl
@[simp] theorem Chan.putLoop_mc (c : Chan) (h : Nat) (x : HeadLoop) : (Chan.putLoop c h x).mc = c.mc := rfl
@[simp] theorem Chan.putLoop_cmp (c : Chan) (h : Nat) (x : HeadLoop) : (Chan.putLoop c h x).cmp = c.cmp := rfl
@[simp] theorem Chan.putLoop_dma (c : Chan) (h : Nat) (x : HeadLoop) : (Chan.putLoop c h x).dma = c.dma := rfl
@[simp] theorem Chan.putLoop_rushes (c : Chan) (h : Nat) (x : HeadLoop) : (Chan.putLoop c h x).rushes = c.rushes := rfl
@[simp] theorem Chan.putLoop_calHead (c : Chan) (h : Nat) (x : HeadLoop) : (Chan.putLoop c h x).calHead = c.calHead := rfl
@[simp] theorem Chan.putLoop_notes (c : Chan) (h : Nat) (x : HeadLoop) : (Chan.putLoop c h x).notes = c.notes := rfl

@[simp] theorem Chan.putIll_n (c : Chan) (h : Nat) (x : IllOut) : (Chan.putIll c h x).n = c.n := rfl
@[simp] theorem Chan.putIll_slate (c : Chan) (h : Nat) (x : IllOut) : (Chan.putIll c h x).slate = c.slate := rfl
@[simp] theorem Chan.putIll_power (c : Chan) (h : Nat) (x : IllOut) : (Chan.putIll c h x).power = c.power := rfl
@[simp] theorem Chan.putIll_input (c : Chan) (h : Nat) (x : IllOut) : (Chan.putIll c h x).input = c.input := rfl
@[simp] theorem Chan.putIll_lanes (c : Chan) (h : Nat) (x : IllOut) : (Chan.putIll c h x).lanes = c.lanes := rfl
@[simp] theorem Chan.putIll_scan (c : Chan) (h : Nat) (x : IllOut) : (Chan.putIll c h x).scan = c.scan := rfl
@[simp] theorem Chan.putIll_front (c : Chan) (h : Nat) (x : IllOut) : (Chan.putIll c h x).front = c.front := rfl
@[simp] theorem Chan.putIll_geo (c : Chan) (h : Nat) (x : IllOut) : (Chan.putIll c h x).geo = c.geo := rfl
@[simp] theorem Chan.putIll_expo (c : Chan) (h : Nat) (x : IllOut) : (Chan.putIll c h x).expo = { c.expo with ill := listPut c.expo.ill h x } := rfl
@[simp] theorem Chan.putIll_seg (c : Chan) (h : Nat) (x : IllOut) : (Chan.putIll c h x).seg = c.seg := rfl
@[simp] theorem Chan.putIll_stk (c : Chan) (h : Nat) (x : IllOut) : (Chan.putIll c h x).stk = c.stk := rfl
@[simp] theorem Chan.putIll_mem (c : Chan) (h : Nat) (x : IllOut) : (Chan.putIll c h x).mem = c.mem := rfl
@[simp] theorem Chan.putIll_mc (c : Chan) (h : Nat) (x : IllOut) : (Chan.putIll c h x).mc = c.mc := rfl
@[simp] theorem Chan.putIll_cmp (c : Chan) (h : Nat) (x : IllOut) : (Chan.putIll c h x).cmp = c.cmp := rfl
@[simp] theorem Chan.putIll_dma (c : Chan) (h : Nat) (x : IllOut) : (Chan.putIll c h x).dma = c.dma := rfl
@[simp] theorem Chan.putIll_rushes (c : Chan) (h : Nat) (x : IllOut) : (Chan.putIll c h x).rushes = c.rushes := rfl
@[simp] theorem Chan.putIll_calHead (c : Chan) (h : Nat) (x : IllOut) : (Chan.putIll c h x).calHead = c.calHead := rfl
@[simp] theorem Chan.putIll_notes (c : Chan) (h : Nat) (x : IllOut) : (Chan.putIll c h x).notes = c.notes := rfl

@[simp] theorem Chan.putGeo_n (c : Chan) (h : Nat) (x : HeadGeo) : (Chan.putGeo c h x).n = c.n := rfl
@[simp] theorem Chan.putGeo_slate (c : Chan) (h : Nat) (x : HeadGeo) : (Chan.putGeo c h x).slate = c.slate := rfl
@[simp] theorem Chan.putGeo_power (c : Chan) (h : Nat) (x : HeadGeo) : (Chan.putGeo c h x).power = c.power := rfl
@[simp] theorem Chan.putGeo_input (c : Chan) (h : Nat) (x : HeadGeo) : (Chan.putGeo c h x).input = c.input := rfl
@[simp] theorem Chan.putGeo_lanes (c : Chan) (h : Nat) (x : HeadGeo) : (Chan.putGeo c h x).lanes = c.lanes := rfl
@[simp] theorem Chan.putGeo_scan (c : Chan) (h : Nat) (x : HeadGeo) : (Chan.putGeo c h x).scan = c.scan := rfl
@[simp] theorem Chan.putGeo_front (c : Chan) (h : Nat) (x : HeadGeo) : (Chan.putGeo c h x).front = c.front := rfl
@[simp] theorem Chan.putGeo_geo (c : Chan) (h : Nat) (x : HeadGeo) : (Chan.putGeo c h x).geo = { c.geo with heads := listPut c.geo.heads h x } := rfl
@[simp] theorem Chan.putGeo_expo (c : Chan) (h : Nat) (x : HeadGeo) : (Chan.putGeo c h x).expo = c.expo := rfl
@[simp] theorem Chan.putGeo_seg (c : Chan) (h : Nat) (x : HeadGeo) : (Chan.putGeo c h x).seg = c.seg := rfl
@[simp] theorem Chan.putGeo_stk (c : Chan) (h : Nat) (x : HeadGeo) : (Chan.putGeo c h x).stk = c.stk := rfl
@[simp] theorem Chan.putGeo_mem (c : Chan) (h : Nat) (x : HeadGeo) : (Chan.putGeo c h x).mem = c.mem := rfl
@[simp] theorem Chan.putGeo_mc (c : Chan) (h : Nat) (x : HeadGeo) : (Chan.putGeo c h x).mc = c.mc := rfl
@[simp] theorem Chan.putGeo_cmp (c : Chan) (h : Nat) (x : HeadGeo) : (Chan.putGeo c h x).cmp = c.cmp := rfl
@[simp] theorem Chan.putGeo_dma (c : Chan) (h : Nat) (x : HeadGeo) : (Chan.putGeo c h x).dma = c.dma := rfl
@[simp] theorem Chan.putGeo_rushes (c : Chan) (h : Nat) (x : HeadGeo) : (Chan.putGeo c h x).rushes = c.rushes := rfl
@[simp] theorem Chan.putGeo_calHead (c : Chan) (h : Nat) (x : HeadGeo) : (Chan.putGeo c h x).calHead = c.calHead := rfl
@[simp] theorem Chan.putGeo_notes (c : Chan) (h : Nat) (x : HeadGeo) : (Chan.putGeo c h x).notes = c.notes := rfl

@[simp] theorem Chan.putThread_n (c : Chan) (t : Nat) (x : DmaThread) : (Chan.putThread c t x).n = c.n := rfl
@[simp] theorem Chan.putThread_slate (c : Chan) (t : Nat) (x : DmaThread) : (Chan.putThread c t x).slate = c.slate := rfl
@[simp] theorem Chan.putThread_power (c : Chan) (t : Nat) (x : DmaThread) : (Chan.putThread c t x).power = c.power := rfl
@[simp] theorem Chan.putThread_input (c : Chan) (t : Nat) (x : DmaThread) : (Chan.putThread c t x).input = c.input := rfl
@[simp] theorem Chan.putThread_lanes (c : Chan) (t : Nat) (x : DmaThread) : (Chan.putThread c t x).lanes = c.lanes := rfl
@[simp] theorem Chan.putThread_scan (c : Chan) (t : Nat) (x : DmaThread) : (Chan.putThread c t x).scan = c.scan := rfl
@[simp] theorem Chan.putThread_front (c : Chan) (t : Nat) (x : DmaThread) : (Chan.putThread c t x).front = c.front := rfl
@[simp] theorem Chan.putThread_geo (c : Chan) (t : Nat) (x : DmaThread) : (Chan.putThread c t x).geo = c.geo := rfl
@[simp] theorem Chan.putThread_expo (c : Chan) (t : Nat) (x : DmaThread) : (Chan.putThread c t x).expo = c.expo := rfl
@[simp] theorem Chan.putThread_seg (c : Chan) (t : Nat) (x : DmaThread) : (Chan.putThread c t x).seg = c.seg := rfl
@[simp] theorem Chan.putThread_stk (c : Chan) (t : Nat) (x : DmaThread) : (Chan.putThread c t x).stk = c.stk := rfl
@[simp] theorem Chan.putThread_mem (c : Chan) (t : Nat) (x : DmaThread) : (Chan.putThread c t x).mem = c.mem := rfl
@[simp] theorem Chan.putThread_mc (c : Chan) (t : Nat) (x : DmaThread) : (Chan.putThread c t x).mc = c.mc := rfl
@[simp] theorem Chan.putThread_cmp (c : Chan) (t : Nat) (x : DmaThread) : (Chan.putThread c t x).cmp = c.cmp := rfl
@[simp] theorem Chan.putThread_dma (c : Chan) (t : Nat) (x : DmaThread) : (Chan.putThread c t x).dma = { c.dma with threads := listPut c.dma.threads t x } := rfl
@[simp] theorem Chan.putThread_rushes (c : Chan) (t : Nat) (x : DmaThread) : (Chan.putThread c t x).rushes = c.rushes := rfl
@[simp] theorem Chan.putThread_calHead (c : Chan) (t : Nat) (x : DmaThread) : (Chan.putThread c t x).calHead = c.calHead := rfl
@[simp] theorem Chan.putThread_notes (c : Chan) (t : Nat) (x : DmaThread) : (Chan.putThread c t x).notes = c.notes := rfl

@[simp] theorem Chan.wakeCause_n (c : Chan) : (Chan.wakeCause c ).n = c.n := rfl
@[simp] theorem Chan.wakeCause_slate (c : Chan) : (Chan.wakeCause c ).slate = c.slate := rfl
@[simp] theorem Chan.wakeCause_power (c : Chan) : (Chan.wakeCause c ).power = { c.power with cause := true } := rfl
@[simp] theorem Chan.wakeCause_input (c : Chan) : (Chan.wakeCause c ).input = c.input := rfl
@[simp] theorem Chan.wakeCause_lanes (c : Chan) : (Chan.wakeCause c ).lanes = c.lanes := rfl
@[simp] theorem Chan.wakeCause_scan (c : Chan) : (Chan.wakeCause c ).scan = c.scan := rfl
@[simp] theorem Chan.wakeCause_front (c : Chan) : (Chan.wakeCause c ).front = c.front := rfl
@[simp] theorem Chan.wakeCause_geo (c : Chan) : (Chan.wakeCause c ).geo = c.geo := rfl
@[simp] theorem Chan.wakeCause_expo (c : Chan) : (Chan.wakeCause c ).expo = c.expo := rfl
@[simp] theorem Chan.wakeCause_seg (c : Chan) : (Chan.wakeCause c ).seg = c.seg := rfl
@[simp] theorem Chan.wakeCause_stk (c : Chan) : (Chan.wakeCause c ).stk = c.stk := rfl
@[simp] theorem Chan.wakeCause_mem (c : Chan) : (Chan.wakeCause c ).mem = c.mem := rfl
@[simp] theorem Chan.wakeCause_mc (c : Chan) : (Chan.wakeCause c ).mc = c.mc := rfl
@[simp] theorem Chan.wakeCause_cmp (c : Chan) : (Chan.wakeCause c ).cmp = c.cmp := rfl
@[simp] theorem Chan.wakeCause_dma (c : Chan) : (Chan.wakeCause c ).dma = c.dma := rfl
@[simp] theorem Chan.wakeCause_rushes (c : Chan) : (Chan.wakeCause c ).rushes = c.rushes := rfl
@[simp] theorem Chan.wakeCause_calHead (c : Chan) : (Chan.wakeCause c ).calHead = c.calHead := rfl
@[simp] theorem Chan.wakeCause_notes (c : Chan) : (Chan.wakeCause c ).notes = c.notes := rfl

@[simp] theorem State.mapN_n (s : State) (f : Node → Node) : (State.mapN s f).common.n = f s.common.n := rfl
@[simp] theorem State.mapN_slate (s : State) (f : Node → Node) : (State.mapN s f).common.slate = s.common.slate := rfl
@[simp] theorem State.mapN_server (s : State) (f : Node → Node) : (State.mapN s f).common.server = s.common.server := rfl
@[simp] theorem State.mapN_enc (s : State) (f : Node → Node) : (State.mapN s f).common.enc = s.common.enc := rfl
@[simp] theorem State.mapN_time (s : State) (f : Node → Node) : (State.mapN s f).common.time = s.common.time := rfl
@[simp] theorem State.mapN_lanes (s : State) (f : Node → Node) : (State.mapN s f).common.lanes = s.common.lanes := rfl
@[simp] theorem State.mapN_scan (s : State) (f : Node → Node) : (State.mapN s f).common.scan = s.common.scan := rfl
@[simp] theorem State.mapN_logs (s : State) (f : Node → Node) : (State.mapN s f).common.logs = s.common.logs := rfl
@[simp] theorem State.mapN_chanLogs (s : State) (f : Node → Node) : (State.mapN s f).common.chanLogs = s.common.chanLogs := rfl
@[simp] theorem State.mapN_host (s : State) (f : Node → Node) : (State.mapN s f).common.host = s.common.host := rfl
@[simp] theorem State.mapN_cal (s : State) (f : Node → Node) : (State.mapN s f).common.cal = s.common.cal := rfl
@[simp] theorem State.mapN_bw (s : State) (f : Node → Node) : (State.mapN s f).common.bw = s.common.bw := rfl
@[simp] theorem State.mapN_mon (s : State) (f : Node → Node) : (State.mapN s f).common.mon = s.common.mon := rfl
@[simp] theorem State.mapN_held (s : State) (f : Node → Node) : (State.mapN s f).common.held = s.common.held := rfl
@[simp] theorem State.mapN_resetDue (s : State) (f : Node → Node) : (State.mapN s f).common.resetDue = s.common.resetDue := rfl
@[simp] theorem State.mapN_chans (s : State) (f : Node → Node) : (State.mapN s f).chans = s.chans := rfl
@[simp] theorem State.mapN_pending (s : State) (f : Node → Node) : (State.mapN s f).pending = s.pending := rfl

@[simp] theorem State.modHost_n (s : State) (f : HostPort → HostPort) : (State.modHost s f).common.n = s.common.n := rfl
@[simp] theorem State.modHost_slate (s : State) (f : HostPort → HostPort) : (State.modHost s f).common.slate = s.common.slate := rfl
@[simp] theorem State.modHost_server (s : State) (f : HostPort → HostPort) : (State.modHost s f).common.server = s.common.server := rfl
@[simp] theorem State.modHost_enc (s : State) (f : HostPort → HostPort) : (State.modHost s f).common.enc = s.common.enc := rfl
@[simp] theorem State.modHost_time (s : State) (f : HostPort → HostPort) : (State.modHost s f).common.time = s.common.time := rfl
@[simp] theorem State.modHost_lanes (s : State) (f : HostPort → HostPort) : (State.modHost s f).common.lanes = s.common.lanes := rfl
@[simp] theorem State.modHost_scan (s : State) (f : HostPort → HostPort) : (State.modHost s f).common.scan = s.common.scan := rfl
@[simp] theorem State.modHost_logs (s : State) (f : HostPort → HostPort) : (State.modHost s f).common.logs = s.common.logs := rfl
@[simp] theorem State.modHost_chanLogs (s : State) (f : HostPort → HostPort) : (State.modHost s f).common.chanLogs = s.common.chanLogs := rfl
@[simp] theorem State.modHost_host (s : State) (f : HostPort → HostPort) : (State.modHost s f).common.host = f s.common.host := rfl
@[simp] theorem State.modHost_cal (s : State) (f : HostPort → HostPort) : (State.modHost s f).common.cal = s.common.cal := rfl
@[simp] theorem State.modHost_bw (s : State) (f : HostPort → HostPort) : (State.modHost s f).common.bw = s.common.bw := rfl
@[simp] theorem State.modHost_mon (s : State) (f : HostPort → HostPort) : (State.modHost s f).common.mon = s.common.mon := rfl
@[simp] theorem State.modHost_held (s : State) (f : HostPort → HostPort) : (State.modHost s f).common.held = s.common.held := rfl
@[simp] theorem State.modHost_resetDue (s : State) (f : HostPort → HostPort) : (State.modHost s f).common.resetDue = s.common.resetDue := rfl
@[simp] theorem State.modHost_chans (s : State) (f : HostPort → HostPort) : (State.modHost s f).chans = s.chans := rfl
@[simp] theorem State.modHost_pending (s : State) (f : HostPort → HostPort) : (State.modHost s f).pending = s.pending := rfl

@[simp] theorem State.modServer_n (s : State) (f : Server → Server) : (State.modServer s f).common.n = s.common.n := rfl
@[simp] theorem State.modServer_slate (s : State) (f : Server → Server) : (State.modServer s f).common.slate = s.common.slate := rfl
@[simp] theorem State.modServer_server (s : State) (f : Server → Server) : (State.modServer s f).common.server = f s.common.server := rfl
@[simp] theorem State.modServer_enc (s : State) (f : Server → Server) : (State.modServer s f).common.enc = s.common.enc := rfl
@[simp] theorem State.modServer_time (s : State) (f : Server → Server) : (State.modServer s f).common.time = s.common.time := rfl
@[simp] theorem State.modServer_lanes (s : State) (f : Server → Server) : (State.modServer s f).common.lanes = s.common.lanes := rfl
@[simp] theorem State.modServer_scan (s : State) (f : Server → Server) : (State.modServer s f).common.scan = s.common.scan := rfl
@[simp] theorem State.modServer_logs (s : State) (f : Server → Server) : (State.modServer s f).common.logs = s.common.logs := rfl
@[simp] theorem State.modServer_chanLogs (s : State) (f : Server → Server) : (State.modServer s f).common.chanLogs = s.common.chanLogs := rfl
@[simp] theorem State.modServer_host (s : State) (f : Server → Server) : (State.modServer s f).common.host = s.common.host := rfl
@[simp] theorem State.modServer_cal (s : State) (f : Server → Server) : (State.modServer s f).common.cal = s.common.cal := rfl
@[simp] theorem State.modServer_bw (s : State) (f : Server → Server) : (State.modServer s f).common.bw = s.common.bw := rfl
@[simp] theorem State.modServer_mon (s : State) (f : Server → Server) : (State.modServer s f).common.mon = s.common.mon := rfl
@[simp] theorem State.modServer_held (s : State) (f : Server → Server) : (State.modServer s f).common.held = s.common.held := rfl
@[simp] theorem State.modServer_resetDue (s : State) (f : Server → Server) : (State.modServer s f).common.resetDue = s.common.resetDue := rfl
@[simp] theorem State.modServer_chans (s : State) (f : Server → Server) : (State.modServer s f).chans = s.chans := rfl
@[simp] theorem State.modServer_pending (s : State) (f : Server → Server) : (State.modServer s f).pending = s.pending := rfl

@[simp] theorem State.modTa_n (s : State) (f : TimeBlock → TimeBlock) : (State.modTa s f).common.n = s.common.n := rfl
@[simp] theorem State.modTa_slate (s : State) (f : TimeBlock → TimeBlock) : (State.modTa s f).common.slate = s.common.slate := rfl
@[simp] theorem State.modTa_server (s : State) (f : TimeBlock → TimeBlock) : (State.modTa s f).common.server = s.common.server := rfl
@[simp] theorem State.modTa_enc (s : State) (f : TimeBlock → TimeBlock) : (State.modTa s f).common.enc = s.common.enc := rfl
@[simp] theorem State.modTa_time (s : State) (f : TimeBlock → TimeBlock) : (State.modTa s f).common.time = f s.common.time := rfl
@[simp] theorem State.modTa_lanes (s : State) (f : TimeBlock → TimeBlock) : (State.modTa s f).common.lanes = s.common.lanes := rfl
@[simp] theorem State.modTa_scan (s : State) (f : TimeBlock → TimeBlock) : (State.modTa s f).common.scan = s.common.scan := rfl
@[simp] theorem State.modTa_logs (s : State) (f : TimeBlock → TimeBlock) : (State.modTa s f).common.logs = s.common.logs := rfl
@[simp] theorem State.modTa_chanLogs (s : State) (f : TimeBlock → TimeBlock) : (State.modTa s f).common.chanLogs = s.common.chanLogs := rfl
@[simp] theorem State.modTa_host (s : State) (f : TimeBlock → TimeBlock) : (State.modTa s f).common.host = s.common.host := rfl
@[simp] theorem State.modTa_cal (s : State) (f : TimeBlock → TimeBlock) : (State.modTa s f).common.cal = s.common.cal := rfl
@[simp] theorem State.modTa_bw (s : State) (f : TimeBlock → TimeBlock) : (State.modTa s f).common.bw = s.common.bw := rfl
@[simp] theorem State.modTa_mon (s : State) (f : TimeBlock → TimeBlock) : (State.modTa s f).common.mon = s.common.mon := rfl
@[simp] theorem State.modTa_held (s : State) (f : TimeBlock → TimeBlock) : (State.modTa s f).common.held = s.common.held := rfl
@[simp] theorem State.modTa_resetDue (s : State) (f : TimeBlock → TimeBlock) : (State.modTa s f).common.resetDue = s.common.resetDue := rfl
@[simp] theorem State.modTa_chans (s : State) (f : TimeBlock → TimeBlock) : (State.modTa s f).chans = s.chans := rfl
@[simp] theorem State.modTa_pending (s : State) (f : TimeBlock → TimeBlock) : (State.modTa s f).pending = s.pending := rfl

@[simp] theorem State.modSlate_n (s : State) (f : Sequencer → Sequencer) : (State.modSlate s f).common.n = s.common.n := rfl
@[simp] theorem State.modSlate_slate (s : State) (f : Sequencer → Sequencer) : (State.modSlate s f).common.slate = f s.common.slate := rfl
@[simp] theorem State.modSlate_server (s : State) (f : Sequencer → Sequencer) : (State.modSlate s f).common.server = s.common.server := rfl
@[simp] theorem State.modSlate_enc (s : State) (f : Sequencer → Sequencer) : (State.modSlate s f).common.enc = s.common.enc := rfl
@[simp] theorem State.modSlate_time (s : State) (f : Sequencer → Sequencer) : (State.modSlate s f).common.time = s.common.time := rfl
@[simp] theorem State.modSlate_lanes (s : State) (f : Sequencer → Sequencer) : (State.modSlate s f).common.lanes = s.common.lanes := rfl
@[simp] theorem State.modSlate_scan (s : State) (f : Sequencer → Sequencer) : (State.modSlate s f).common.scan = s.common.scan := rfl
@[simp] theorem State.modSlate_logs (s : State) (f : Sequencer → Sequencer) : (State.modSlate s f).common.logs = s.common.logs := rfl
@[simp] theorem State.modSlate_chanLogs (s : State) (f : Sequencer → Sequencer) : (State.modSlate s f).common.chanLogs = s.common.chanLogs := rfl
@[simp] theorem State.modSlate_host (s : State) (f : Sequencer → Sequencer) : (State.modSlate s f).common.host = s.common.host := rfl
@[simp] theorem State.modSlate_cal (s : State) (f : Sequencer → Sequencer) : (State.modSlate s f).common.cal = s.common.cal := rfl
@[simp] theorem State.modSlate_bw (s : State) (f : Sequencer → Sequencer) : (State.modSlate s f).common.bw = s.common.bw := rfl
@[simp] theorem State.modSlate_mon (s : State) (f : Sequencer → Sequencer) : (State.modSlate s f).common.mon = s.common.mon := rfl
@[simp] theorem State.modSlate_held (s : State) (f : Sequencer → Sequencer) : (State.modSlate s f).common.held = s.common.held := rfl
@[simp] theorem State.modSlate_resetDue (s : State) (f : Sequencer → Sequencer) : (State.modSlate s f).common.resetDue = s.common.resetDue := rfl
@[simp] theorem State.modSlate_chans (s : State) (f : Sequencer → Sequencer) : (State.modSlate s f).chans = s.chans := rfl
@[simp] theorem State.modSlate_pending (s : State) (f : Sequencer → Sequencer) : (State.modSlate s f).pending = s.pending := rfl

@[simp] theorem State.putChan_common (s : State) (c : Fin 6) (x : Chan) : (s.putChan c x).common = s.common := rfl
@[simp] theorem State.putChan_pending (s : State) (c : Fin 6) (x : Chan) : (s.putChan c x).pending = s.pending := rfl
@[simp] theorem State.putChan_chan (s : State) (c : Fin 6) (x : Chan) : (s.putChan c x).chan c = x := by
 simp [State.putChan, State.chan]
theorem State.putChan_chan_ne (s : State) (c d : Fin 6) (x : Chan) (h : d ≠ c) : (s.putChan c x).chan d = s.chan d := by
  simp only [State.putChan, State.chan, Fin.getElem_fin]
  exact Vector.getElem_set_ne c.isLt d.isLt (fun e => h (Fin.ext e.symm))
@[simp] theorem State.putChanLog_chans (s : State) (c : Fin 6) (p : LogPath) : (s.putChanLog c p).chans = s.chans := rfl
@[simp] theorem State.putChanLog_pending (s : State) (c : Fin 6) (p : LogPath) : (s.putChanLog c p).pending = s.pending := rfl
@[simp] theorem State.putChanLog_n (s : State) (c : Fin 6) (p : LogPath) : (s.putChanLog c p).common.n = s.common.n := rfl
@[simp] theorem CalBlock.onSlot_write (b : CalBlock) (i : Nat) (f : Slot → Slot) : (b.onSlot i f).write = b.write := rfl
@[simp] theorem CalBlock.onSlot_run (b : CalBlock) (i : Nat) (f : Slot → Slot) : (b.onSlot i f).run = b.run := rfl
@[simp] theorem CalBlock.onSlot_traces (b : CalBlock) (i : Nat) (f : Slot → Slot) : (b.onSlot i f).traces = b.traces := rfl
@[simp] theorem CalBlock.onSlot_slots (b : CalBlock) (i : Nat) (f : Slot → Slot) :
    (b.onSlot i f).slots = listPut b.slots i (f (b.slots.getD i {})) := rfl

end Sys2Proof.Machine
end

