-- ==== Sys2Proof/Laws/Isolation.lean ====
section
/-!
SUPPORT. What an act on one part of the block leaves of the channels: acts of the common block leave them all, an act of one channel the
others.
-/

set_option Elab.async false

namespace Sys2Proof.Machine

theorem State.onLogs_chans (s : State) (f : LogNode → LogNode) : (s.onLogs f).chans = s.chans := rfl

theorem State.refuse1_chans (s : State) (r : LogRec) : (s.refuse1 r).chans = s.chans := by
  unfold State.refuse1; split; rfl

theorem State.tidy_chans (s : State) : s.tidy.chans = s.chans := by
  unfold State.tidy
  rw [State.onLogs_chans, foldl_const (fun (s : State) => s.chans) _ (fun s r => State.refuse1_chans s r)]
  rfl

theorem State.onN_chans (s : State) (f : Node → Node) : (s.onN f).chans = s.chans := by
  unfold State.onN; rw [State.tidy_chans]; rfl

theorem State.onBw_chans (s : State) (f : BwNode → BwNode) : (s.onBw f).chans = s.chans := by
  unfold State.onBw; rw [State.tidy_chans]

theorem State.onCal_chans (s : State) (f : CalNode → CalNode) : (s.onCal f).chans = s.chans := by
  unfold State.onCal; rw [State.tidy_chans]

theorem State.onMon_chans (s : State) (f : MonNode → MonNode) : (s.onMon f).chans = s.chans := by
  unfold State.onMon; rw [State.tidy_chans]

theorem State.onLog_chans (s : State) (f : LogNode → LogNode) : (s.onLog f).chans = s.chans := by
  unfold State.onLog; rw [State.tidy_chans, State.onLogs_chans]

theorem State.report_chans (c : Fin 6) (s : State) (x : Signal) : (State.report c s x).chans = s.chans := by
  unfold State.report
  split
  · rw [State.onN_chans]
  · rw [State.onN_chans]
  · rw [State.onN_chans]
  · rw [State.onBw_chans]

theorem State.startStep_chans (s : State) : s.startStep.chans = s.chans := by
  unfold State.startStep; dsimp only; split <;> rfl

/-- Accounting for the records of channel `c` leaves the other channels. -/
theorem State.shedChan_chan_ne (c d : Fin 6) (h : d ≠ c) (s : State) : (State.shedChan c s).chan d = s.chan d := by
  unfold State.shedChan
  dsimp only
  rw [foldl_const (fun (s : State) => s.chan d)]
  · exact State.putChan_chan_ne _ _ _ _ h
  · intro b a
    have hr : (b.refuse1 a).chan d = b.chan d := by unfold State.chan; rw [State.refuse1_chans]
    rw [← hr]
    generalize b.refuse1 a = t
    generalize chanPath a _ true (t.chan c).n _ = q
    exact State.putChan_chan_ne t c d { t.chan c with n := q.1 } h

/-- An act of channel `c` leaves the other channels. -/
theorem State.settle_chan_ne (s : State) (c d : Fin 6) (x : Chan) (h : d ≠ c) : (s.settle c x).chan d = s.chan d := by
  unfold State.settle
  dsimp only
  unfold State.chan
  rw [State.startStep_chans, State.tidy_chans]
  change (State.shedChan c _).chan d = s.chan d
  rw [State.shedChan_chan_ne c d h]
  unfold State.chan
  rw [foldl_const (fun (s : State) => s.chans) _ (fun s x => State.report_chans c s x)]
  exact State.putChan_chan_ne s c d _ h

theorem State.onChan_chan_ne (s : State) (c d : Fin 6) (f : Chan → Chan) (h : d ≠ c) : (s.onChan c f).chan d = s.chan d :=
  State.settle_chan_ne s c d _ h

theorem State.onUp_chan_ne (s : State) (c d : Fin 6) (f : Chan → Chan) (h : d ≠ c) : (s.onUp c f).chan d = s.chan d := by
  unfold State.onUp; split
  · rfl
  · exact State.onChan_chan_ne s c d f h

theorem State.onClocked_chan_ne (s : State) (c d : Fin 6) (f : Chan → Chan) (h : d ≠ c) : (s.onClocked c f).chan d = s.chan d := by
  unfold State.onClocked; split
  · rfl
  · exact State.onUp_chan_ne s c d f h

theorem State.onLive_chan_ne (s : State) (c d : Fin 6) (f : Chan → Chan) (h : d ≠ c) : (s.onLive c f).chan d = s.chan d := by
  unfold State.onLive; split
  · rfl
  · exact State.onUp_chan_ne s c d f h

end Sys2Proof.Machine
end

