-- ==== Sys2Proof/Laws/Tables.lean ====
section
/-!
SUPPORT. Reading after writing: lists by position, tables by key, and the objects of a unit.
-/

set_option Elab.async false

namespace Sys2Proof.Machine

theorem listPut_length {α : Type} (l : List α) (i : Nat) (v : α) : (listPut l i v).length = l.length := by
  induction l generalizing i with
  | nil => rfl
  | cons x r ih => cases i <;> simp [listPut, ih]

theorem listPut_getD_same {α : Type} (l : List α) (i : Nat) (v d : α) (h : i < l.length) : (listPut l i v).getD i d = v := by
  induction l generalizing i with
  | nil => simp at h
  | cons x r ih =>
    cases i with
    | zero => rfl
    | succ i => simpa [listPut] using ih i (by simpa using h)

theorem listPut_getD_ne {α : Type} (l : List α) (i j : Nat) (v d : α) (h : i ≠ j) : (listPut l i v).getD j d = l.getD j d := by
  induction l generalizing i j with
  | nil => rfl
  | cons x r ih =>
    cases i <;> cases j <;> simp_all [listPut]

theorem tabGet_del_same {α : Type} (d : α) (t : List (Nat × α)) (k : Nat) : tabGet d (tabDel t k) k = d := by
  induction t with
  | nil => rfl
  | cons p r ih =>
    obtain ⟨j, v⟩ := p
    by_cases h : j = k <;> simp [tabDel, tabGet, h, ih]

theorem tabGet_del_ne {α : Type} (d : α) (t : List (Nat × α)) (k i : Nat) (h : i ≠ k) : tabGet d (tabDel t k) i = tabGet d t i := by
  induction t with
  | nil => rfl
  | cons p r ih =>
    obtain ⟨j, v⟩ := p
    by_cases hj : j = k
    · subst hj; simp [tabDel, tabGet, ih, Ne.symm h]
    · simp [tabDel, tabGet, hj, ih]

theorem tabGet_ins_same {α : Type} (d : α) (t : List (Nat × α)) (k : Nat) (v : α) : tabGet d (tabIns t k v) k = v := by
  induction t with
  | nil => simp [tabIns, tabGet]
  | cons p r ih =>
    obtain ⟨j, w⟩ := p
    simp only [tabIns]
    split
    · simp [tabGet]
    · split
      · simp [tabGet]
      · rename_i h; simp [tabGet, Ne.symm h, ih]

theorem tabGet_ins_ne {α : Type} (d : α) (t : List (Nat × α)) (k i : Nat) (v : α) (h : i ≠ k) :
    tabGet d (tabIns t k v) i = tabGet d t i := by
  induction t with
  | nil => simp [tabIns, tabGet, Ne.symm h]
  | cons p r ih =>
    obtain ⟨j, w⟩ := p
    simp only [tabIns]
    split
    · simp [tabGet, Ne.symm h]
    · split
      · rename_i hk; subst hk; simp [tabGet, Ne.symm h]
      · simp [tabGet, ih]

/-- A table reads what was put under the key. -/
theorem tabGet_put_same {α : Type} [DecidableEq α] (d : α) (t : List (Nat × α)) (k : Nat) (v : α) : tabGet d (tabPut d t k v) k = v := by
  unfold tabPut
  split
  · rename_i h; rw [tabGet_del_same, h]
  · exact tabGet_ins_same d t k v

/-- Every other key reads as before. -/
theorem tabGet_put_ne {α : Type} [DecidableEq α] (d : α) (t : List (Nat × α)) (k i : Nat) (v : α) (h : i ≠ k) :
    tabGet d (tabPut d t k v) i = tabGet d t i := by
  unfold tabPut
  split
  · exact tabGet_del_ne d t k i h
  · exact tabGet_ins_ne d t k i v h

theorem storeFind_eq (t : Store) (k : Nat) : storeGet t k = tabGet (dfltOf k) t k := by
  unfold storeGet
  induction t with
  | nil => rfl
  | cons p r ih =>
    obtain ⟨j, v⟩ := p
    by_cases h : j = k <;> simp [storeFind, tabGet, h, ih]

theorem tabGet_put_ne' {α : Type} [DecidableEq α] (d e : α) (t : List (Nat × α)) (k i : Nat) (v : α) (h : i ≠ k) :
    tabGet e (tabPut d t k v) i = tabGet e t i := by
  unfold tabPut
  split
  · exact tabGet_del_ne e t k i h
  · exact tabGet_ins_ne e t k i v h

/-- An object reads as it was written. -/
theorem storeGet_put_same (t : Store) (k : Nat) (v : List Nat) : storeGet (storePut t k v) k = v := by
  rw [storeFind_eq]; exact tabGet_put_same _ t k v

/-- Every other object reads as before. -/
theorem storeGet_put_ne (t : Store) (k i : Nat) (v : List Nat) (h : i ≠ k) : storeGet (storePut t k v) i = storeGet t i := by
  rw [storeFind_eq, storeFind_eq]; exact tabGet_put_ne' _ _ t k i v h

namespace Node

theorem elems_put_same (n : Node) (k : Nat) (v : List Nat) : (n.put k v).elems k = v := storeGet_put_same n.objs k v
theorem elems_put_ne (n : Node) (k i : Nat) (v : List Nat) (h : i ≠ k) : (n.put k v).elems i = n.elems i :=
  storeGet_put_ne n.objs k i v h
theorem num_putN_same (n : Node) (k v : Nat) : (n.putN k v).num k = v := by
  simp [num, elem, putN, elems_put_same]
theorem num_putN_ne (n : Node) (k i v : Nat) (h : i ≠ k) : (n.putN k v).num i = n.num i := by
  simp [num, elem, putN, elems_put_ne n k i _ h]
theorem elem_putE_same (n : Node) (k i v : Nat) (h : i < (n.elems k).length) : (n.putE k i v).elem k i = v := by
  simp only [elem, putE, elems_put_same]; exact listPut_getD_same _ i v 0 h
theorem elem_putE_ne (n : Node) (k i j v : Nat) (h : i ≠ j) : (n.putE k i v).elem k j = n.elem k j := by
  simp only [elem, putE, elems_put_same]; exact listPut_getD_ne _ i j v 0 h
theorem elem_put_ne (n : Node) (k i j : Nat) (v : List Nat) (h : i ≠ k) : (n.put k v).elem i j = n.elem i j := by
  simp only [elem, elems_put_ne n k i v h]

end Node

end Sys2Proof.Machine
end

