-- ==== Sys2Proof/Laws/Memory.lean ====
section
/-!
SUPPORT. Channel memory: what a write changes and keeps, and its canonical form.
-/

set_option Elab.async false

namespace Sys2Proof.Machine

theorem memGet_eq (m : List Host.Cell) (a : Nat) : memGet m a = tabGet memBlank m a := by
  induction m with
  | nil => rfl
  | cons p r ih => obtain ⟨j, v⟩ := p; simp [memGet, tabGet, ih]

/-- A byte reads as it was written. -/
theorem memGet_put_same (m : List Host.Cell) (a : Nat) (v : Byte) : memGet (memPut m a v) a = v := by
  rw [memGet_eq]; exact tabGet_put_same memBlank m a v

/-- A write of one byte leaves every other byte. -/
theorem memGet_put_ne (m : List Host.Cell) (a b : Nat) (v : Byte) (h : b ≠ a) : memGet (memPut m a v) b = memGet m b := by
  rw [memGet_eq, memGet_eq]; exact tabGet_put_ne memBlank m a b v h

theorem memWfFrom_mono (m : List Host.Cell) (l k : Nat) (h : l ≤ k) (w : memWfFrom (some k) m = true) : memWfFrom (some l) m = true := by
  cases m with
  | nil => rfl
  | cons p r => obtain ⟨a, v⟩ := p; simp [memWfFrom] at w ⊢; exact ⟨⟨by omega, w.1.2⟩, w.2⟩

theorem memWfFrom_none (m : List Host.Cell) (l : Nat) (w : memWfFrom (some l) m = true) : memWfFrom none m = true := by
  cases m with
  | nil => rfl
  | cons p r => obtain ⟨a, v⟩ := p; simp [memWfFrom] at w ⊢; exact ⟨w.1.2, w.2⟩

theorem memWfFrom_del (m : List Host.Cell) (l : Option Nat) (k : Nat) (w : memWfFrom l m = true) : memWfFrom l (tabDel m k) = true := by
  induction m generalizing l with
  | nil => exact w
  | cons p r ih =>
    obtain ⟨a, v⟩ := p
    simp only [memWfFrom, Bool.and_eq_true] at w
    obtain ⟨⟨h1, h2⟩, h3⟩ := w
    by_cases h : a = k
    · simp only [tabDel, h, if_true]
      apply ih
      cases l with
      | none => exact memWfFrom_none r a h3
      | some l => exact memWfFrom_mono r l a (Nat.le_of_lt (by simpa using h1)) h3
    · simp only [tabDel, h, if_false, memWfFrom, Bool.and_eq_true]
      exact ⟨⟨h1, h2⟩, ih _ h3⟩

theorem memWfFrom_ins (m : List Host.Cell) (l : Option Nat) (k : Nat) (v : Byte) (w : memWfFrom l m = true) (hv : v ≠ memBlank)
    (hl : ∀ x, l = some x → x < k) : memWfFrom l (tabIns m k v) = true := by
  induction m generalizing l with
  | nil => cases l <;> simp_all [tabIns, memWfFrom]
  | cons p r ih =>
    obtain ⟨a, u⟩ := p
    simp only [memWfFrom, Bool.and_eq_true] at w
    obtain ⟨⟨h1, h2⟩, h3⟩ := w
    simp only [tabIns]
    split
    · rename_i h
      simp only [memWfFrom, Bool.and_eq_true]
      refine ⟨⟨?_, by simpa using hv⟩, ⟨by simpa using h, h2⟩, h3⟩
      cases l <;> simp_all
    · split
      · rename_i h; subst h
        simp only [memWfFrom, Bool.and_eq_true]
        exact ⟨⟨by cases l <;> simp_all, by simpa using hv⟩, h3⟩
      · simp only [memWfFrom, Bool.and_eq_true]
        refine ⟨⟨h1, h2⟩, ih _ h3 ?_⟩
        intro x hx
        simp only [Option.some.injEq] at hx
        omega

/-- A write of one byte keeps the canonical form. -/
theorem memPut_wf (m : List Host.Cell) (a : Nat) (v : Byte) (w : memWf m = true) : memWf (memPut m a v) = true := by
  unfold memWf memPut tabPut at *
  split
  · exact memWfFrom_del m none a w
  · rename_i h; exact memWfFrom_ins m none a v w h (by simp)

/-- A write of bytes keeps the canonical form. -/
theorem memWrite_wf (m : List Host.Cell) (a : Nat) (bs : List Nat) (w : memWf m = true) : memWf (memWrite m a bs) = true := by
  induction bs generalizing m a with
  | nil => exact w
  | cons b bs ih => exact ih _ _ (memPut_wf m a _ w)

/-- Addressing the array anew keeps the canonical form (R378, R393). -/
theorem remap_wf (old new : MemCfg) (m : List Host.Cell) (w : memWf m = true) : memWf (remap old new m) = true := by
  have key : ∀ (l m : List Host.Cell), memWf m = true →
      memWf (l.foldl (fun m (c : Host.Cell) => memPut m (addrOf new.order new.density (placeOf old.order old.density c.1)) c.2) m) = true := by
    intro l
    induction l with
    | nil => exact fun _ h => h
    | cons c l ih => exact fun m h => ih _ (memPut_wf _ _ _ h)
  unfold remap
  split
  · exact w
  · exact key _ _ rfl

/-- A write of bytes leaves every byte outside them. -/
theorem memGet_write_ne (m : List Host.Cell) (a b : Nat) (bs : List Nat) (h : b < a ∨ a + bs.length ≤ b) :
    memGet (memWrite m a bs) b = memGet m b := by
  induction bs generalizing m a with
  | nil => rfl
  | cons x bs ih =>
    simp only [List.length_cons] at h
    rw [memWrite, ih _ _ (by omega), memGet_put_ne _ _ _ _ (by omega)]

end Sys2Proof.Machine
end

