-- ==== Sys2Proof/Laws/Settle.lean ====
section
/-!
SUPPORT. What follows an act of a channel - the recorder, the wake causes, the records shed - leaves the parts of the channel that belong to
no such unit, and leaves a channel that reports nothing as it is.
-/

set_option Elab.async false

namespace Sys2Proof.Machine

/-- The parts of a channel that neither the recorder, nor the memory controller, nor the power manager, nor the unit keeps. -/
def Chan.rest (c : Chan) : Chan :=
  { c with n := { chan := true, origin := 0 }, power := {}, mem := [], mc := {}, rushes := {}, notes := [] }

theorem Chan.mapN_rest (s : Chan) (x1 : Node → Node) :
    (Chan.mapN s x1).rest = s.rest := by
  unfold Chan.mapN
  grind [Chan.rest]

theorem Chan.signal_rest (s : Chan) (x1 : Signal) :
    (Chan.signal s x1).rest = s.rest := by
  unfold Chan.signal
  grind [Chan.rest]

theorem Chan.memGo_rest (s : Chan) (x1 : Nat) :
    (Chan.memGo s x1).rest = s.rest := by
  unfold Chan.memGo
  grind [Chan.rest, Chan.mapN_rest]

theorem Chan.modMc_rest (s : Chan) (x1 : MemCtl → MemCtl) :
    (Chan.modMc s x1).rest = s.rest := by
  unfold Chan.modMc
  grind [Chan.rest]

theorem Chan.memBadAddr_rest (s : Chan) (x1 : Nat) :
    (Chan.memBadAddr s x1).rest = s.rest := by
  unfold Chan.memBadAddr
  grind [Chan.rest, Chan.mapN_rest]

theorem Chan.memAccesses_rest (s : Chan) (x1 : Bool) (x2 : Nat) (x3 : Nat) (x4 : Option Nat) :
    (Chan.memAccesses s x1 x2 x3 x4).rest = s.rest := by
  unfold Chan.memAccesses
  apply foldl_const Chan.rest
  intro c j
  rfl

theorem Chan.entryAbort_rest (s : Chan) :
    (Chan.entryAbort s).rest = s.rest := by
  unfold Chan.entryAbort
  grind [Chan.rest, Chan.signal_rest]

theorem Chan.memArrive_rest (s : Chan) :
    (Chan.memArrive s).rest = s.rest := by
  unfold Chan.memArrive
  grind [Chan.rest, Chan.entryAbort_rest, Chan.mapN_rest, Chan.memGo_rest, Chan.modMc_rest]

theorem Chan.memStore_rest (s : Chan) (x1 : Nat) (x2 : Nat) (x3 : List Nat) (x4 : Nat) :
    (Chan.memStore s x1 x2 x3 x4).1.rest = s.rest := by
  unfold Chan.memStore
  grind [Chan.rest, Chan.memAccesses_rest, Chan.memArrive_rest, Chan.memBadAddr_rest, Chan.modMc_rest]

theorem Chan.memStoreRing_rest (s : Chan) (x1 : Nat) (x2 : Nat) (x3 : Nat) (x4 : Nat) (x5 : List Nat) :
    (Chan.memStoreRing s x1 x2 x3 x4 x5).1.rest = s.rest := by
  unfold Chan.memStoreRing
  grind [Chan.rest, Chan.memStore_rest]

theorem Chan.srEnd_rest (s : Chan) (x1 : SrCause) :
    (Chan.srEnd s x1).rest = s.rest := by
  unfold Chan.srEnd
  grind [Chan.rest, Chan.memGo_rest, Chan.modMc_rest]

theorem Chan.modJrn_rest (s : Chan) (x1 : Rushes → Rushes) :
    (Chan.modJrn s x1).rest = s.rest := by
  unfold Chan.modJrn
  grind [Chan.rest]

theorem Chan.kItem_rest (s : Chan) (x1 : Nat) (x2 : Nat) (x3 : Nat) (x4 : List Nat) :
    (Chan.kItem s x1 x2 x3 x4).rest = s.rest := by
  unfold Chan.kItem
  grind [Chan.rest, Chan.modJrn_rest]

theorem Chan.ckptMarks_rest (s : Chan) :
    (Chan.ckptMarks s).rest = s.rest := by
  unfold Chan.ckptMarks
  grind [Chan.rest, Chan.mapN_rest]

theorem Chan.journalFrozen_rest (s : Chan) :
    (Chan.journalFrozen s).rest = s.rest := by
  unfold Chan.journalFrozen
  grind [Chan.rest, Chan.mapN_rest, Chan.modJrn_rest]

theorem Chan.journalLoss_rest (s : Chan) (x1 : Nat) :
    (Chan.journalLoss s x1).rest = s.rest := by
  unfold Chan.journalLoss
  grind [Chan.rest, Chan.mapN_rest]

theorem Chan.entryLost_rest (s : Chan) (x1 : JrnWait) (x2 : Nat) :
    (Chan.entryLost s x1 x2).rest = s.rest := by
  unfold Chan.entryLost
  grind [Chan.rest, Chan.journalLoss_rest, Chan.modJrn_rest]

theorem Chan.entryWrite_rest (s : Chan) (x1 : JrnWait) :
    (Chan.entryWrite s x1).rest = s.rest := by
  unfold Chan.entryWrite
  grind [Chan.rest, Chan.ckptMarks_rest, Chan.entryLost_rest, Chan.journalFrozen_rest, Chan.kItem_rest, Chan.mapN_rest, Chan.memStoreRing_rest, Chan.modJrn_rest]

theorem Chan.queueDrain_rest (s : Chan) (x1 : Nat) :
    (Chan.queueDrain s x1).rest = s.rest := by
  induction x1 generalizing s with
  | zero => rfl
  | succ k ih =>
    unfold Chan.queueDrain
    split
    · rfl
    · split
      · rfl
      · rw [ih, Chan.entryWrite_rest, Chan.modJrn_rest]

theorem Chan.drainAll_rest (s : Chan) : (Chan.drainAll s).rest = s.rest := Chan.queueDrain_rest ..

theorem Chan.ckptDrop_rest (s : Chan) (x1 : Pos → Bool) : (Chan.ckptDrop x1 s).rest = s.rest := by
  unfold Chan.ckptDrop
  rw [Chan.drainAll_rest, Chan.modJrn_rest]

theorem Chan.offer_rest (s : Chan) (x1 : JrnWait) :
    (Chan.offer s x1).rest = s.rest := by
  unfold Chan.offer
  simp only [Bool.not_eq_true', Bool.or_eq_true, decide_eq_true_eq]
  repeat' split
  all_goals simp only [Chan.entryLost_rest, Chan.drainAll_rest, Chan.modJrn_rest, Chan.journalLoss_rest]

theorem Chan.journal_rest (s : Chan) (x1 : Nat) (x2 : List Nat) :
    (Chan.journal s x1 x2).rest = s.rest := by
  unfold Chan.journal
  grind [Chan.rest, Chan.offer_rest]

theorem Chan.lineEntry_rest (s : Chan) (x1 : HeadLine) :
    (Chan.lineEntry s x1).rest = s.rest := by
  unfold Chan.lineEntry
  grind [Chan.rest, Chan.journalLoss_rest, Chan.offer_rest]

theorem Chan.edgeEntry_rest (s : Chan) (x1 : Nat) (x2 : Nat) (x3 : Pos) (x4 : Int) (x5 : Int) (x6 : Nat) (x7 : Nat) (x8 : Nat) :
    (Chan.edgeEntry s x1 x2 x3 x4 x5 x6 x7 x8).rest = s.rest := by
  unfold Chan.edgeEntry
  grind [Chan.rest, Chan.modJrn_rest, Chan.offer_rest]

theorem Chan.freeze_rest (s : Chan) (x1 : Nat) :
    (Chan.freeze s x1).rest = s.rest := by
  unfold Chan.freeze
  split
  · split <;> simp only [Chan.journal_rest, Chan.mapN_rest, Chan.modJrn_rest, Chan.ckptDrop_rest]
  · exact Chan.mapN_rest _ _
  · exact Chan.mapN_rest _ _
  · rfl

theorem Chan.freezeCauses_rest (s : Chan) :
    (Chan.freezeCauses s).rest = s.rest := by
  unfold Chan.freezeCauses
  rw [foldl_const Chan.rest _ Chan.freeze_rest, Chan.mapN_rest]

theorem Chan.takeNote_rest (s : Chan) (x1 : Note) :
    (Chan.takeNote s x1).rest = s.rest := by
  unfold Chan.takeNote
  grind [Chan.rest, Chan.edgeEntry_rest, Chan.kItem_rest, Chan.lineEntry_rest, Chan.offer_rest]

theorem Chan.takeNotes_rest (s : Chan) :
    (Chan.takeNotes s).rest = s.rest := by
  unfold Chan.takeNotes
  rw [Chan.freezeCauses_rest, foldl_const Chan.rest _ Chan.takeNote_rest]
  rfl

theorem Chan.modPwr_rest (s : Chan) (x1 : ChanPower → ChanPower) :
    (Chan.modPwr s x1).rest = s.rest := by
  unfold Chan.modPwr
  grind [Chan.rest]

theorem Chan.pwrPhase_rest (s : Chan) (x1 : PowerPhase) :
    (Chan.pwrPhase s x1).rest = s.rest := by
  unfold Chan.pwrPhase
  grind [Chan.rest, Chan.modPwr_rest, Chan.signal_rest]

theorem Chan.pwrWake_rest (s : Chan) :
    (Chan.pwrWake s).rest = s.rest := by
  unfold Chan.pwrWake
  grind [Chan.rest, Chan.modPwr_rest, Chan.pwrPhase_rest, Chan.srEnd_rest]

theorem Chan.takeCause_rest (s : Chan) :
    (Chan.takeCause s).rest = s.rest := by
  unfold Chan.takeCause
  grind [Chan.rest, Chan.entryAbort_rest, Chan.modPwr_rest, Chan.pwrWake_rest, Chan.srEnd_rest]

theorem State.chan_of_chans (s t : State) (c : Fin 6) (h : s.chans = t.chans) : s.chan c = t.chan c := by
  unfold State.chan; rw [h]

/-- Accounting for shed records changes only the unit of the channel. -/
theorem State.shedChan_rest (c : Fin 6) (s : State) : ((State.shedChan c s).chan c).rest = (s.chan c).rest := by
  unfold State.shedChan
  dsimp only
  rw [foldl_const (fun (s : State) => (s.chan c).rest)]
  · rw [State.putChan_chan]; rfl
  · intro b a
    rw [← State.chan_of_chans (b.refuse1 a) b c (State.refuse1_chans b a)]
    generalize b.refuse1 a = t
    generalize chanPath a _ true (t.chan c).n _ = q
    change ((t.putChan c { t.chan c with n := q.1 }).chan c).rest = _
    rw [State.putChan_chan]; rfl

/-- An act of a channel whose start-up does not end in it: the parts of the channel that no follow-up touches are the act's. -/
theorem State.settle_rest (s : State) (c : Fin 6) (x : Chan) (h : x.power.started = (s.chan c).power.started) :
    ((s.settle c x).chan c).rest = x.rest := by
  unfold State.settle
  dsimp only
  have hs : (x.power.started && !(s.chan c).power.started) = false := by rw [h]; cases (s.chan c).power.started <;> rfl
  rw [hs]
  rw [State.chan_of_chans _ _ c (State.startStep_chans _), State.chan_of_chans _ _ c (State.tidy_chans _), State.shedChan_rest]
  rw [foldl_const (fun (s : State) => (s.chan c).rest) _ (fun s x => by rw [State.chan_of_chans _ _ c (State.report_chans c s x)])]
  rw [State.putChan_chan]
  have hw : x.takeNotes.takeCause.rest = x.rest := by rw [Chan.takeCause_rest, Chan.takeNotes_rest]
  simp only [Bool.false_eq_true, if_false]
  split
  · exact hw
  · exact (Chan.mapN_rest _ (·.bar2Run)).trans hw

/-- An act after which a channel has nothing to report leaves it as the act gives it. -/
theorem State.settle_quiet (s : State) (c : Fin 6) (x : Chan) (h : x.power.started = (s.chan c).power.started)
    (hn : x.notes = []) (hf : x.n.fresh = []) (hd : x.n.shed = []) (hw : x.n.fn.waiting = []) (hc : x.power.cause = false)
    (hg : x.power.sig = []) :
    (s.settle c x).chan c = x := by
  have ht : x.takeNotes = x := by
    obtain ⟨n, _, _, _, _, _, _, _, _, _, _, _, _, _, _, _, _, notes⟩ := x
    obtain ⟨_, _, _, _, _, _, _, _, _, fresh, _, _, _, _, _, _⟩ := n
    simp only at hn hf
    subst hn hf
    simp [Chan.takeNotes, Chan.freezeCauses, Chan.mapN]
  have hk : x.takeCause = x := by unfold Chan.takeCause; rw [hc]; rfl
  have hb : x.mapN (·.bar2Run) = x := by simp [Chan.mapN, Node.bar2Run, hw]
  have hp : ({ x with power := { x.power with sig := [] } } : Chan) = x := by rw [← hg]
  have hq : (x.mapN fun n => { n with shed := [] }) = x := by unfold Chan.mapN; rw [← hd]
  unfold State.settle
  dsimp only
  have hs : (x.power.started && !(s.chan c).power.started) = false := by rw [h]; cases (s.chan c).power.started <;> rfl
  rw [hs]
  rw [State.chan_of_chans _ _ c (State.startStep_chans _), State.chan_of_chans _ _ c (State.tidy_chans _)]
  simp only [Bool.false_eq_true, if_false, ht, hk, hb, ite_self, hg, List.foldl_nil, hp]
  unfold State.shedChan
  dsimp only
  rw [State.putChan_chan, hd, List.foldl_nil, hq, State.putChan_chan]

end Sys2Proof.Machine
end

