-- ==== Sys2Proof/Laws/Writes.lean ====
section
/-!
SUPPORT. What a host write of one object comes to where it is heard and accepted; what every command does with the queue and a due reset.
-/

set_option Elab.async false

namespace Sys2Proof.Machine

open State

/-- A command's own state, on a device that runs and is not told to reset itself. -/
theorem State.does_running {s t : State} (h : s.running) (ht : t.common.resetDue = false) : s.does t = .next t := by
  unfold State.does State.dueReset
  simp [h.1, ht]

/-- What an accepted write leaves, by either path. -/
theorem State.viaWrite_ok {s t : State} {via : Via} {i k : Nat} {seg : Option Segment} {data : List Nat} {p : Place} (hv : s.hears i via)
    (hp : place i k = some p) (hb : s.barEffect none p seg data = (.ok, t)) : s.viaWrite via i k seg data = t := by
  cases via with
  | kdp => simp [State.viaWrite, hp, hb]
  | bar f =>
    obtain ⟨h0, h1, h2, h3, h4⟩ := hv
    simp [State.viaWrite, hp, hb, h0, State.hostWrite, State.hostGate, h1, h2, h3, h4, barEnd]

/-- An accepted direct write of a whole value. -/
theorem State.barEffect_whole {s t : State} {p : Place} {data : List Nat} {w : Written} (ha : p.row.acc = .rw ∨ p.row.acc = .wo)
    (h63 : p.key / 256 ≠ 0x217F) (hr : s.reach none p = .ok s) (hin : ∀ base, p.row.incoming base none data = .ok w) (hd : s.direct p w = (.ok, t)) :
    s.barEffect none p none data = (.ok, t) := by
  unfold State.barEffect State.writeItem
  rcases ha with h | h <;> simp only [h, hr, hin, hd, if_neg h63]

/-- An accepted direct write of a segment. -/
theorem State.barEffect_segment {s t : State} {p : Place} {x : Segment} {data : List Nat} {w : Written}
    (ha : p.row.acc = .rw ∨ p.row.acc = .wo) (h63 : p.key / 256 ≠ 0x217F) (hr : s.reach none p = .ok s)
    (hin : p.row.incoming (s.writeBase p) (some x) data = .ok w) (hd : s.direct p w = (.ok, t)) :
    s.barEffect none p (some x) data = (.ok, t.setOpenDirect p x.more) := by
  unfold State.barEffect State.writeItem
  rcases ha with h | h <;> simp only [h, hr, hin, hd, if_neg h63]

/-- Little-endian bytes (R7). -/
theorem leBytes_length (n v : Nat) : (leBytes n v).length = n := by
  induction n generalizing v with
  | zero => rfl
  | succ n ih => simp [leBytes, ih]

theorem ofLe_leBytes (n v : Nat) (h : v < 256 ^ n) : ofLe (leBytes n v) = v := by
  induction n generalizing v with
  | zero => simp at h; simp [leBytes, ofLe, h]
  | succ n ih =>
    have : v / 256 < 256 ^ n := by rw [Nat.div_lt_iff_lt_mul (by decide)]; rwa [Nat.pow_succ] at h
    simp only [leBytes, ofLe, ih _ this]; omega

/-- A scalar written whole. -/
theorem ObjInfo.incoming_scalar {row : ObjInfo} {n v : Nat} (hs : row.shape = .scalar) (hk : row.keep = 0) (hn : row.ty.size = n)
    (hv : v < 256 ^ n) (hc : row.chk.ok row [v] = true) (base : List Nat) : row.incoming base none (leBytes n v) = .ok { vals := [v] } := by
  have h1 : row.checkBytes (leBytes n v) = .ok [v] := by
    unfold ObjInfo.checkBytes ObjInfo.mask ObjInfo.decodeVals
    have : (leBytes n v).take n = leBytes n v := List.take_of_length_le (Nat.le_of_eq (leBytes_length n v))
    simp only [hs, hn, hk, leBytes_length, if_true, this, ofLe_leBytes n v hv, hc]
  unfold ObjInfo.incoming
  simp only [h1, ObjInfo.isScalar, ObjInfo.patched, hs]
  simp

/-- A write of a whole value to an object of the common block. -/
theorem State.viaWrite_common {s t : State} {via : Via} {i k : Nat} {data : List Nat} {key : Nat} {row : ObjInfo} {w : Written}
    (hv : s.hears i via) (hp : place i k = some ⟨none, key, row⟩) (ha : row.acc = .rw ∨ row.acc = .wo) (h63 : key / 256 ≠ 0x217F)
    (hin : ∀ base, row.incoming base none data = .ok w) (hact : s.act key w = (.ok, t)) : s.viaWrite via i k none data = t := by
  refine State.viaWrite_ok hv hp (State.barEffect_whole ha h63 rfl hin ?_)
  unfold State.direct
  rcases ha with h | h <;> simp only [h, hact]

/-- A channel that answers is reached. -/
theorem State.reach_answers {s : State} {c : Fin 6} {key : Nat} {row : ObjInfo} (h : (s.chan c).answers) :
    s.reach none ⟨some c, key, row⟩ = .ok s := by
  unfold State.reach State.wakeFor; simp [h.1, h.2.1, h.2.2]

/-- A write of a whole value to an object of a channel, but a bank. -/
theorem State.viaWrite_chan {s : State} {via : Via} {i k : Nat} {data : List Nat} {c : Fin 6} {key : Nat} {row : ObjInfo} {w : Written} {x : Chan}
    (hv : s.hears i via) (hp : place i k = some ⟨some c, key, row⟩) (ha : row.acc = .rw ∨ row.acc = .wo) (hc : (s.chan c).answers)
    (ht : (s.chan c).takes key) (h63 : key / 256 ≠ 0x217F) (hk : ¬(key = K.CORR_BANK0 ∨ key = K.CORR_BANK1))
    (hin : ∀ base, row.incoming base none data = .ok w) (hact : (s.chan c).act key w = (.ok, x)) :
    s.viaWrite via i k none data = s.settle c (x.dictEntry key w.vals) := by
  refine State.viaWrite_ok hv hp (State.barEffect_whole ha h63 (State.reach_answers hc) hin ?_)
  have hd : (s.chan c).direct key row.acc w = (.ok, x.dictEntry key w.vals) := by
    unfold Chan.direct
    rcases ha with h | h <;> rcases ht with h' | h' <;> simp [h, h', hact]
  unfold State.direct
  simp only [hd]
  rw [if_neg hk]


/-- A command leaves the queue as its own state has it. -/
theorem State.does_pending {s t : State} (h : t.pending = s.pending) : ∀ u, s.does t = .next u → u.pending = s.pending := by
  intro u hu; unfold State.does at hu; simp only [Host.Outcome.next.injEq] at hu; subst hu; split
  · exact (State.dueReset_keeps t).trans h
  · rfl

/-- A device taken down has no reset due. -/
theorem State.deviceDown_due (s : State) (h : Held) (k : Nat) : (s.deviceDown h k).common.resetDue = false := by
  unfold State.deviceDown; exact (State.mapN_keeps ..).2.2.trans rfl

/-- A fold over channels keeps the reset that is due. -/
theorem foldl_due (f : State → Fin 6 → State) (h : ∀ s a, (f s a).common.resetDue = s.common.resetDue) (l : List (Fin 6)) (s : State) :
    (l.foldl f s).common.resetDue = s.common.resetDue := foldl_const (·.common.resetDue) f h l s

/-- A device that starts has no reset due. -/
theorem State.startUp_due (s : State) (k fuse : Nat) (dev : Option StoreDev) : (s.startUp k fuse dev).common.resetDue = false := by
  unfold State.startUp
  have h0 : ((s.cleared .none k).onN (fuseRead fuse)).common.resetDue = false := (State.onN_keeps ..).2.2.trans rfl
  revert h0
  generalize (s.cleared .none k).onN (fuseRead fuse) = a
  intro h0
  extract_lets s0 s1 s2 auto s3 vid sid win on s4 s5
  have h1 : s1.common.resetDue = false := (State.onCal_keeps ..).2.2.trans h0
  have h2 : s2.common.resetDue = false := by
    unfold s2; split
    · exact (State.persistLoad_keeps ..).2.2.trans h1
    · exact (State.onN_keeps ..).2.2.trans h1
  have h3 : s3.common.resetDue = false := by
    refine (foldl_due _ ?_ _ _).trans h2
    intro s a
    split
    · split
      · exact (State.onN_keeps ..).2.2
      · exact (State.onN_keeps ..).2.2
    · rfl
  have h4 : s4.common.resetDue = false := (State.modHost_keeps ..).2.2.trans h3
  have h5 : s5.common.resetDue = false := by
    unfold s5; split
    · exact (State.onN_keeps ..).2.2.trans h4
    · exact h4
  exact (State.onAll_keeps ..).2.2.trans h5

theorem State.boot_due (s : State) (k fuse : Nat) (dev : Option StoreDev) : (s.boot k fuse dev).common.resetDue = false := by
  unfold State.boot; exact (State.onTb_keeps _ _).2.2.trans (State.startUp_due s k fuse dev)

theorem ite_due (b : Bool) (a s : State) (ha : a.common.resetDue = false) (hs : b = false → s.common.resetDue = false) :
    (if b then a else s).common.resetDue = false := by
  cases b
  · exact hs rfl
  · exact ha

/-- A due reset has acted. -/
theorem State.dueReset_due (s : State) : s.dueReset.common.resetDue = false := by
  unfold State.dueReset
  extract_lets n dev
  apply ite_due
  · exact State.boot_due _ _ _ _
  · exact fun h => h

/-- No reset stays due behind a command. -/
theorem State.does_due {s t : State} (h : s.common.resetDue = false) : ∀ u, s.does t = .next u → u.common.resetDue = false := by
  intro u hu; unfold State.does at hu; simp only [Host.Outcome.next.injEq] at hu; subst hu; split
  · exact State.dueReset_due t
  · exact h

end Sys2Proof.Machine
end

