-- ==== Sys2Proof/Machine/Package.lean ====
section
/-!
DEFINITION. The ball map of the package (00 R15; 22 R564-R568): constant data beside the machine, which no step reads.
-/

namespace Sys2Proof.Machine

/-- The supplies, in the order of their element numbers (R570). -/
inductive Rail where
  | vddCore | vddSram | vddPll | vddaSer | vddhSer | vddaPcie | vddhPcie | vddpMem | vddqMem | vddio18 | vddaAdc | vddio33 | vddioAux
  deriving DecidableEq, Repr

/-- What a ball carries (R565); `neg` is the N, and `c` after a memory clock's name the complement. -/
inductive Ball where
  | laneRx (sw lane : Nat) (neg : Bool)
  | laneUp (sw lane : Nat) (neg : Bool)
  /-- the `k`-th of SWc_STK0–3, TRG0–3, ILL0–1, LMON0–1, AUX_D0–15, AUX_PCLK, AUX_LVAL, AUX_FVAL and AUX_DVAL -/
  | pin (sw k : Nat)
  | dq (sw n : Nat)
  | dmi (sw byte : Nat)
  | rdqs (sw byte : Nat) (comp : Bool)
  | wck (sw byte : Nat) (comp : Bool)
  | ca (sw sub n : Nat)
  | cs (sw sub rank : Nat)
  | ck (sw sub : Nat) (comp : Bool)
  | memReset (sw : Nat)
  | zq (sw : Nat)
  | duplexTx (lane : Nat) (neg : Bool)
  | duplexRx (lane : Nat) (neg : Bool)
  | pcieTx (lane : Nat) (neg : Bool)
  | pcieRx (lane : Nat) (neg : Bool)
  | refclkPcie (neg : Bool)
  | perst
  /-- pair 0 A, 1 B, 2 Z -/
  | enc (n pair : Nat) (neg : Bool)
  /-- pin 0 A, 1 B -/
  | encOut (m pin : Nat)
  | refclkLane (neg : Bool)
  | sysclkXi | sysclkXo | ref10m | ppsIn | ppsOut | porst
  /-- SCK, CS#, IO0–IO3 -/
  | store (k : Nat)
  /-- TCK, TMS, TDI, TDO, TRST#, TEST_MODE -/
  | jtag (k : Nat)
  /-- THERM_DP, THERM_DN, VDD_CORE_SENSE, VSS_CORE_SENSE -/
  | sense (k : Nat)
  | nc (k : Nat)
  | supply (r : Rail)
  | vss
  deriving DecidableEq, Repr

/-- The positions without a ball, as (row index, column) (R15). -/
def depopulated : List (Nat × Nat) :=
  [(1, 1), (1, 2), (2, 1), (2, 2), (1, 64), (1, 65), (2, 65), (64, 1), (65, 1), (65, 2), (64, 65), (65, 64), (65, 65)]

/-- The letters of R15. -/
def rowLetters : List String := ["A", "B", "C", "D", "E", "F", "G", "H", "J", "K", "L", "M", "N", "P", "T", "U", "V", "W", "Y"]

/-- The name of row `i`, from 1 (R15, R564). -/
def rowName (i : Nat) : String := ["", "A", "B", "C"].getD ((i - 1) / 19) "" ++ rowLetters.getD ((i - 1) % 19) ""

/-- The name of a ball: row, then column (R15). -/
def ballName (i k : Nat) : String := rowName i ++ toString k

/-- A memory block at block row `j` and block column `m` (R567). -/
def memBall (sw j m : Nat) : Ball :=
  let s := j / 4
  let b := 2 * s + j % 4
  if j = 14 ∧ m = 11 then .memReset sw else if j = 14 ∧ m = 12 then .zq sw
  else if j % 4 < 2 then
    if m < 8 then .dq sw (8 * b + m) else
      match m with
      | 8 => .dmi sw b | 9 => .rdqs sw b false | 10 => .rdqs sw b true | 11 => .wck sw b false | 12 => .wck sw b true | _ => .vss
  else if j % 4 = 2 then
    if m < 7 then .ca sw s m else
      match m with
      | 7 => .cs sw s 0 | 8 => .cs sw s 1 | 9 => .ck sw s false | 10 => .ck sw s true | _ => .vss
  else if m < 9 then .supply .vddqMem else if m < 14 then .supply .vddpMem else .vss

/-- The supplies of a channel at row `j` of its band, by its column for channels 0–2 (R568). -/
def bandSupply (j k : Nat) : Option Rail :=
  match k with
  | 1 => some .vddaSer
  | 2 => some (if j < 8 then .vddhSer else if j < 10 then .vddaSer else if j < 13 then .vddio18 else if j < 15 then .vddaAdc else .vddPll)
  | 9 => some (if j < 4 then .vddio33 else if j < 7 then .vddioAux else if j = 7 then .vddPll else .vddSram)
  | 5 | 6 => if j = 0 then some .vddSram else none
  | _ => none

/-- The band of a channel: row index `i`, column `k` for channels 0–2, in its own 20 rows (R566-R568). -/
def bandBall (sw r k : Nat) : Ball :=
  let lane : Bool := 1 ≤ r && r % 2 == 1 && r < 16
  if (k = 3 ∨ k = 4) ∧ lane then .laneRx sw ((r - 1) / 2) (k == 4)
  else if (k = 7 ∨ k = 8) ∧ lane then .laneUp sw ((r - 1) / 2) (k == 8)
  else if (k = 5 ∨ k = 6) ∧ 1 ≤ r ∧ r ≤ 16 then .pin sw (2 * (r - 1) + (k - 5))
  else if 16 ≤ r then .vss
  else if 10 ≤ k then memBall sw r (k - 10)
  else match bandSupply r k with | some x => .supply x | none => .vss

/-- Pairs that recur every three columns from column `k0`: which pair, and its second ball (R566). -/
def pairAt (k0 count k : Nat) : Option (Nat × Bool) :=
  if k0 ≤ k ∧ (k - k0) / 3 < count ∧ (k - k0) % 3 < 2 then some ((k - k0) / 3, (k - k0) % 3 == 1) else none

/-- The middle and the outer rows (R566, R568). -/
def commonBall (i k : Nat) : Ball :=
  let mid (lo hi : Nat) : Bool := lo ≤ k && k ≤ hi
  let pair (f : Nat → Bool → Ball) (k0 count : Nat) : Ball := match pairAt k0 count k with | some (x, neg) => f x neg | none => .vss
  let evens (lo hi : Nat) : Bool := k % 2 == 0 && mid lo hi
  if 22 ≤ i ∧ i ≤ 56 ∧ mid 25 41 then (if (i + k) % 2 = 0 then .supply .vddCore else .vss)
  else if (i = 20 ∨ i = 22 ∨ i = 40 ∨ i = 42) ∧ (k ≤ 24 ∨ 42 ≤ k) then .supply .vddCore
  else if 8 ≤ i ∧ i ≤ 15 then
    if mid 28 33 then .enc (i - 8) ((k - 28) / 2) (k % 2 == 1) else if k = 34 then .supply .vddio33 else .vss
  else if 57 ≤ i ∧ i ≤ 59 then (if mid 25 36 then .supply .vddSram else .vss)
  else match i with
  | 3 => pair .duplexTx 25 6
  | 5 => pair .duplexRx 25 6
  | 6 => if mid 25 36 then .supply .vddaSer else .vss
  | 7 => if mid 25 36 then .supply .vddhSer else .vss
  | 16 => if mid 28 39 then .supply .vddPll else .vss
  | 17 => if mid 28 35 then .encOut ((k - 28) / 2) (k % 2) else if mid 36 37 then .supply .vddio33 else .vss
  | 18 =>
    match k with
    | 28 => .refclkLane false | 29 => .refclkLane true | 30 => .sysclkXi | 31 => .sysclkXo | 32 => .ref10m | 33 => .ppsIn | 34 => .ppsOut
    | 35 => .porst | 36 => .supply .vddio33 | 37 => .supply .vddio33 | _ => .vss
  | 19 => if mid 28 33 then .store (k - 28) else if mid 34 39 then .jtag (k - 34) else if mid 40 41 then .supply .vddio18 else .vss
  | 20 => if mid 28 31 then .sense (k - 28) else if mid 32 38 then .nc (k - 32) else if mid 39 41 then .supply .vddio18 else .vss
  | 21 => if k = 41 then .supply .vddio18 else .vss
  | 60 => pair .pcieRx 8 16
  | 61 => if evens 8 54 then .supply .vddaPcie else .vss
  | 62 => pair .pcieTx 8 16
  | 63 => if evens 8 38 then .supply .vddaPcie else if evens 40 54 then .supply .vddhPcie else .vss
  | 64 => match k with | 31 => .refclkPcie false | 32 => .refclkPcie true | 34 => .perst | _ => .vss
  | 65 => if evens 16 46 then .supply .vddhPcie else .vss
  | _ => .vss

/-- What the ball at row index `i` and column `k` carries; none where no ball is (R15, R565-R568). -/
def ballAt (i k : Nat) : Option Ball :=
  if i = 0 ∨ 65 < i ∨ k = 0 ∨ 65 < k ∨ depopulated.contains (i, k) then none
  else
    let r := (i - 3) % 20
    let c := (i - 3) / 20
    let band : Bool := 3 ≤ i && c < 3 && (r < 16 || (r == 16 && (k == 5 || k == 6 || k == 60 || k == 61)))
    if band && k ≤ 24 then some (bandBall c r k)
    else if band && 42 ≤ k then some (bandBall (c + 3) r (66 - k))
    else some (commonBall i k)

/-- How many balls satisfy `p`. -/
def countBalls (p : Ball → Bool) : Nat :=
  (List.range 66).foldl (fun n i => (List.range 66).foldl (fun n k => match ballAt i k with | some b => if p b then n + 1 else n | none => n) n) 0

/-- The group of R565 a ball belongs to, in the order of its table, signals first. -/
def Ball.group : Ball → Nat
  | .laneRx .. => 0
  | .laneUp .. => 1
  | .duplexTx .. | .duplexRx .. => 2
  | .pcieTx .. | .pcieRx .. | .refclkPcie _ | .perst => 3
  | .dq .. | .dmi .. | .rdqs .. | .wck .. | .ca .. | .cs .. | .ck .. | .memReset _ | .zq _ => 4
  | .pin .. => 5
  | .enc .. => 6
  | .encOut .. => 7
  | .refclkLane _ | .sysclkXi | .sysclkXo | .ref10m | .ppsIn | .ppsOut => 8
  | .store _ => 9
  | .porst => 10
  | .jtag _ | .sense _ => 11
  | .nc _ => 12
  | .vss => 13
  | .supply .vddCore => 14
  | .supply .vddSram => 15
  | .supply .vddPll => 16
  | .supply .vddaSer => 17
  | .supply .vddhSer => 18
  | .supply .vddaPcie => 19
  | .supply .vddhPcie => 20
  | .supply .vddpMem => 21
  | .supply .vddqMem => 22
  | .supply .vddio18 => 23
  | .supply .vddaAdc => 24
  | .supply .vddio33 => 25
  | .supply .vddioAux => 26

/-- The balls of each group in one row. -/
def rowGroups (i : Nat) : List Nat :=
  (List.range 66).foldl (fun l k => match ballAt i k with | some b => l.modify b.group (· + 1) | none => l) (List.replicate 27 0)

/-- The counts of the groups over rows `lo` to `lo + n - 1`. -/
def groupsOf (lo n : Nat) : List Nat :=
  (List.range n).foldl (fun l j => List.zipWith (· + ·) l (rowGroups (lo + j))) (List.replicate 27 0)

end Sys2Proof.Machine
end

