-- ==== Sys2Proof/WellFormed.lean ====
section
/-!
DEFINITION. Well-formed commands: every operand has a value its field can carry (R6, R7). The block is given no other; the machine still runs
on any command, so that no statement rests on this.
-/

namespace Sys2Proof

namespace Wf

/-- A value of `n` bits. -/
def word (n v : Nat) : Bool := decide (v < 2 ^ n)
/-- A number of `n` bits in two's complement. -/
def int (n : Nat) (v : Int) : Bool := decide (-(2 ^ (n - 1) : Int) ≤ v) && decide (v < (2 ^ (n - 1) : Int))
/-- Elements below a bound. -/
def below (n : Nat) (l : List Nat) : Bool := l.all fun x => decide (x < n)
/-- Bytes. -/
def bytesOk (l : List Nat) : Bool := below 256 l
/-- Numbers of `n` bits in two's complement. -/
def ints (n : Nat) (l : List Int) : Bool := l.all (int n)
/-- A value of `n` bits that may be absent. -/
def optWord (n : Nat) : Option Nat → Bool
  | none => true
  | some v => word n v
/-- A segment: its byte offset is a U24 (02 R75). -/
def segOk : Option (Nat × Bool) → Bool
  | none => true
  | some (o, _) => word 24 o
/-- A store device: a JEDEC ID of three bytes, a capacity, and changed bytes within the first 16 MB (R501). -/
def storeOk : Option StoreDev → Bool
  | none => true
  | some d => word 24 d.jedec && word 32 d.capacity && d.changed.all fun e => word 24 e.1 && word 8 e.2
/-- A datagram (02 R72). -/
def datagramOk (d : Datagram) : Bool := word 32 d.srcIp && word 16 d.srcPort && bytesOk d.payload
/-- A ring frame: its fields and a body of 20 bytes (21 R544). -/
def frameOk (f : RingFrame) : Bool :=
  word 3 f.src && word 4 f.hops && word 16 f.seq && word 32 f.accum && bytesOk f.body && f.body.length == 20
/-- A target of a register write. -/
def targetOk : RegTarget → Bool
  | .object _ i k seg data => word 16 i && word 8 k && segOk seg && bytesOk data
  | .bar _ _ off data => word 32 off && bytesOk data
/-- A Slate request. -/
def slateOk : SlateReq → Bool
  | .write _ v => word 80 v
  | .kdp d => datagramOk d
/-- A dictionary request. -/
def dictOk : DictReq → Bool
  | .kdp d => datagramOk d
  | .mailbox => true
  | .slotRead _ a n => word 32 a && word 20 n
  | .slotWrite _ a l => word 32 a && bytesOk l
  | .windowRead _ o n => word 20 o && word 20 n
  | .windowWrite _ o l => word 20 o && bytesOk l
/-- A PTP message: its header. -/
def ptpOk (m : PtpMsg) : Bool := word 8 m.domain && word 16 m.seq && word 80 m.sender && decide (m.place < 5280)
/-- A unit of a CoaXPress stream. -/
def unitOk : StreamUnit → Bool
  | .header f => word 8 f
  | .pixels ps => ps.all (below 65536)
  | .lineEnd => true
/-- A control packet of a CoaXPress link. -/
def cxpOk : CxpControl → Bool
  | .packet l => bytesOk l
  | .exposureAck _ => true
/-- The ALIGN blocks of a period (05 R163). -/
def alignOk (l : List AlignBlock) : Bool := l.all fun b => word 3 b.lane && word 8 b.width && word 8 b.gen && word 32 b.seq

end Wf

open Wf in
/-- The command is well formed. -/
def Instr.wf : Instr → Bool
  | .positionBroadcastUpdate => true
  | .timeBroadcastUpdate => true
  | .inFlightSetApply _ _ => true
  | .generationPublish _ _ => true
  | .kdpRead d => datagramOk d
  | .kdpWrite d => datagramOk d
  | .kdpStage d => datagramOk d
  | .kdpSnapshot d => datagramOk d
  | .kdpSubscribe d => datagramOk d
  | .kdpBadOpcode d => datagramOk d
  | .kdpSessionExpire => true
  | .subscriptionLapse => true
  | .netArpRequest _ ip => word 32 ip
  | .netIcmpEcho _ src dst payload => word 32 src && word 32 dst && bytesOk payload
  | .dictChannelTimeout _ r => dictOk r
  | .slateNamePos r => slateOk r
  | .slateNameTime r => slateOk r
  | .slateCancel r => slateOk r
  | .stageDiscard r => slateOk r
  | .slateBadAction d => datagramOk d
  | .autoPeriodPosWrite _ v => word 64 v
  | .autoPeriodTimeWrite _ v => word 64 v
  | .mailboxGo => true
  | .mailboxDone => true
  | .barSlotRead _ _ off size => word 32 off && word 20 size
  | .barSlotWrite _ addr data => word 32 addr && bytesOk data
  | .largeObjectWindowRead _ _ size => word 20 size
  | .largeObjectWindowWrite _ _ data => bytesOk data
  | .lowCtrlClose _ => true
  | .registerWrite t => targetOk t
  | .persistSave _ v => word 8 v
  | .persistClear _ v => word 8 v
  | .netIpv4AddrWrite _ _ ip => word 32 ip
  | .encoderEdge _ _ _ => true
  | .encoderIndex _ => true
  | .wireFault _ _ => true
  | .wireCheckEnd _ => true
  | .standstillTimeout _ => true
  | .failoverSilenceExpire => true
  | .failback _ v => word 8 v
  | .deviationReset _ v => word 8 v
  | .gridPointReached _ _ => true
  | .encoutEmit _ => true
  | .ptpMessageReceive _ m => ptpOk m
  | .ptpAnnounceTimeout _ => true
  | .ptpSyncTransmit _ => true
  | .ptpAnnounceTransmit _ => true
  | .ptpDelayReqTransmit _ => true
  | .ppsInEdge => true
  | .ref10mMeasure err => int 32 err
  | .ppsMissing => true
  | .refMissing => true
  | .tbSourceTimeout => true
  | .tbSourceWrite _ v => word 8 v
  | .tbSet _ v => word 80 v
  | .tbStepAdj _ v => int 64 v
  | .ppsOutRise => true
  | .ppsOutFall => true
  | .netLinkChange _ _ => true
  | .netRxOverrun _ => true
  | .taArm _ _ => true
  | .taDisarm _ _ => true
  | .timedActionExecute _ => true
  | .buarnlinkBurst _ _ _ _ _ tag offset _ data overrun => word 16 tag && word 24 offset && bytesOk data && below 8 overrun
  | .buarnlinkLineEnd _ _ _ _ count crc => word 16 count && word 32 crc
  | .buarnlinkTriggerAck _ _ _ _ num delay => word 16 num && word 32 delay
  | .buarnlinkTemperature _ _ _ t => int 16 t
  | .buarnlinkRegData _ _ _ v => word 32 v
  | .buarnlinkRegAck _ _ _ _ => true
  | .buarnlinkExpoAck _ _ _ trig _ => word 16 trig
  | .buarnlinkAlign _ _ bs => alignOk bs
  | .buarnlinkDecodeError _ _ => true
  | .blockLock _ _ => true
  | .blockLockLoss _ _ => true
  | .expoAckTimeout _ _ => true
  | .blRegRead _ _ => true
  | .blRegWrite _ _ => true
  | .blRegTimeout _ => true
  | .cxpStreamPacket _ _ id u _ payload overrun => word 8 id && unitOk u && bytesOk payload && below 8 overrun
  | .cxpControlReceive _ _ p => cxpOk p
  | .cxpCtrlTx _ _ packet => bytesOk packet
  | .cxpCtrlPop _ _ v => word 8 v
  | .cxpExpoWriteTimeout _ _ => true
  | .auxLineStart _ => true
  | .auxLineEnd _ es => es.all fun e => word 16 e.code
  | .trgPulseEnd _ _ => true
  | .trgGapEnd _ _ => true
  | .lineTimeout _ _ => true
  | .mergePassLine _ => true
  | .sensorTempSet _ _ _ t => int 16 t
  | .laneConfigWrite _ _ _ vals => bytesOk vals
  | .cdrLock _ freq => int 32 freq
  | .losAssert _ => true
  | .losDeassert _ => true
  | .lolAssert m => int 32 m.freq && decide (m.slips ≤ 8)
  | .lolDeassert m => int 32 m.f1 && int 32 m.f2 && int 32 m.f3
  | .lolTrimReload _ => true
  | .idleMonitorWindow _ changes idle total x =>
    word 32 changes && word 32 idle && word 32 total && decide (x.compared ≤ 65536) && word 32 x.errors
  | .dfeUpdate _ steps => ints 16 steps
  | .ctleUpdate _ step => int 8 step
  | .oneShotConverge _ => true
  | .wander _ => true
  | .trimUpdate _ => true
  | .trimRampStep _ => true
  | .adaptModeWrite _ _ v => word 8 v
  | .txFirWrite _ _ _ _ _ => true
  | .laneTestWrite _ _ v => word 8 v
  | .prbsClear _ _ v => word 8 v
  | .prbsSyncLoss _ bits x => word 40 bits && word 32 x.errors && decide (x.wrong.length ≤ 64)
  | .scanStart _ _ => true
  | .scanAbort _ _ => true
  | .scanPointDone _ errors => word 32 errors
  | .frontEndLine _ _ => true
  | .corrBankWrite _ _ _ seg data => segOk seg && bytesOk data
  | .outputLine _ late => below 4 late
  | .segmentationLine _ => true
  | .recordRingWrite _ => true
  | .recIrqTimeExpire _ => true
  | .openSnap _ _ => true
  | .cuePieceCompare _ => true
  | .cueHorizon _ _ => true
  | .cueFire _ _ => true
  | .cueResolveLimit _ _ => true
  | .stkPulseEnd _ _ => true
  | .stkEnableWrite _ _ v => word 8 v
  | .cueSnap _ _ => true
  | .cueSnapCapture _ => true
  | .freezeNow _ _ => true
  | .postEnd _ => true
  | .freezeRelease _ _ => true
  | .retakeStart _ _ => true
  | .retakeAbort _ _ => true
  | .retakeExit _ _ => true
  | .retakeLoaded _ => true
  | .retakeEntry _ => true
  | .kTest _ _ _ => true
  | .memRequest _ _ _ _ addr len bytes => word 64 addr && word 32 len && bytesOk bytes
  | .memAccessComplete _ _ _ => true
  | .refreshSlot _ _ => true
  | .forcedBurstStep _ _ => true
  | .mr4Poll _ _ => true
  | .wck2dqUpdate _ => true
  | .srEntry _ => true
  | .srCommit _ => true
  | .srExit _ _ => true
  | .srTestEnter _ _ => true
  | .srTestLeave _ _ => true
  | .freqSwitch _ _ => true
  | .freqChangeDone _ _ => true
  | .memTrain _ _ => true
  | .trainingDone _ _ => true
  | .memPllLoss _ => true
  | .nbrSeedWrite _ _ v => word 32 v
  | .timingSetWrite _ _ _ _ seg data => segOk seg && bytesOk data
  | .cmpSubmit _ _ data => bytesOk data
  | .cmpJobStart _ => true
  | .cmpJobComplete _ => true
  | .cmpAbortRunning _ _ => true
  | .cmpAbortAll _ _ => true
  | .recorderLineCompress _ => true
  | .threadStart _ _ _ => true
  | .threadPause _ _ _ => true
  | .threadResume _ _ _ => true
  | .dmaEnableWrite _ _ v => word 8 v
  | .doorbellWrite _ _ _ v => word 32 v
  | .move _ _ => true
  | .moveRing _ _ => true
  | .movsg _ _ => true
  | .loop _ _ => true
  | .wait _ _ => true
  | .waitSatisfied _ _ => true
  | .waitTimeout _ _ => true
  | .signal _ _ => true
  | .threadEnd _ _ => true
  | .nop _ _ => true
  | .dmaBadOpcode _ _ => true
  | .busReadCompletion _ tag _ bytes => word 14 tag && bytesOk bytes
  | .pcieCompletionTimeout _ _ tag => word 14 tag
  | .unexpectedCompletion _ tag => word 14 tag
  | .perstAssert => true
  | .perstDeassert => true
  | .linkL0Entry _ _ _ _ => true
  | .pcieLinkDown => true
  | .hotReset _ => true
  | .flr _ => true
  | .flrComplete _ => true
  | .pcieConfigRequest _ _ w => optWord 32 w
  | .pcieUnsupportedRequest _ _ => true
  | .pcieErrorDetected _ _ => true
  | .bar4WindowRead _ _ off len => word 36 off && word 32 len
  | .bar4WindowWrite _ off data => word 36 off && bytesOk data
  | .writerRelease _ seg data => segOk seg && bytesOk data
  | .busMasterDisable _ => true
  | .msixMessageSend _ _ => true
  | .claim _ _ => true
  | .complete _ v => word 32 v
  | .srcCfgWrite _ _ v => word 32 v
  | .gctrlWrite _ v => word 32 v
  | .swiSet _ v => word 32 v
  | .logRecordAccept => true
  | .logRingDrain _ => true
  | .udpDatagramSend => true
  | .logMark _ v => word 32 v
  | .bufRdWrite _ v => word 16 v
  | .storeWriteComplete _ => true
  | .storeStepTimeout => true
  | .trimCapture _ => true
  | .trimSave _ => true
  | .calStart _ => true
  | .calAbort _ => true
  | .calTimeout => true
  | .calComputeDone => true
  | .pixSave _ v => word 8 v
  | .pixLoad _ v => word 8 v
  | .powerDecision _ => true
  | .stateEntryDone _ => true
  | .wakeComplete _ => true
  | .pwrWake _ _ => true
  | .chResetAssert _ _ => true
  | .chResetRelease _ _ => true
  | .deviceReset _ => true
  | .porstAssert => true
  | .porstRelease _ dev => storeOk dev
  | .thermalTrip => true
  | .thermalCompare => true
  | .supplySample mv current => below 65536 mv && word 32 current
  | .tempSample ts => ints 16 ts
  | .monClear _ => true
  | .bwPositionFrame _ f => frameOk f
  | .bwSlateFrame _ f => frameOk f
  | .bwCommitApply => true
  | .bwRelayFrame _ f => frameOk f
  | .bwEchoFrame _ f => frameOk f
  | .bwEchoExecute => true
  | .bwHelloFrame _ f => frameOk f
  | .bwDelayReqFrame _ f turn => frameOk f && word 32 turn
  | .bwDelayRespFrame _ f => frameOk f
  | .bwFrameCrcDrop _ => true
  | .bwHelloSend => true
  | .bwDelayReqSend => true
  | .bwPositionSend => true
  | .bwElectWaitExpire => true
  | .bwRootTimeout => true
  | .bwRoleWrite _ v => word 8 v
  | .bwPortLinkChange _ _ => true
  | .thermalTripRelease _ dev => storeOk dev
  | .prbsSyncGain x => decide (x.bits.length ≤ 128)
  | .illPwmPeriod _ _ => true
  | .lmonSample _ _ code => word 12 code
  | .cxpLinkUp _ _ => true
  | .alignMissing _ _ => true
  | .refpbDone _ _ => true
  | .aspmL1Entry => true
  | .arpReply _ ip mac => word 32 ip && word 48 mac

end Sys2Proof
end

