-- ==== Sys2Proof/Tests/Slice0.lean ====
section
/-!
SUPPORT. Ill-formed commands that the check refuses, worked examples of the spec, and a state for the hypotheses of each statement.
-/

set_option Elab.async false

namespace Sys2Proof.Tests

open Sys2Proof Sys2Proof.Machine Sys2Proof.Machine.State Sys2Proof.Machine.Chan

/-! ## Well-formedness -/

/-- A datagram, one with an address too long, a message and a frame. -/
def badD0 : Datagram := { port := 0, srcIp := 0, srcPort := 0, payload := [] }
def badD : Datagram := { port := 0, srcIp := 2 ^ 32, srcPort := 0, payload := [] }
def goodP : PtpMsg := { domain := 0, seq := 0, sender := 0, correction := 0, stamp := 0, body := .delayReq }
def goodF : RingFrame := { src := 1, hops := 0, seq := 0, accum := 0, body := List.replicate 20 0 }

/-- Ill-formed commands, one for each check. -/
theorem test_illFormed0 : ([
  .kdpRead badD,
  .kdpWrite badD,
  .kdpStage badD,
  .kdpSnapshot badD,
  .kdpSubscribe badD,
  .kdpBadOpcode badD,
  .netArpRequest 0 4294967296,
  .netIcmpEcho 0 4294967296 0 [],
  .netIcmpEcho 0 0 4294967296 [],
  .netIcmpEcho 0 0 0 [256],
  .dictChannelTimeout 0 (.windowWrite 0 0 [256]),
  .slateNamePos (.write .kdp (2 ^ 80)),
  .slateNameTime (.write .kdp (2 ^ 80)),
  .slateCancel (.write .kdp (2 ^ 80)),
  .stageDiscard (.write .kdp (2 ^ 80)),
  .slateBadAction badD,
  .autoPeriodPosWrite .kdp 18446744073709551616,
  .autoPeriodTimeWrite .kdp 18446744073709551616,
  .barSlotRead 0 .bar0 4294967296 0,
  .barSlotRead 0 .bar0 0 1048576,
  .barSlotWrite 0 4294967296 [],
  .barSlotWrite 0 0 [256],
  .largeObjectWindowRead 0 0 1048576,
  .largeObjectWindowWrite 0 0 [256],
  .registerWrite (.object .kdp 65536 0 none []),
  .persistSave .kdp 256,
  .persistClear .kdp 256,
  .netIpv4AddrWrite .kdp 0 4294967296,
  .failback .kdp 256,
  .deviationReset .kdp 256] : List Instr).all (fun c => !c.wf) = true := by decide +kernel

/-- Ill-formed commands, one for each check. -/
theorem test_illFormed1 : ([
  .ptpMessageReceive 0 { goodP with seq := 65536 },
  .ptpMessageReceive 0 { goodP with place := 5280 },
  .ref10mMeasure 2147483648,
  .ref10mMeasure (-2147483649),
  .tbSourceWrite .kdp 256,
  .tbSet .kdp 1208925819614629174706176,
  .tbStepAdj .kdp 9223372036854775808,
  .tbStepAdj .kdp (-9223372036854775809),
  .buarnlinkBurst 0 0 0 0 false 65536 0 0 [] [],
  .buarnlinkBurst 0 0 0 0 false 0 16777216 0 [] [],
  .buarnlinkBurst 0 0 0 0 false 0 0 0 [256] [],
  .buarnlinkBurst 0 0 0 0 false 0 0 0 [] [8],
  .buarnlinkLineEnd 0 0 0 0 65536 0,
  .buarnlinkLineEnd 0 0 0 0 0 4294967296,
  .buarnlinkTriggerAck 0 0 0 false 65536 0,
  .buarnlinkTriggerAck 0 0 0 false 0 4294967296,
  .buarnlinkTemperature 0 0 0 32768,
  .buarnlinkTemperature 0 0 0 (-32769),
  .buarnlinkRegData 0 0 0 4294967296,
  .buarnlinkExpoAck 0 0 0 65536 0,
  .buarnlinkAlign 0 0 [{ lane := 8 }],
  .cxpStreamPacket 0 0 256 .lineEnd false [] [],
  .cxpStreamPacket 0 0 0 (.header 256) false [] [],
  .cxpStreamPacket 0 0 0 .lineEnd false [256] [],
  .cxpStreamPacket 0 0 0 .lineEnd false [] [8],
  .cxpControlReceive 0 0 (.packet [256]),
  .cxpCtrlTx .kdp 0 [256],
  .cxpCtrlPop .kdp 0 256,
  .auxLineEnd ⟨0, false⟩ [{ falling := false, dval := true, fval := true, code := 65536 }],
  .sensorTempSet .kdp 0 0 32768,
  .sensorTempSet .kdp 0 0 (-32769)] : List Instr).all (fun c => !c.wf) = true := by decide +kernel

/-- Ill-formed commands, one for each check. -/
theorem test_illFormed2 : ([
  .laneConfigWrite .kdp 0 .role [256],
  .cdrLock (.duplex 0) 2147483648,
  .cdrLock (.duplex 0) (-2147483649),
  .idleMonitorWindow (.duplex 0) 4294967296 0 0 ⟨0, 0, true⟩,
  .idleMonitorWindow (.duplex 0) 0 4294967296 0 ⟨0, 0, true⟩,
  .idleMonitorWindow (.duplex 0) 0 0 4294967296 ⟨0, 0, true⟩,
  .idleMonitorWindow (.duplex 0) 0 0 0 ⟨65537, 0, true⟩,
  .idleMonitorWindow (.duplex 0) 0 0 0 ⟨0, 4294967296, true⟩,
  .lolAssert ⟨.duplex 0, 2147483648, 0⟩,
  .lolAssert ⟨.duplex 0, 0, 9⟩,
  .lolDeassert ⟨.duplex 0, 2147483648, 0, 0⟩,
  .lolDeassert ⟨.duplex 0, 0, 2147483648, 0⟩,
  .lolDeassert ⟨.duplex 0, 0, 0, 2147483648⟩,
  .dfeUpdate (.duplex 0) [32768],
  .ctleUpdate (.duplex 0) 128,
  .ctleUpdate (.duplex 0) (-129),
  .adaptModeWrite .kdp (.duplex 0) 256,
  .laneTestWrite .kdp (.duplex 0) 256,
  .prbsClear .kdp (.duplex 0) 256,
  .prbsSyncLoss (.duplex 0) 1099511627776 ⟨0, []⟩,
  .prbsSyncLoss (.duplex 0) 0 ⟨4294967296, []⟩,
  .prbsSyncLoss (.duplex 0) 0 ⟨0, (List.replicate 65 true)⟩,
  .prbsSyncGain ⟨.duplex 0, List.replicate 129 true⟩,
  .scanPointDone .duplex 4294967296,
  .corrBankWrite .kdp 0 0 (some (2 ^ 24, false)) [],
  .corrBankWrite .kdp 0 0 none [256],
  .outputLine 0 [4],
  .stkEnableWrite .kdp 0 256,
  .memRequest 0 0 0 false 18446744073709551616 0 [],
  .memRequest 0 0 0 false 0 4294967296 [],
  .memRequest 0 0 0 false 0 0 [256],
  .nbrSeedWrite .kdp 0 4294967296,
  .timingSetWrite .kdp 0 0 0 (some (2 ^ 24, false)) [],
  .timingSetWrite .kdp 0 0 0 none [256],
  .cmpSubmit .kdp 0 [256],
  .dmaEnableWrite .kdp 0 256,
  .doorbellWrite .kdp 0 0 4294967296,
  .busReadCompletion 0 16384 0 []] : List Instr).all (fun c => !c.wf) = true := by decide +kernel

/-- Ill-formed commands, one for each check. -/
theorem test_illFormed3 : ([
  .busReadCompletion 0 0 0 [256],
  .pcieCompletionTimeout 0 0 16384,
  .unexpectedCompletion 0 16384,
  .pcieConfigRequest 0 .other (some 4294967296),
  .bar4WindowRead 0 0 68719476736 0,
  .bar4WindowRead 0 0 0 4294967296,
  .bar4WindowWrite 0 68719476736 [],
  .bar4WindowWrite 0 0 [256],
  .writerRelease .kdp (some (2 ^ 24, false)) [],
  .writerRelease .kdp none [256],
  .complete 0 4294967296,
  .srcCfgWrite 0 0 4294967296,
  .gctrlWrite 0 4294967296,
  .swiSet 0 4294967296,
  .logMark .kdp 4294967296,
  .bufRdWrite .kdp 65536,
  .pixSave .kdp 256,
  .pixLoad .kdp 256,
  .porstRelease 0 (some { jedec := 2 ^ 24, capacity := 0 }),
  .porstRelease 0 (some { jedec := 0, capacity := 0, changed := [(2 ^ 24, 0)] }),
  .porstRelease 0 (some { jedec := 0, capacity := 0, changed := [(0, 256)] }),
  .supplySample [65536] 0,
  .supplySample [] 4294967296,
  .tempSample [32768],
  .bwPositionFrame 0 { goodF with body := [] },
  .bwSlateFrame 0 { goodF with body := [] },
  .bwRelayFrame 0 { goodF with body := [] },
  .bwEchoFrame 0 { goodF with body := [] },
  .bwHelloFrame 0 { goodF with body := [] },
  .bwDelayReqFrame 0 { goodF with body := [] } 0,
  .bwDelayReqFrame 0 goodF 4294967296,
  .bwDelayRespFrame 0 { goodF with body := [] }] : List Instr).all (fun c => !c.wf) = true := by decide +kernel

/-- Ill-formed commands, one for each check. -/
theorem test_illFormed4 : ([
  .bwRoleWrite .kdp 256,
  .thermalTripRelease 0 (some { jedec := 2 ^ 24, capacity := 0 }),
  .lmonSample 0 0 4096,
  .arpReply 0 4294967296 0,
  .arpReply 0 0 281474976710656] : List Instr).all (fun c => !c.wf) = true := by decide +kernel

/-! ## Worked examples of the spec -/

/-- 19 R503, R504: a commit record is 32 bytes and opens with 48h 43h 41h 4Ch; a slot is valid with its payload, bad with another payload or
in another area, empty where nothing is programmed. -/
theorem test_commitRecord : (commitRecord 1 5 7 [1, 2, 3]).length = 32 ∧ (commitRecord 1 5 7 [1, 2, 3]).take 8 = [0x48, 0x43, 0x41, 0x4C, 1, 1, 0, 0] ∧
    Slot.view 1 { page := commitRecord 1 5 7 [1, 2, 3], data := [1, 2, 3] } = .valid 5 7 [1, 2, 3] ∧
    Slot.view 1 { page := commitRecord 1 5 7 [1, 2, 3], data := [1, 2, 4] } = .bad ∧
    Slot.view 0 { page := commitRecord 1 5 7 [1, 2, 3], data := [1, 2, 3] } = .bad ∧ Slot.view 1 {} = .empty := by decide +kernel

/-- 22 R565: the balls of each group, in the order of its table, and 00 R15's example of a ball's name. -/
theorem test_ballCounts : groupsOf 0 66 = [96, 96, 24, 67, 900, 192, 48, 8, 7, 6, 1, 10, 7, 1471, 489, 96, 24, 120, 60, 40, 24, 120, 216, 24,
    12, 36, 18] ∧ ballName 57 65 = "BY65" := by decide +kernel

/-- 00 R12, its example: the record is 32 Slates later. -/
theorem test_genOrder : genOrder 0xFFFFFFF0 0x00000010 = 32 := by decide +kernel
/-- 00 R14, its example: 8500h/03 is at 9500h/03 for SW2, at AD00h/03 for SW5. -/
theorem test_placeOfChannel : (place 0x9500 3).map (fun p => (p.chan, p.key)) = some (some 2, 0x850003) ∧
    (place 0xAD00 3).map (fun p => (p.chan, p.key)) = some (some 5, 0x850003) := by decide +kernel
/-- 02 R92, its example: 9800h/03 is at 0080_0030h in BAR0 of PF4. -/
theorem test_slotOfChannel : slotAt 4 0x800030 = some (0x9800, 3, 0) := by decide +kernel
/-- 06 R208, its example: (4, 48, 11) is accepted. -/
theorem test_txFir : txFirOk [4, 48, 11] = true := by decide +kernel
/-- 02 R74: the CRC-32C of R73 over the customary check string is E306_9283h (the polynomial's published check value). -/
theorem test_crc32c : crc32c [0x31, 0x32, 0x33, 0x34, 0x35, 0x36, 0x37, 0x38, 0x39] = 0xE3069283 := by decide +kernel

/-- The controller of 17's example: 74 and 137 on vector 3, 137 having occurred three times and 74 once. -/
def icBase : Node := ({ chan := true, origin := 1 } : Node).putN 0x878001 1
def icSet : Node := (icBase.putSrc 74 { enable := true, prio := 2, vec := 3 }).putSrc 137 { enable := true, prio := 1, vec := 3 }
def icT2 : Node := ((((icSet.occur 137).occur 137).occur 137).putN K.SEG_FLAGS 1).occur 74
/-- 17, t3: CLAIM_3 returns 0201_004Ah. -/
theorem test_claim_t3 : (icT2.claim 3).1 = 0x0201004A := by decide +kernel
/-- 17, t6: after REC_DROP is cleared and 74 completed, CLAIM_3 returns 0103_0089h. -/
theorem test_claim_t6 : ((((icT2.claim 3).2.putN K.SEG_FLAGS 0).complete 74).claim 3).1 = 0x01030089 := by decide +kernel
/-- 17, t10: a claim of what was withdrawn returns 0000_07FFh. -/
theorem test_claim_t10 : ((icSet.putVec 3 ⟨true, 74⟩).claim 3).1 = 0x7FF := by decide +kernel

/-! ## States for the hypotheses of the statements -/

/-- After reset, with the link in L0 and every function answering on its BARs as a bus master. -/
def answering (n : Node) : Node := { n with fn := { n.fn with memEnable := true, busMaster := true } }
def up : State :=
  (List.finRange 6).foldl (fun s c => s.putChan c ((s.chan c).mapN answering))
    (State.reset.mapN fun n => answering (n.putN K.HP_LINK_STATE 2))
/-- The same with NET0 up at address 10.0.0.1 of a subnet of 24 bits. -/
def net : State :=
  up.mapN fun n => (((n.putN (netKey 0 2) 1).putN (duplexKey 0 + 0x15) 0).put K.NET_IPV4_ADDR [0x0A000001, 0]).put K.NET_IPV4_MASK [0xFFFFFF00, 0]
/-- A KDP request from 10.0.0.2. -/
def kdpBytes (op : Nat) (payload : List Nat) : List Nat :=
  let body := leBytes 2 0x444B ++ [1, op, 0, 0] ++ leBytes 2 payload.length ++ leBytes 4 1 ++ [0, 0, 3, 0, 0, 0, 0, 0] ++ payload
  body ++ leBytes 4 (crc32c body)
def request (op : Nat) (payload : List Nat) : Datagram := { port := 0, srcIp := 0x0A000002, srcPort := 5000, payload := kdpBytes op payload }
/-- What exec answers. -/
def after (c : Instr) (s : State) : State :=
  match exec c s with
  | .next t => t
  | _ => s

theorem wit_running : State.reset.running ∧ up.running ∧ net.running := by
  unfold State.running; decide +kernel
theorem wit_IdleOnEmptyQueue : State.reset.pending = [] := by decide +kernel
theorem wit_QueueIsFifo : ∃ s t, step s = .next t ∧ s.pending ≠ [] := ⟨{ State.reset with pending := [.nop 0 0] }, _, rfl, by decide +kernel⟩
theorem wit_NoResetStaysDue : ∃ s t, s.common.resetDue = false ∧ step s = .next t :=
  ⟨{ State.reset with pending := [.deviceReset .kdp] }, _, by decide +kernel, rfl⟩
theorem wit_HeldDeviceDoesNothing : (State.reset.deviceDown .porst 0).common.held ≠ .none ∧ whileHeld (.nop 0 0) = false := by decide +kernel
theorem wit_ChannelCommandsStayInTheirChannel : ∃ t, channelOf (.nop 0 0) = some 0 ∧ (1 : Fin 6) ≠ 0 ∧ State.reset.running ∧
    exec (.nop 0 0) State.reset = .next t := ⟨_, rfl, by decide, wit_running.1, rfl⟩
theorem wit_CommonCommandsLeaveChannels : ∃ t, State.reset.running ∧ exec (.tempSample []) State.reset = .next t :=
  ⟨_, wit_running.1, rfl⟩
theorem wit_DeviceResetsAct : (State.reset.common.held ≠ .porst ∧ State.reset.common.held ≠ .thermal) ∧
    (State.reset.deviceDown .porst 0).common.held = .porst ∧ (State.reset.deviceDown .thermal 1).common.held = .thermal := by decide +kernel
theorem wit_kdpTakes : net.kdpTakes (request 1 []) 1 ∧ net.kdpTakes (request 2 []) 2 ∧ net.kdpTakes (request 3 []) 3 ∧
    net.kdpTakes (request 5 []) 5 ∧ net.kdpTakes (request 6 []) 6 := by
  unfold State.kdpTakes; decide +kernel
theorem wit_kdpSlate : net.kdpTakes (request 4 (5 :: zeros 15)) 4 ∧ 4 < (request 4 (5 :: zeros 15)).payload.getD 20 0 ∧
    net.kdpTakes (request 4 (zeros 16)) 4 ∧ (request 4 (zeros 16)).payload.getD 20 0 = 0 := by
  unfold State.kdpTakes; decide +kernel
theorem wit_kdpForm : (kdpHeader (request 1 []).payload).version = 1 ∧ (kdpHeader (request 1 []).payload).payloadLen = (kdpPayload (request 1 [])).length := by
  decide +kernel
theorem wit_KdpBadOpcodeAnswered : net.kdpTakes (request 0 []) 0 ∧ net.kdpTakes (request 7 []) 7 := by
  unfold State.kdpTakes; decide +kernel
theorem wit_KdpDropsWithoutAnswer : State.reset.kdpUp 0 = false ∧ net.kdpUp 0 = true ∧
    kdpCrcOk ((request 1 []).payload.set 8 9) = false ∧ ((request 1 []).payload.set 8 9).length = 24 := by decide +kernel
theorem wit_KdpSlateRequestsComplete : net.kdpTakes (request 4 (1 :: zeros 15)) 4 ∧ net.kdpTakes (request 4 (2 :: zeros 15)) 4 ∧
    net.kdpTakes (request 4 (3 :: zeros 15)) 4 ∧ net.kdpTakes (request 4 (4 :: zeros 15)) 4 := by
  unfold State.kdpTakes; decide +kernel
theorem wit_hears : up.hears (K.FAILBACK / 256) .kdp ∧ up.hears (K.FAILBACK / 256) (.bar 0) ∧ up.hears 0x9500 (.bar 3) := by
  unfold State.hears; decide +kernel
theorem wit_TimebaseWritesComplete : State.reset.common.n.num K.TB_SOURCE = 0 ∧
    (∃ t, (State.reset.common.n.num K.TA_KIND = 0) ∧ State.reset.taDisarm 62 = (.ok, t)) := by
  refine ⟨by decide +kernel, _, by decide +kernel, rfl⟩
/-- An entry that selects head 0 of SW0 arms. -/
def armable : State := up.mapN fun n => (n.putN (taKey 0 2) 1).putN (taKey 0 3) 1
theorem wit_taArm : (armable.taArm 0).1 = .ok := by decide +kernel
/-- Blank rules pass the check of R310. -/
theorem rules_blank (n r : Nat) : ruleBad (List.replicate n 0) r = false := by
  have h : (List.replicate n 0).getD (48 * r) 0 = 0 := by
    simp only [List.getD_eq_getElem?_getD, List.getElem?_replicate]; split <;> rfl
  unfold ruleBad; rw [h]; rfl
/-- What a channel holds after reset, beside the defaults. -/
def blank : Store := [(K.MEM_STATE, [1])]
theorem reset_objs (c : Fin 6) : (State.reset.chan c).n.objs = blank ∧ (State.reset.chan c).wouldBe [] = blank := by
  have h : State.reset.chan c = Chan.reset c.val := Vector.getElem_ofFn ..
  rw [h]; exact ⟨rfl, rfl⟩
/-- The reset configuration passes every naming check. -/
theorem blank_namingFails : namingFails blank blank = [] := by
  have r : (List.range 256).any (ruleBad (blank.elems K.RULES)) = false := by
    rw [show blank.elems K.RULES = List.replicate 12288 0 from rfl, show ruleBad (List.replicate 12288 0) = fun _ => false from funext (rules_blank _)]
    decide +kernel
  unfold namingFails
  simp only [r]
  decide +kernel
theorem reset_firstFail : firstFail State.reset.namingOf = none := by
  have h : State.reset.namingOf = (List.finRange 6).map fun c => (c, []) :=
    List.map_congr_left fun c _ => by rw [(reset_objs c).1, (reset_objs c).2, blank_namingFails]
  rw [h]; rfl
theorem namePos_ok (s : State) (p : Int) (m : s.ring.bound = false) (h : firstFail s.namingOf = none) : (s.namePos p).1 = .ok := by
  simp only [namePos, State.nameCheck, m, h, Bool.false_eq_true, ite_false]; split <;> rfl
theorem nameTime_ok (s : State) (t : Ticks) (m : s.ring.bound = false) (f : s.farTime t = false) (h : firstFail s.namingOf = none) :
    (s.nameTime t).1 = .ok := by
  simp only [nameTime, State.nameCheck, m, f, h, Bool.false_eq_true, ite_false]; split <;> rfl
theorem autoWrite_ok (s : State) (k v : Nat) (h : firstFail s.namingOf = none) : (s.autoWrite k v).1 = .ok := by
  unfold State.autoWrite; simp only [h]; split
  · rename_i a; split at a <;> cases a
  · split <;> rfl
theorem wit_SlateControlWritesComplete : (State.reset.namePos 5).1 = .ok ∧ (State.reset.nameTime 65536).1 = .ok ∧
    State.reset.ring.bound = false ∧ ∀ k v, (State.reset.autoWrite k v).1 = .ok :=
  ⟨namePos_ok _ _ rfl reset_firstFail, nameTime_ok _ _ rfl (by decide +kernel) reset_firstFail, rfl, fun k v => autoWrite_ok _ k v reset_firstFail⟩
theorem wit_pixLoad : (State.reset.pixLoadAct 5).1 = .ok := by
  have h1 : storeReject State.reset.common.n = none := by decide +kernel
  have h2 : ((State.reset.chan 5).bankInUse (workingBank (State.reset.chan 5)) || (State.reset.chan 5).bankStaged (workingBank (State.reset.chan 5))) = false := by
    decide +kernel
  unfold pixLoadAct
  rw [dif_pos (by decide)]
  simp only [h1]
  rw [if_neg (by simpa using h2)]
  split <;> rfl
/-- A channel ready for a run of calibration of head 0. -/
def calibrable : State := State.reset.putChan 0 ((State.reset.chan 0).mapN fun n => (n.put K.HEAD_RATE_MAX [1000, 0, 0, 0]).putN (ik K.CORR_ENABLE 0) 1)
theorem wit_StoreLogAndRingWritesComplete : storeReject State.reset.common.n = none ∧ (State.reset.calCtrl 2).1 = .ok ∧
    (calibrable.calCtrl 1).1 = .ok ∧ (State.reset.pixSave 5).1 = .ok := by decide +kernel
theorem wit_PowerAndPortWritesComplete : (State.reset.common.n.elems K.NET_IPV4_ADDR).length = 2 ∧
    (up.ipWrite { vals := listPut (up.common.n.elems K.NET_IPV4_ADDR) 1 7, lo := 1, hi := 2 }).1 = .ok ∧
    (up.writerRelease { vals := List.replicate 7 1 }).1 = .ok := by decide +kernel
theorem wit_open : up.open_ .kdp 2 K.FREEZE_NOW ∧ up.open_ (.bar 3) 2 K.FREEZE_NOW := by
  unfold State.open_ State.running State.hears Chan.answers Chan.takes; decide +kernel
theorem wit_InputWritesComplete : ((up.chan 2).regCmdWrite 1).1 = .ok ∧
    ((up.chan 2).laneConfigWrite K.LANE_ROLE { vals := List.replicate 8 1 }).1 = .ok ∧
    ((up.chan 2).laneConfigWrite K.LK_LINK_WIDTH { vals := (up.chan 2).n.elems K.LK_LINK_WIDTH }).1 = .ok ∧
    ((up.chan 2).laneConfigWrite K.CXP_SPEED { vals := List.replicate 8 12 }).1 = .ok := by decide +kernel
/-- A channel whose lane 0 carries a camera. -/
def laned : Chan := ((up.chan 2).laneConfigWrite K.LANE_ROLE { vals := [1, 0, 0, 0, 0, 0, 0, 0] }).2
theorem wit_LaneWritesComplete : (laned.scanCtrl 1).1 = .ok ∧ (laned.scanCtrl 2).1 = .ok ∧ (up.duplexScan 2).1 = .ok ∧
    ((up.mapN fun n => (n.putN K.BW_ROLE 1).putN 0x21F801 5).duplexScan 1).1 = .ok := by decide +kernel
theorem wit_DefectWritesComplete : (up.chan 2).openSnapWrite.1 = .ok ∧ (up.chan 2).cueSnapWrite.1 = .ok ∧ (up.chan 2).n.num K.RETAKE_STATE = 0 ∧
    ((up.chan 2).retakeCtrl 1).1 = .ok := by decide +kernel
theorem wit_MemoryWritesComplete : (up.chan 2).rateOk (1 - (up.chan 2).n.num K.ACTIVE_SET) = true ∧ ((up.chan 2).memGo 2).memState = 2 ∧
    ((up.chan 2).memGo 7).memState = 7 ∧ (1 : Fin 2).val ≠ (up.chan 2).n.num K.ACTIVE_SET := by decide +kernel
theorem wit_timingSet : ∃ row w, objInfo (setKey 1 1) = some row ∧ row.acc = .rw ∧ row.incoming [] none (leBytes 2 8533) = .ok w :=
  ⟨_, _, rfl, rfl, rfl⟩
theorem wit_TransferWritesComplete : ∃ x y, (up.chan 2).cmpSubmit (zeros 64) = some x ∧
    ((up.chan 2).mapN fun n => n.putN K.DMA_ENABLE 255).threadStart 7 = some y := ⟨_, _, rfl, rfl⟩
theorem wit_BankWritesComplete : (up.chan 2).bankInUse 1 = false ∧ (up.chan 2).bankStaged 1 = false := by decide +kernel
theorem wit_bankSegment : ∃ row w, objInfo K.CORR_BANK1 = some row ∧ row.incoming [] (some ⟨0, false⟩) [1, 2] = .ok w := ⟨_, _, rfl, rfl⟩
theorem wit_BarWritesComplete : slotAt 0 0x1080120 = some (0x1080, 0x12, 0) ∧ (place 0x1080 0x12).isSome = (objInfo 0x108012).isSome ∧
    up.hears 0x2080 (.bar 0) := by
  unfold State.hears; decide +kernel
theorem wit_ControllerWritesComplete : up.linkUp = true ∧ ∀ f : Fin 7, (up.fnNode f).fn.flr = false ∧ (up.fnNode f).fn.memEnable = true ∧
    (up.fnNode f).fn.d3hot = false := by decide +kernel
theorem wit_awake : up.bar2Asleep 0 = false ∧ up.bar2Asleep 3 = false := by decide +kernel
theorem wit_ReadOnlyObjectsKeepTheirValue : ∃ p, place 0x1200 1 = some p ∧ p.row.acc = .ro := ⟨_, rfl, rfl⟩
theorem wit_StagedValueIsTaken : (match place 0x2000 1 with
    | some p => (match State.reset.stageCheck p none [1] with | .ok e => e.val == [1] | .error _ => false)
    | none => false) = true := by decide +kernel
theorem wit_StagedWrites : (stagedFind [({ key := 5, val := [1] } : Staged)] 5).isSome = true ∧
    stageFull (List.replicate 4096 ({ key := 5, val := [] } : Staged)) 6 = true := by decide +kernel
theorem wit_WinnerIsTheHighestPriority : icT2.winner 3 = some 74 ∧ icSet.winner 3 = none := by decide +kernel
theorem wit_BytesRoundTrip : 0xFFFF < 256 ^ 2 := by decide
theorem wit_SessionsAreBounded : ∃ s : State, 64 ≤ s.common.server.sessions.length :=
  ⟨State.reset.modServer fun v => { v with sessions := List.replicate 64 { port := 0, ip := 1, udp := 1, sid := 1, top := 0, last := 0 } },
    by decide +kernel⟩
/-- A controller in READY with 4,096 bytes. -/
def ready : Chan := ((up.chan 0).memGo 2).mapN (·.putN K.MEM_CAPACITY 4096)
theorem wit_WritersOutOfCapacityAreRefused : ready.memUp = true ∧ ready.memSize < 4090 + 8 := by decide +kernel
theorem wit_GrantedWritesStoreTheirBytes : memWf ready.mem = true ∧ 4088 + 8 ≤ ready.memSize := by decide +kernel
theorem wit_RecordRingKeepsItsGap : ringRoom false 128 0 0 64 = true ∧ ringRoom false 128 64 0 64 = false := by decide +kernel
theorem wit_MasterDisableHoldsTheWriters : up.linkUp = true ∧ (up.chan 5).silent := by
  unfold Chan.silent; decide +kernel
theorem wit_PtpIdentityAndClass : (0 : Nat) ≠ 2 := by decide
theorem wit_PreFiltersAreUndone : filtLine true 4 2 3 [] (filtLine false 4 2 3 [] [1, 2, 3, 255]) = [1, 2, 3, 255] := by decide +kernel

end Sys2Proof.Tests
end

/-! ## What 00_scope.md says of wrapping quantities (R12) and of byte order (R7) -/

section

namespace Sys2Proof.Machine

/-- The model's signed reading of a pattern is two's complement, at every width above 0 (at width 0 there is no sign bit). -/
theorem toSigned_eq_toInt {w : Nat} (hw : 0 < w) (n : Nat) : toSigned w n = (BitVec.ofNat w n).toInt := by
  obtain ⟨w, rfl⟩ := Nat.exists_eq_succ_of_ne_zero (Nat.ne_of_gt hw)
  have half : n % 2 ^ (w + 1) < 2 ^ w ↔ 2 * (n % 2 ^ (w + 1)) < 2 ^ (w + 1) := by omega
  simp only [toSigned, BitVec.toInt_eq_toNat_cond, BitVec.toNat_ofNat, Nat.succ_eq_add_one, Nat.add_sub_cancel, half]

/-- The model adds 2^w before it subtracts, so that the difference is a natural number; the signed reading is that of the wrapping one. -/
theorem toSigned_sub_eq_toInt {w : Nat} (hw : 0 < w) (a b : Nat) :
    toSigned w (b + 2 ^ w - a % 2 ^ w) = (BitVec.ofNat w b - BitVec.ofNat w a).toInt := by
  have ha : a % 2 ^ w ≤ 2 ^ w := Nat.le_of_lt (Nat.mod_lt a (Nat.two_pow_pos w))
  rw [toSigned_eq_toInt hw, BitVec.ofNat_sub_ofNat, ← Nat.sub_add_comm ha, Nat.add_comm b]

theorem genOrder_eq_toInt (a b : Nat) : genOrder a b = (BitVec.ofNat 32 b - BitVec.ofNat 32 a).toInt :=
  toSigned_sub_eq_toInt (by decide) a b

theorem timeOrder48_eq_toInt (a b : Nat) : timeOrder48 a b = (BitVec.ofNat 48 b - BitVec.ofNat 48 a).toInt :=
  toSigned_sub_eq_toInt (by decide) a b

theorem ofNat_toNat_mod_two_pow {v : Nat} (w : Nat) (x : BitVec v) : BitVec.ofNat w (x.toNat % 2 ^ w) = x.setWidth w := by
  rw [← BitVec.toNat_setWidth, BitVec.ofNat_toNat, BitVec.setWidth_eq]

/-- The low bits of a difference are the difference of the low bits: a borrow only moves upwards. -/
theorem setWidth_sub_of_le {v w : Nat} (h : w ≤ v) (x y : BitVec v) : (x - y).setWidth w = x.setWidth w - y.setWidth w := by
  have hadd : (x - y).setWidth w + y.setWidth w = x.setWidth w := by rw [← BitVec.setWidth_add _ _ h, BitVec.sub_add_cancel]
  rw [← hadd, BitVec.add_sub_cancel]

/-- Byte `i` of the little-endian bytes is digit `i` to the base 256. -/
theorem leBytes_getD {n i : Nat} (hi : i < n) (v : Nat) : (leBytes n v).getD i 0 = v / 256 ^ i % 256 := by
  induction n generalizing i v with
  | zero => omega
  | succ n ih =>
    cases i with
    | zero => simp [leBytes]
    | succ i =>
      calc (leBytes (n + 1) v).getD (i + 1) 0
        _ = (leBytes n (v / 256)).getD i 0 := by rw [leBytes, List.getD_cons_succ]
        _ = v / 256 / 256 ^ i % 256 := ih (by omega) _
        _ = v / 256 ^ (i + 1) % 256 := by rw [Nat.div_div_eq_div_mul, ← Nat.pow_succ']

/-- Settles O47: both orders are the signed reading of the wrapping difference, and truncation to 48 bits commutes with subtraction. -/
theorem orderOfWrappingQuantities : Obligations.OrderOfWrappingQuantities := by
  unfold Obligations.OrderOfWrappingQuantities
  constructor
  · intro a b
    rw [genOrder_eq_toInt, BitVec.ofNat_toNat, BitVec.ofNat_toNat, BitVec.setWidth_eq, BitVec.setWidth_eq]
  · intro a b
    rw [timeOrder48_eq_toInt, ofNat_toNat_mod_two_pow, ofNat_toNat_mod_two_pow, BitVec.truncate_eq_setWidth,
      setWidth_sub_of_le (by decide)]

/-- Settles O48, by induction on the number of bytes for the bytes themselves and for reading them back. -/
theorem bytesRoundTrip : Obligations.BytesRoundTrip := by
  unfold Obligations.BytesRoundTrip
  intro n v hv
  exact ⟨leBytes_length n v, fun i hi => leBytes_getD hi v, ofLe_leBytes n v hv⟩

end Sys2Proof.Machine

end

/-! ## The broadcasts, the Slate control objects, the paths of BAR0 and staged writes (01, 02) -/

section

namespace Sys2Proof.Machine

/-! ### Commands whose act brings about no device reset -/

/-- A command acts as its own state says where that state keeps the hold and the due reset. -/
theorem State.does_kept {s t : State} (hs : s.running) (ht : s.Kept t) : s.does t = .next t :=
  State.does_running hs (ht.2.2.trans hs.2)

/-- A running device takes what a command does, and resets itself behind it where the command called for that (R531). -/
theorem State.does_dueReset {s : State} (hs : s.running) (t : State) : s.does t = .next t.dueReset := by
  simp only [State.does, hs.1]

/-- Settles O10: none of the four leaves a device reset due. -/
theorem broadcastsComplete : Obligations.BroadcastsComplete := by
  unfold Obligations.BroadcastsComplete
  intro s hs
  refine ⟨?position, ?time, ?inFlight, ?publish⟩
  case position => exact State.does_kept hs s.positionUpdate_keeps
  case time => exact State.does_kept hs s.timeUpdate_keeps
  case inFlight => exact fun c stage => State.does_kept hs (s.onUp_keeps c _)
  case publish => exact fun c part => State.does_kept hs (State.Kept.trans (s.publish_keeps c part) (State.notifyAll_keeps _))

/-! ### Writes of the Slate control objects -/

/-- An object of the common block lies where the parts of its key say. -/
theorem place_common {key : Nat} {row : ObjInfo} (hc : key / 256 < 0x8000) (hrow : objInfo key = some row) :
    place (key / 256) (key % 256) = some ⟨none, key, row⟩ := by
  have hi : key / 256 % 65536 = key / 256 := Nat.mod_eq_of_lt (by omega)
  have hk : 256 * (key / 256) + key % 256 = key := Nat.div_add_mod key 256
  simp only [place, hi, Nat.mod_mod, hk, hc, if_true, hrow, Option.map_some]

/-- The object is a scalar of `n` bytes, all of whose bits are kept, and `v` is in its range (R58, R59). -/
structure ObjInfo.TakesScalar (row : ObjInfo) (n v : Nat) : Prop where
  shape : row.shape = .scalar
  keep : row.keep = 0
  size : row.ty.size = n
  fits : v < 256 ^ n
  inRange : row.chk.ok row [v] = true

/-- A write of a scalar of the common block below the encoder tables comes to what the object's act leaves. -/
theorem State.does_scalar {s t : State} {via : Via} {key n v : Nat} {row : ObjInfo} (hs : s.running) (hv : s.hears (key / 256) via)
    (hrow : objInfo key = some row) (hlow : key / 256 < 0x2000) (ha : row.acc = .rw ∨ row.acc = .wo) (htakes : row.TakesScalar n v)
    (hact : s.act key { vals := [v] } = (.ok, t)) (hkept : s.Kept t) : s.does (s.viaScalar via key n v) = .next t := by
  have hin (base : List Nat) : row.incoming base none (leBytes n v) = .ok { vals := [v] } :=
    ObjInfo.incoming_scalar htakes.shape htakes.keep htakes.size htakes.fits htakes.inRange base
  have hw : s.viaScalar via key n v = t :=
    State.viaWrite_common hv (place_common (by omega) hrow) ha (by omega) hin hact
  rw [hw, State.does_kept hs hkept]

theorem State.act_slateNamePos (s : State) (w : Written) :
    s.act K.SLATE_NAME_POS w = ((s.namePos (toSigned 64 w.v)).1, (s.namePos (toSigned 64 w.v)).2.2) := rfl

theorem State.act_slateNameTime (s : State) (w : Written) :
    s.act K.SLATE_NAME_TIME w = ((s.nameTime (ofTime64 w.v)).1, (s.nameTime (ofTime64 w.v)).2.2) := rfl

theorem State.act_slateCancel (s : State) (w : Written) : s.act K.SLATE_CANCEL w = s.cancelSlate := rfl

theorem State.act_stageDiscard (s : State) (w : Written) : s.act K.STAGE_DISCARD w = (.ok, s.discard) := rfl

theorem State.act_autoPeriod (s : State) {key : Nat} (hk : key = K.AUTO_PERIOD_POS ∨ key = K.AUTO_PERIOD_TIME) (w : Written) :
    s.act key w = s.autoWrite key w.v := by
  rcases hk with rfl | rfl
  · rfl
  · rfl

/-- A ring member does not cancel; another device leaves no Slate pending (R80). -/
theorem State.cancelSlate_free {s : State} (h : s.ring.bound = false) :
    s.cancelSlate = (.ok, s.modSlate fun q => { q with pending := .none }) := by
  simp [State.cancelSlate, h]

theorem exec_slateNamePos_ok {s t : State} {via : Via} {v : Nat} {b : Bool} (hs : s.running) (hv : s.hears (K.SLATE_NAME_POS / 256) via)
    (hlt : v < 2 ^ 64) (h : s.namePos (toSigned 64 v) = (.ok, b, t)) : exec (.slateNamePos (.write via v)) s = .next t := by
  have hact : s.act K.SLATE_NAME_POS { vals := [v] } = (.ok, t) := by
    rw [State.act_slateNamePos]; exact congrArg (fun r => (r.1, r.2.2)) h
  have hkept : s.Kept t := by simpa only [h] using s.namePos_keeps (toSigned 64 v)
  exact State.does_scalar hs hv rfl (by decide) (.inr rfl) ⟨rfl, rfl, rfl, hlt, rfl⟩ hact hkept

theorem exec_slateNameTime_ok {s t : State} {via : Via} {v : Nat} {b : Bool} (hs : s.running) (hv : s.hears (K.SLATE_NAME_TIME / 256) via)
    (hlt : v < 2 ^ 80) (h : s.nameTime (ofTime64 v) = (.ok, b, t)) : exec (.slateNameTime (.write via v)) s = .next t := by
  have hact : s.act K.SLATE_NAME_TIME { vals := [v] } = (.ok, t) := by
    rw [State.act_slateNameTime]; exact congrArg (fun r => (r.1, r.2.2)) h
  have hkept : s.Kept t := by simpa only [h] using s.nameTime_keeps (ofTime64 v)
  exact State.does_scalar hs hv rfl (by decide) (.inr rfl) ⟨rfl, rfl, rfl, hlt, rfl⟩ hact hkept

theorem exec_slateCancel_free {s : State} {via : Via} (hs : s.running) (hv : s.hears (K.SLATE_CANCEL / 256) via)
    (h : s.ring.bound = false) :
    exec (.slateCancel (.write via 1)) s = .next (s.modSlate fun q => { q with pending := .none }) :=
  State.does_scalar hs hv rfl (by decide) (.inr rfl) ⟨rfl, rfl, rfl, by decide, rfl⟩
    ((s.act_slateCancel _).trans (State.cancelSlate_free h)) (s.modSlate_keeps _)

theorem exec_stageDiscard_write {s : State} {via : Via} (hs : s.running) (hv : s.hears (K.STAGE_DISCARD / 256) via) :
    exec (.stageDiscard (.write via 1)) s = .next s.discard :=
  State.does_scalar hs hv rfl (by decide) (.inr rfl) ⟨rfl, rfl, rfl, by decide, rfl⟩ (s.act_stageDiscard _) s.discard_keeps

theorem exec_autoPeriodPosWrite_ok {s t : State} {via : Via} {v : Nat} (hs : s.running) (hv : s.hears (K.AUTO_PERIOD_POS / 256) via)
    (hlt : v < 2 ^ 64) (h : s.autoWrite K.AUTO_PERIOD_POS v = (.ok, t)) : exec (.autoPeriodPosWrite via v) s = .next t := by
  have hkept : s.Kept t := by simpa only [h] using s.autoWrite_keeps K.AUTO_PERIOD_POS v
  exact State.does_scalar hs hv rfl (by decide) (.inl rfl) ⟨rfl, rfl, rfl, hlt, rfl⟩ ((s.act_autoPeriod (.inl rfl) _).trans h) hkept

/-- The range of AUTO_PERIOD_TIME (R97): 0, or 1 ms to 2^47 - 1 ns. -/
theorem autoPeriodTime_inRange {row : ObjInfo} {v : Nat} (h : v = 0 ∨ (1000000 ≤ v ∧ v < 2 ^ 47)) :
    (Chk.zeroOr 1000000 140737488355327).ok row [v] = true := by
  simp only [Chk.ok, Chk.wholeOk, Chk.elemOk, List.all_cons, List.all_nil, Bool.and_true, Bool.or_eq_true, Bool.and_eq_true, beq_iff_eq,
    decide_eq_true_eq]
  omega

theorem exec_autoPeriodTimeWrite_ok {s t : State} {via : Via} {v : Nat} (hs : s.running) (hv : s.hears (K.AUTO_PERIOD_TIME / 256) via)
    (hr : v = 0 ∨ (1000000 ≤ v ∧ v < 2 ^ 47)) (h : s.autoWrite K.AUTO_PERIOD_TIME v = (.ok, t)) :
    exec (.autoPeriodTimeWrite via v) s = .next t := by
  have hkept : s.Kept t := by simpa only [h] using s.autoWrite_keeps K.AUTO_PERIOD_TIME v
  exact State.does_scalar hs hv rfl (by decide) (.inl rfl) ⟨rfl, rfl, rfl, by omega, autoPeriodTime_inRange hr⟩
    ((s.act_autoPeriod (.inr rfl) _).trans h) hkept

/-- Settles O30: each object's write comes to what its act leaves, and no such act leaves a device reset due. -/
theorem slateControlWritesComplete : Obligations.SlateControlWritesComplete := by
  unfold Obligations.SlateControlWritesComplete
  intro s hs
  refine ⟨?namePos, ?nameTime, ?cancel, ?discard, ?autoPos, ?autoTime⟩
  case namePos => exact fun via v b t hv hlt h => exec_slateNamePos_ok hs hv hlt h
  case nameTime => exact fun via v b t hv hlt h => exec_slateNameTime_ok hs hv hlt h
  case cancel => exact fun via hv h => exec_slateCancel_free hs hv h
  case discard => exact fun via hv => exec_stageDiscard_write hs hv
  case autoPos => exact fun via v t hv hlt h => exec_autoPeriodPosWrite_ok hs hv hlt h
  case autoTime => exact fun via v t hv hr h => exec_autoPeriodTimeWrite_ok hs hv hr h

/-! ### Writes through the BARs -/

/-- A function that answers on its BARs carries a host's write out (R456, R458). -/
theorem State.hostWrite_hears {s : State} {f : Fin 7} {i : Nat} (h : s.hears i (.bar f)) (g : State → State) : s.hostWrite f g = g s := by
  obtain ⟨-, hlink, hflr, hmem, hd3⟩ := h
  simp [State.hostWrite, State.hostGate, hlink, hflr, hmem, hd3]

/-- An access beyond the large-object window that a slot takes is a write of that slot (R86, R91). -/
theorem State.bar0Write_slot {s : State} {mute : Option (Fin 6)} {f : Fin 7} {addr i sub o : Nat} {data : List Nat} (h : 0x200000 ≤ addr)
    (hat : slotAt f addr = some (i, sub, o)) : s.bar0Write mute f addr data = s.slotWrite mute f i sub o data := by
  have hpage : ¬addr < 0x1000 := by omega
  have hmail : ¬(f.val = 0 ∧ addr < 0x2000) := by omega
  have hwin : ¬(0x100000 ≤ addr ∧ addr < 0x200000) := by omega
  simp only [State.bar0Write, if_neg hpage, if_neg hmail, if_neg hwin, hat]

/-- A write of a slot that covers the whole scalar takes effect at once (R92). -/
theorem State.slotWrite_whole {s : State} {mute : Option (Fin 6)} {f : Fin 7} {i sub : Nat} {data : List Nat} {p : Place}
    (hp : place i sub = some p) (hs : p.row.isScalar = true) (hpos : 0 < p.row.ty.size) (hlen : p.row.ty.size ≤ data.length)
    (hsize : data.length = 4 ∨ data.length = 8) :
    s.slotWrite mute f i sub 0 data = State.barEnd f i sub (s.barEffect mute p none (data.take p.row.ty.size)) := by
  have hok : slotSizeOk 0 data.length = true := by rcases hsize with h | h <;> rw [h] <;> rfl
  simp [State.slotWrite, hok, hp, hs, hlen, Nat.not_le.mpr hpos]

/-- A write of the large-object window is a segment of the object it maps (R94). -/
theorem State.windowWrite_mapped {s : State} {mute : Option (Fin 6)} {f : Fin 7} {off base i sub : Nat} {data : List Nat} {p : Place}
    (h : s.windowOf f = (some p, base, i, sub)) :
    s.windowWrite mute f off data =
      State.barEnd f i sub (s.barEffect mute p (some { off := base + off, more := (s.fnNode f).fn.lowMore }) data) := by
  simp only [State.windowWrite, h]

/-- Settles O40: each path comes to the effect of its write, which is recorded nowhere when it is accepted. -/
theorem barWritesComplete : Obligations.BarWritesComplete := by
  unfold Obligations.BarWritesComplete
  intro s hs
  refine ⟨?slot, ?window, ?object, ?bar, ?mailbox, ?timeout⟩
  case slot =>
    intro f addr data i k p t hv _ hbeyond hat hp hsc hlen hsize _ hpos heff
    have hw : s.barWrite none f .bar0 addr data = t := by
      rw [State.barWrite, State.hostWrite_hears hv, State.bar0Write_slot hbeyond hat,
        State.slotWrite_whole hp hsc hpos hlen hsize, heff, State.barEnd]
    exact (congrArg s.does hw).trans (State.does_dueReset hs t)
  case window =>
    intro f off data i k p base t hv hat heff
    have hw : s.hostWrite f (·.windowWrite none f off.val data) = t := by
      rw [State.hostWrite_hears hv, State.windowWrite_mapped hat, heff, State.barEnd]
    exact (congrArg s.does hw).trans (State.does_dueReset hs t)
  case object =>
    intro via i k seg data p t hv hp heff
    exact (congrArg s.does (State.viaWrite_ok hv hp heff)).trans (State.does_dueReset hs t)
  case bar => exact fun f b addr data => State.does_dueReset hs _
  case mailbox => exact fun i hv => (congrArg s.does (State.hostWrite_hears hv _)).trans (State.does_dueReset hs _)
  case timeout => exact fun c r => State.does_dueReset hs _

/-! ### Staged writes (R35) -/

/-- What `stagePut` makes of an entry `y` of an area that holds one of `x`'s object. -/
def Staged.replacedBy (x y : Staged) : Staged := if y.key = x.key then x else y

theorem Staged.replacedBy_key (x y : Staged) : (x.replacedBy y).key = y.key := by
  unfold Staged.replacedBy
  split
  next h => exact h.symm
  next => rfl

theorem stagePut_of_held {l : List Staged} {x : Staged} (h : (stagedFind l x.key).isSome) : stagePut l x = l.map x.replacedBy := by
  have hany : l.any (·.key == x.key) = true := by simpa [stagedFind] using h
  rw [stagePut, if_pos hany]
  rfl

/-- Replacing keeps the keys, so that an object finds its entry where it was. -/
theorem stagedFind_map_replacedBy (l : List Staged) (x : Staged) (k : Nat) :
    stagedFind (l.map x.replacedBy) k = (stagedFind l k).map x.replacedBy := by
  simp only [stagedFind, List.find?_map, Function.comp_def, Staged.replacedBy_key]

theorem stagedFind_key {l : List Staged} {k : Nat} {y : Staged} (h : stagedFind l k = some y) : y.key = k := by
  simpa using List.find?_some h

theorem stagedFind_stagePut_same {l : List Staged} {x : Staged} (h : (stagedFind l x.key).isSome) :
    stagedFind (stagePut l x) x.key = some x := by
  obtain ⟨y, hy⟩ := Option.isSome_iff_exists.mp h
  rw [stagePut_of_held h, stagedFind_map_replacedBy, hy, Option.map_some, Staged.replacedBy, if_pos (stagedFind_key hy)]

theorem stagedFind_stagePut_ne {l : List Staged} {x : Staged} (h : (stagedFind l x.key).isSome) {k : Nat} (hk : k ≠ x.key) :
    stagedFind (stagePut l x) k = stagedFind l k := by
  rw [stagePut_of_held h, stagedFind_map_replacedBy]
  cases hy : stagedFind l k with
  | none => rfl
  | some y => rw [Option.map_some, Staged.replacedBy, if_neg (stagedFind_key hy ▸ hk)]

/-- The entry that a checked item would make is one of its object: every other branch of the check answers an error. -/
theorem State.stageCheck_key {s : State} {p : Place} {seg : Option Segment} {data : List Nat} {e : Staged}
    (h : s.stageCheck p seg data = .ok e) : e.key = p.key := by
  simp only [State.stageCheck] at h
  repeat' split at h
  all_goals cases h
  all_goals rfl

/-- One item that needs an entry in a full area is turned away, and nothing is staged (R35, R78). -/
theorem State.stageSet_full {s : State} {p : Place} {e : Staged} (h : stageFull (s.stagedOf p.chan) e.key = true) :
    s.stageSet [(p, e)] = ([.stagingFull], .stagingFull, s) := by
  have hf : s.stageFulls [(p, e)] = [true] := by simp [State.stageFulls, h]
  simp [State.stageSet, hf]

/-- Settles O44: replacing an entry keeps the keys of the area, and a set of one item that finds it full stages nothing. -/
theorem stagedWritesReplaceOrAreTurnedAway : Obligations.StagedWritesReplaceOrAreTurnedAway := by
  unfold Obligations.StagedWritesReplaceOrAreTurnedAway
  refine ⟨?replaced, ?turnedAway⟩
  case replaced =>
    intro l x h
    have hlen : (stagePut l x).length = l.length := by rw [stagePut_of_held h, List.length_map]
    exact ⟨hlen, stagedFind_stagePut_same h, fun k hk => stagedFind_stagePut_ne h hk⟩
  case turnedAway =>
    intro s mute p seg data t e hreach hcheck hfull
    have hset : t.stageSet [(p, e)] = ([.stagingFull], .stagingFull, t) :=
      State.stageSet_full (by rwa [State.stageCheck_key hcheck])
    simp only [State.stageItem, hreach, hcheck, hset]

/-! ### After PORST (R533) -/

theorem State.reset_chan (c : Fin 6) : State.reset.chan c = Chan.reset c.val := Vector.getElem_ofFn ..

/-- A channel's memory controller trains set A after PORST (R393, R394), and its memory lists no byte. -/
theorem Chan.reset_memory (c : Nat) : (Chan.reset c).memState = 1 ∧ (Chan.reset c).n.num K.ACTIVE_SET = 0 ∧ (Chan.reset c).mem = [] :=
  ⟨rfl, rfl, rfl⟩

/-- Settles O58: the common block after PORST by evaluation, every channel by `Chan.reset_memory`. -/
theorem resetValuesOfTheSpec : Obligations.ResetValuesOfTheSpec := by
  unfold Obligations.ResetValuesOfTheSpec
  refine ⟨rfl, rfl, rfl, rfl, rfl, rfl, rfl, fun c => ?_⟩
  rw [State.reset_chan]
  exact Chan.reset_memory c.val

end Sys2Proof.Machine

end

/-! ## The dictionary service, KDP, and host writes of the common block (02) -/

section

namespace Sys2Proof.Machine

/-! ### Events of the dictionary service -/

/-- A host's write keeps the queue, the hold and the due reset where what it carries out does. -/
theorem State.hostWrite_kept {g : State → State} (hg : ∀ t : State, t.Kept (g t)) (s : State) (f : Fin 7) : s.Kept (s.hostWrite f g) := by
  obtain ⟨hpending, hheld⟩ := s.hostWrite_keeps f g fun t => ⟨(hg t).1, (hg t).2.1⟩
  exact ⟨hpending, hheld, s.hostWrite_due f g fun t => (hg t).2.2⟩

/-- Settles O11: none of the events leaves a device reset due. -/
theorem dictionaryEventsComplete : Obligations.DictionaryEventsComplete := by
  unfold Obligations.DictionaryEventsComplete
  intro s hs
  refine ⟨?sessions, ?subscriptions, ?arp, ?echo, ?mailbox, ?slot, ?window, ?close⟩
  case sessions => exact State.does_kept hs s.expireSessions_keeps
  case subscriptions => exact State.does_kept hs s.lapseSubs_keeps
  case arp => exact fun p ip => State.does_kept hs (s.arpAnswer_keeps p ip)
  case echo => exact fun p src dst payload => State.does_kept hs (s.echoAnswer_keeps p src dst payload)
  case mailbox => exact State.does_kept hs s.mailboxDone_keeps
  case slot => exact fun f b off size => State.does_kept hs (s.barRead_keeps none f b off size)
  case window => exact fun f off size => State.does_kept hs (s.hostRead_keeps f _ fun t => t.windowRead_keeps none f off.val size)
  case close => exact fun f => State.does_kept hs (State.hostWrite_kept (fun t => t.lowClose_keeps f) s f)

/-! ### KDP datagrams (R72-R74) -/

/-- A datagram that the port does not serve, or whose form or length R72 and R73 rule out. -/
def State.KdpIgnores (s : State) (d : Datagram) : Prop :=
  s.kdpUp d.port.val = false ∨ d.vlan = true ∨ d.ipOptions = true ∨ d.fragment = true ∨ d.payload.length < 24 ∨ 1472 < d.payload.length

theorem State.kdpServe_ignored {s : State} {d : Datagram} (h : s.KdpIgnores d) (mute : Option (Fin 6)) (takes : Nat → Bool) :
    s.kdpServe mute d takes = s :=
  if_pos h

/-- A datagram of a right form whose MAGIC or CRC is wrong is only counted, whatever its opcode (R73). -/
theorem State.kdpServe_corrupt {s : State} {d : Datagram} (h : ¬s.KdpIgnores d) (hc : kdpMagic d.payload = false ∨ kdpCrcOk d.payload = false)
    (mute : Option (Fin 6)) (takes : Nat → Bool) :
    s.kdpServe mute d takes = s.onN (·.addE 32 K.KDP_CRC_DROPS d.port.val 1) := by
  have hbad : (!kdpMagic d.payload || !kdpCrcOk d.payload) = true := by simpa using hc
  unfold State.KdpIgnores at h
  simp only [State.kdpServe, if_neg h, hbad, if_true]

theorem State.kdpTakes_not_ignored {s : State} {d : Datagram} {op : Nat} (h : s.kdpTakes d op) : ¬s.KdpIgnores d := by
  obtain ⟨hup, hvlan, hopt, hfrag, hmin, hmax, -⟩ := h
  simp [State.KdpIgnores, hup, hvlan, hopt, hfrag, hmin, hmax]

/-- The state in which a port has counted a request (R96). -/
def State.kdpCounted (s : State) (d : Datagram) : State := s.onN (·.addE 32 K.KDP_RX_COUNT d.port.val 1)

/-- The answer to a counted request of version 1 and right length, and the state it leaves: one of an opcode of R74 is executed in its
session, another one answered outside any. -/
def State.kdpReply (s : State) (mute : Option (Fin 6)) (d : Datagram) : State × List Nat :=
  if 6 < (kdpHeader d.payload).opcode ∨ (kdpHeader d.payload).opcode = 0 then
    (s, kdpAnswer (kdpHeader d.payload) (answerOp (kdpHeader d.payload)) 0 Status.badOpcode.code s.common.n.gen [])
  else s.inSession mute d (kdpHeader d.payload) (kdpPayload d)

theorem State.kdpReply_request {d : Datagram} (hop : 1 ≤ (kdpHeader d.payload).opcode ∧ (kdpHeader d.payload).opcode ≤ 6) (s : State)
    (mute : Option (Fin 6)) : s.kdpReply mute d = s.inSession mute d (kdpHeader d.payload) (kdpPayload d) :=
  if_neg (by omega)

theorem State.kdpReply_badOpcode {d : Datagram} (hop : (kdpHeader d.payload).opcode = 0 ∨ 6 < (kdpHeader d.payload).opcode) (s : State)
    (mute : Option (Fin 6)) : s.kdpReply mute d =
      (s, kdpAnswer (kdpHeader d.payload) (answerOp (kdpHeader d.payload)) 0 Status.badOpcode.code s.common.n.gen []) :=
  if_pos hop.symm

/-- A request in order is counted, and its answer leaves from the address that the port had (R96). -/
theorem State.kdpServe_inOrder {s : State} {d : Datagram} {op : Nat} {takes : Nat → Bool} (h : s.kdpTakes d op) (ht : takes op = true)
    (hver : (kdpHeader d.payload).version = 1) (hlen : (kdpHeader d.payload).payloadLen = (kdpPayload d).length) (mute : Option (Fin 6)) :
    s.kdpServe mute d takes =
      (s.kdpCounted d).answerTo ((s.kdpCounted d).kdpReply mute d).1 d ((s.kdpCounted d).kdpReply mute d).2 := by
  have hform := State.kdpTakes_not_ignored h
  obtain ⟨-, -, -, -, -, -, hmagic, hcrc, rfl⟩ := h
  unfold State.KdpIgnores at hform
  unfold kdpPayload at hlen
  simp only [State.kdpServe, if_neg hform, hmagic, hcrc, ht, hver, hlen, Bool.not_true, Bool.or_self, Bool.false_eq_true, if_false, ne_eq,
    not_true_eq_false, State.kdpReply]
  by_cases hop : 6 < (kdpHeader d.payload).opcode ∨ (kdpHeader d.payload).opcode = 0
  · simp only [if_pos hop]
    rfl
  · simp only [if_neg hop]
    rfl

theorem State.does_unchanged {s : State} (hs : s.running) : s.does s = .next s := State.does_running hs hs.2

theorem State.answerTo_keeps (s t : State) (d : Datagram) (bytes : List Nat) : t.Kept (s.answerTo t d bytes) :=
  State.Kept.ite (t.mapN_keeps _) ⟨rfl, rfl, rfl⟩

/-- A request that is executed in its session has been counted, executed and answered (R74, R83). -/
def State.kdpExecuted (s : State) (d : Datagram) : State :=
  (s.kdpCounted d).answerTo ((s.kdpCounted d).inSession none d (kdpHeader d.payload) (kdpPayload d)).1 d
    ((s.kdpCounted d).inSession none d (kdpHeader d.payload) (kdpPayload d)).2

/-- A device reset that a request in order brings about acts at its end. -/
theorem State.does_kdpRequest {s : State} {d : Datagram} {op : Nat} {takes : Nat → Bool} (hs : s.running) (h : s.kdpTakes d op)
    (ht : takes op = true) (hver : (kdpHeader d.payload).version = 1)
    (hlen : (kdpHeader d.payload).payloadLen = (kdpPayload d).length) (hop : 1 ≤ op ∧ op ≤ 6) :
    s.does (s.kdpServe none d takes) = .next (s.kdpExecuted d).dueReset := by
  have hserve := State.kdpServe_inOrder h ht hver hlen none
  obtain ⟨-, -, -, -, -, -, -, -, rfl⟩ := h
  rw [State.kdpReply_request hop] at hserve
  rw [hserve, State.does_dueReset hs, State.kdpExecuted]

/-- A row of R80 serves the SLATE requests whose ACTION byte it takes. -/
theorem State.does_slateKdp {s : State} {d : Datagram} {takes : Nat → Bool} (hs : s.running) (h : s.kdpTakes d 4)
    (ha : takes (d.payload.getD 20 0) = true) (hver : (kdpHeader d.payload).version = 1)
    (hlen : (kdpHeader d.payload).payloadLen = (kdpPayload d).length) :
    s.does (s.slateKdp d takes) = .next (s.kdpExecuted d).dueReset := by
  rw [State.slateKdp, if_pos ha, State.does_kdpRequest hs h rfl hver hlen (by decide)]

/-- Settles O26: each opcode's command serves its own requests, and SLATE_BAD_ACTION the SLATE requests of no action. -/
theorem kdpRequestsComplete : Obligations.KdpRequestsComplete := by
  unfold Obligations.KdpRequestsComplete
  intro s d hs hver hlen
  refine ⟨?read, ?write, ?stage, ?badAction, ?snapshot, ?subscribe⟩
  case read => exact fun h => State.does_kdpRequest hs h rfl hver hlen (by decide)
  case write => exact fun h => State.does_kdpRequest hs h rfl hver hlen (by decide)
  case stage => exact fun h => State.does_kdpRequest hs h rfl hver hlen (by decide)
  case badAction =>
    exact fun h ha => State.does_slateKdp (takes := fun a => a == 0 || decide (4 < a)) hs h (by simpa using ha) hver hlen
  case snapshot => exact fun h => State.does_kdpRequest hs h rfl hver hlen (by decide)
  case subscribe => exact fun h => State.does_kdpRequest hs h rfl hver hlen (by decide)

/-- Settles O31: each action's command serves the SLATE requests of its ACTION byte. -/
theorem kdpSlateRequestsComplete : Obligations.KdpSlateRequestsComplete := by
  unfold Obligations.KdpSlateRequestsComplete
  intro s d hs h hver hlen
  have serves (a : Nat) (ha : d.payload.getD 20 0 = a) : s.does (s.slateKdp d (· == a)) = .next (s.kdpExecuted d).dueReset :=
    State.does_slateKdp hs h (beq_iff_eq.mpr ha) hver hlen
  exact ⟨serves 1, serves 2, serves 3, serves 4⟩

/-- Settles O27: counting and answering bring about no device reset. -/
theorem kdpBadOpcodeAnswered : Obligations.KdpBadOpcodeAnswered := by
  unfold Obligations.KdpBadOpcodeAnswered
  intro s d op hs h hop hver hlen
  have hserve := State.kdpServe_inOrder (takes := fun o => o == 0 || decide (6 < o)) h (by simpa using hop) hver hlen none
  obtain ⟨-, -, -, -, -, -, -, -, rfl⟩ := h
  rw [State.kdpReply_badOpcode hop] at hserve
  exact (congrArg s.does hserve).trans
    (State.does_kept hs (State.Kept.trans (s.onN_keeps _) (State.answerTo_keeps _ _ _ _)))

/-- Settles O28: the form of the datagram is looked at before its opcode, so that every KDP command ignores the same ones. -/
theorem kdpDropsWithoutAnswer : Obligations.KdpDropsWithoutAnswer := by
  unfold Obligations.KdpDropsWithoutAnswer
  intro s d hs
  refine ⟨?ignored, ?corrupt⟩
  case ignored =>
    intro h
    have hstays (takes : Nat → Bool) : s.does (s.kdpServe none d takes) = .next s :=
      (congrArg s.does (State.kdpServe_ignored h none takes)).trans (State.does_unchanged hs)
    exact ⟨hstays _, hstays _, hstays _, hstays _, hstays _, hstays _⟩
  case corrupt =>
    intro hup hvlan hopt hfrag hmin hmax hc
    have hform : ¬s.KdpIgnores d := by simp [State.KdpIgnores, hup, hvlan, hopt, hfrag, hmin, hmax]
    exact (congrArg s.does (State.kdpServe_corrupt hform hc none _)).trans (State.does_kept hs (s.onN_keeps _))

/-! ### Sessions (R83) -/

/-- A request of no held session finds no place among 64 (R83). -/
theorem State.inSession_full {s : State} {d : Datagram} {h : KdpHeader} (hfull : 64 ≤ s.common.server.sessions.length)
    (hnone : ∀ x ∈ s.common.server.sessions, sessionIs d.srcIp d.srcPort h.session x = false) (mute : Option (Fin 6)) (payload : List Nat) :
    s.inSession mute d h payload = (s, kdpAnswer h (answerOp h) 0 Status.busy.code s.common.n.gen []) := by
  have hfind : s.common.server.sessions.find? (sessionIs d.srcIp d.srcPort h.session) = none :=
    List.find?_eq_none.mpr fun x hx => by simp [hnone x hx]
  simp only [State.inSession, hfind, if_pos hfull]

/-- Settles O50: a full table keeps out a new session; those that go are the ones whose idle time, on the clock without steps, has run out. -/
theorem sessionsAreBounded : Obligations.SessionsAreBounded := by
  unfold Obligations.SessionsAreBounded
  refine ⟨?full, ?expired⟩
  case full => exact fun s d h payload hfull hnone => State.inSession_full hfull hnone none payload
  case expired => exact fun s hs => ⟨s.expireSessions, State.does_kept hs s.expireSessions_keeps, rfl⟩

/-! ### The access code of an object (R60, R62) -/

/-- A direct write item of a reached object that takes none is rejected with ACCESS, and nothing else is changed. -/
theorem State.writeItem_access {s t : State} {mute : Option (Fin 6)} {p : Place} (hr : s.reach mute p = .ok t)
    (ha : p.row.acc = .rs ∨ p.row.acc = .ro ∨ p.row.acc = .const) (seg : Option Segment) (data : List Nat) :
    s.writeItem mute p seg data = (.access, t) := by
  rcases ha with h | h | h <;> simp only [State.writeItem, hr, h]

/-- A staged item of a reached object that is not RS is rejected with ACCESS, and nothing else is changed. -/
theorem State.stageItem_access {s t : State} {mute : Option (Fin 6)} {p : Place} (hr : s.reach mute p = .ok t) (ha : p.row.acc ≠ .rs)
    (seg : Option Segment) (data : List Nat) : s.stageItem mute p seg data = (.access, t) := by
  have hcheck : t.stageCheck p seg data = .error .access := by
    unfold State.stageCheck
    split
    next h => exact absurd h ha
    next => rfl
  simp only [State.stageItem, hr, hcheck]

/-- A write through a BAR is a direct one of every object that is not RS. -/
theorem State.barEffect_direct {p : Place} (ha : p.row.acc ≠ .rs) (s : State) (mute : Option (Fin 6)) (seg : Option Segment) (data : List Nat) :
    s.barEffect mute p seg data = s.writeItem mute p seg data := by
  unfold State.barEffect
  split
  next h => exact absurd h ha
  next => rfl

theorem State.barEffect_staged {p : Place} (ha : p.row.acc = .rs) (s : State) (mute : Option (Fin 6)) (seg : Option Segment) (data : List Nat) :
    s.barEffect mute p seg data = s.stageItem mute p seg data := by
  simp only [State.barEffect, ha]

/-- Settles O42: an object is reached, or not, before its access code is looked at. -/
theorem accessCodesDecideThePath : Obligations.AccessCodesDecideThePath := by
  unfold Obligations.AccessCodesDecideThePath
  intro s mute p seg data
  refine ⟨?unreached, ?directOfRs, ?stagedOfOther, ?barOfRs, ?barOfOther⟩
  case unreached =>
    intro st hr
    constructor
    · simp only [State.writeItem, hr]
    · simp only [State.stageItem, hr]
  case directOfRs => exact fun t hr ha => State.writeItem_access hr (.inl ha) seg data
  case stagedOfOther => exact fun t hr ha => State.stageItem_access hr ha seg data
  case barOfRs => exact fun ha => State.barEffect_staged ha s mute seg data
  case barOfOther =>
    intro ha
    have hrs : p.row.acc ≠ .rs := by rcases ha with h | h | h <;> rw [h] <;> decide
    exact State.barEffect_direct hrs s mute seg data

/-- An object of the common block, and one of a channel that answers, is reached. -/
theorem State.reach_place {s : State} {p : Place} (h : ∀ c, p.chan = some c → (s.chan c).answers) : s.reach none p = .ok s := by
  obtain ⟨chan, key, row⟩ := p
  cases chan with
  | none => rfl
  | some c => exact State.reach_answers (h c rfl)

/-- What a host's write of an object it may only read comes to, before the path answers it. -/
theorem State.barEffect_readOnly {s : State} {p : Place} (hr : s.reach none p = .ok s) (ha : p.row.acc = .ro ∨ p.row.acc = .const)
    (seg : Option Segment) (data : List Nat) : s.barEffect none p seg data = (.access, s) := by
  have hrs : p.row.acc ≠ .rs := by rcases ha with h | h <;> rw [h] <;> decide
  rw [State.barEffect_direct hrs, State.writeItem_access hr (.inr ha)]

theorem State.viaWrite_kdp {s : State} {i k : Nat} {p : Place} (hp : place i k = some p) (seg : Option Segment) (data : List Nat) :
    s.viaWrite .kdp i k seg data = (s.barEffect none p seg data).2 := by
  simp only [State.viaWrite, hp]

theorem State.viaWrite_bar {s : State} {f : Fin 7} {i k : Nat} {p : Place} (hv : s.hears i (.bar f)) (hp : place i k = some p)
    (seg : Option Segment) (data : List Nat) :
    s.viaWrite (.bar f) i k seg data = State.barEnd f i k (s.barEffect none p seg data) := by
  simp only [State.viaWrite, if_pos hv.1, State.hostWrite_hears hv, hp]

/-- Settles O43: the item is rejected with ACCESS on the state as it was, which a BAR records. -/
theorem readOnlyObjectsKeepTheirValue : Obligations.ReadOnlyObjectsKeepTheirValue := by
  unfold Obligations.ReadOnlyObjectsKeepTheirValue
  intro s i k seg data p hs hp hc ha
  have heff (x : Option Segment) := State.barEffect_readOnly (State.reach_place hc) ha x data
  constructor
  · have hw (x : Option Segment) : s.viaWrite .kdp i k x data = s := by rw [State.viaWrite_kdp hp, heff]
    exact (congrArg s.does (hw _)).trans (State.does_unchanged hs)
  · intro f hv
    have hw (x : Option Segment) : s.viaWrite (.bar f) i k x data = s.barReject f i k .access := by
      rw [State.viaWrite_bar hv hp, heff]
      rfl
    exact (congrArg s.does (hw _)).trans (State.does_dueReset hs _)

/-! ### Writes of scalars of the common block -/

/-- A heard write of a scalar of the common block, the reserved timed action aside, leaves what the object's act leaves. -/
theorem State.viaScalar_common {s t : State} {via : Via} {key n v : Nat} {row : ObjInfo} (hv : s.hears (key / 256) via)
    (hrow : objInfo key = some row) (hkey : key / 256 < 0x8000 ∧ key / 256 ≠ 0x217F) (ha : row.acc = .rw ∨ row.acc = .wo)
    (htakes : row.TakesScalar n v) (hact : s.act key { vals := [v] } = (.ok, t)) : s.viaScalar via key n v = t :=
  State.viaWrite_common hv (place_common hkey.1 hrow) ha hkey.2
    (ObjInfo.incoming_scalar htakes.shape htakes.keep htakes.size htakes.fits htakes.inRange) hact

/-- The command of such a write: no act of an object but DEVICE_RESET leaves a device reset due. -/
theorem State.does_commonScalar {s t : State} {via : Via} {key n v : Nat} {row : ObjInfo} (hs : s.running) (hv : s.hears (key / 256) via)
    (hrow : objInfo key = some row) (hkey : key / 256 < 0x8000 ∧ key / 256 ≠ 0x217F) (ha : row.acc = .rw ∨ row.acc = .wo)
    (htakes : row.TakesScalar n v) (hact : s.act key { vals := [v] } = (.ok, t)) (hkept : s.Kept t) :
    s.does (s.viaScalar via key n v) = .next t := by
  rw [State.viaScalar_common hv hrow hkey ha htakes hact, State.does_kept hs hkept]

/-- A store write is taken where nothing rejects it (R501, R505). -/
theorem State.storeAct_free {s : State} (h : storeReject s.common.n = none) (a : Nat) (payload : List Nat) :
    s.storeAct a payload = (.ok, s.onCal (storeStart a payload)) := by
  simp only [State.storeAct, h]

theorem State.act_persistSave (s : State) (w : Written) : s.act K.PERSIST_SAVE w = s.storeAct 0 s.persistItems := rfl
theorem State.act_persistClear (s : State) (w : Written) : s.act K.PERSIST_CLEAR w = s.storeAct 0 [] := rfl
theorem State.act_trimSave (s : State) (w : Written) : s.act K.TRIM_SAVE w = s.storeAct 1 (workingImage s.common.n) := rfl
theorem State.act_calCtrl (s : State) (w : Written) : s.act K.CAL_CTRL w = s.calCtrl w.v := rfl
theorem State.act_pixSave (s : State) (w : Written) : s.act K.PIX_SAVE w = s.pixSave w.v := rfl
theorem State.act_pixLoad (s : State) (w : Written) : s.act K.PIX_LOAD w = s.pixLoadAct w.v := rfl

theorem State.act_trimCapture (s : State) (w : Written) : s.act K.TRIM_CAPTURE w = (.ok, s.trimCaptureAct) := rfl
theorem State.act_logMark (s : State) (w : Written) : s.act K.LOG_MARK w = (.ok, s.onN (·.event 0x300 w.v)) := rfl
theorem State.act_bufRd (s : State) (w : Written) : s.act K.BUF_RD w = (.ok, s.onLog (bufRd w.v)) := rfl
theorem State.act_monClear (s : State) (w : Written) : s.act K.MON_CLEAR w = (.ok, s.onN monClear) := rfl
theorem State.act_bwRole (s : State) (w : Written) : s.act K.BW_ROLE w = (.ok, s.onRing (·.roleWrite w.v)) := rfl

/-- A range that begins at 0, of an unsigned type (R59). -/
theorem Chk.within_ok {row : ObjInfo} {v hi : Nat} (hu : row.ty.signed = false) (h : v ≤ hi) :
    (Chk.within 0 hi).ok row [v] = true := by
  simp [Chk.ok, Chk.elemOk, Chk.wholeOk, ObjInfo.asInt, hu, h]

theorem Chk.multiple_ok {row : ObjInfo} {v n : Nat} (h : v % n = 0) : (Chk.multiple n).ok row [v] = true := by
  simp [Chk.ok, Chk.elemOk, Chk.wholeOk, h]

/-- Settles O32: each object's write comes to what its act leaves, and no such act leaves a device reset due. -/
theorem storeLogAndRingWritesComplete : Obligations.StoreLogAndRingWritesComplete := by
  unfold Obligations.StoreLogAndRingWritesComplete
  intro s hs
  refine ⟨?save, ?clear, ?trimSave, ?trimCapture, ?calStart, ?calAbort, ?pixSave, ?pixLoad, ?mark, ?bufRd, ?monClear, ?role⟩
  case save =>
    exact fun via hv h => State.does_commonScalar hs hv rfl (by decide) (.inr rfl) ⟨rfl, rfl, rfl, by decide, rfl⟩
      ((s.act_persistSave _).trans (State.storeAct_free h 0 _)) (s.onCal_keeps _)
  case clear =>
    exact fun via hv h => State.does_commonScalar hs hv rfl (by decide) (.inr rfl) ⟨rfl, rfl, rfl, by decide, rfl⟩
      ((s.act_persistClear _).trans (State.storeAct_free h 0 _)) (s.onCal_keeps _)
  case trimSave =>
    exact fun via hv h => State.does_commonScalar hs hv rfl (by decide) (.inr rfl) ⟨rfl, rfl, rfl, by decide, rfl⟩
      ((s.act_trimSave _).trans (State.storeAct_free h 1 _)) (s.onCal_keeps _)
  case trimCapture =>
    exact fun via hv => State.does_commonScalar hs hv rfl (by decide) (.inr rfl) ⟨rfl, rfl, rfl, by decide, rfl⟩
      (s.act_trimCapture _) s.trimCaptureAct_keeps
  case calStart =>
    intro via t hv h
    have hkept : s.Kept t := by simpa only [h] using s.calCtrl_keeps 1
    exact State.does_commonScalar hs hv rfl (by decide) (.inr rfl) ⟨rfl, rfl, rfl, by decide, rfl⟩ ((s.act_calCtrl _).trans h) hkept
  case calAbort =>
    intro via t hv h
    have hkept : s.Kept t := by simpa only [h] using s.calCtrl_keeps 2
    exact State.does_commonScalar hs hv rfl (by decide) (.inr rfl) ⟨rfl, rfl, rfl, by decide, rfl⟩ ((s.act_calCtrl _).trans h) hkept
  case pixSave =>
    intro via v t hv hlt h
    have hkept : s.Kept t := by simpa only [h] using s.pixSave_keeps v
    exact State.does_commonScalar hs hv rfl (by decide) (.inr rfl)
      ⟨rfl, rfl, rfl, by omega, Chk.within_ok (hi := 5) rfl (by omega)⟩ ((s.act_pixSave _).trans h) hkept
  case pixLoad =>
    intro via v t hv hlt h
    have hkept : s.Kept t := by simpa only [h] using s.pixLoadAct_keeps v
    exact State.does_commonScalar hs hv rfl (by decide) (.inr rfl)
      ⟨rfl, rfl, rfl, by omega, Chk.within_ok (hi := 5) rfl (by omega)⟩ ((s.act_pixLoad _).trans h) hkept
  case mark =>
    exact fun via v hv hlt => State.does_commonScalar hs hv rfl (by decide) (.inr rfl) ⟨rfl, rfl, rfl, hlt, rfl⟩
      (s.act_logMark _) (s.onN_keeps _)
  case bufRd =>
    exact fun via v hv hlt h64 => State.does_commonScalar hs hv rfl (by decide) (.inl rfl)
      ⟨rfl, rfl, rfl, hlt, Chk.multiple_ok h64⟩ (s.act_bufRd _) (s.onLog_keeps _)
  case monClear =>
    exact fun via hv => State.does_commonScalar hs hv rfl (by decide) (.inr rfl) ⟨rfl, rfl, rfl, by decide, rfl⟩
      (s.act_monClear _) (s.onN_keeps _)
  case role =>
    exact fun via v hv hlt => State.does_commonScalar hs hv rfl (by decide) (.inl rfl)
      ⟨rfl, rfl, rfl, by omega, Chk.within_ok (hi := 2) rfl (by omega)⟩ (s.act_bwRole _) (s.onRing_keeps _)

/-! ### An address that is no U32 (R96) -/

/-- A running device whose port 1 holds 2^32, which no U32 holds: the store of a `State` bounds no element. -/
def State.wideAddress : State := State.reset.mapN (·.put K.NET_IPV4_ADDR [0, 2 ^ 32])

theorem State.wideAddress_running : State.wideAddress.running := ⟨rfl, rfl⟩

/-- What `PowerAndPortWritesComplete` expects of the write of address 0 to port 0: the element of port 1 as it was. -/
def State.wideAddressExpected : State :=
  (State.wideAddress.ipWrite { vals := listPut (State.wideAddress.common.n.elems K.NET_IPV4_ADDR) 0 0, lo := 0, hi := 1 }).2.segmentEnd
    K.NET_IPV4_ADDR

theorem State.wideAddressExpected_elems : State.wideAddressExpected.common.n.elems K.NET_IPV4_ADDR = [0, 2 ^ 32] := rfl

/-- The write lays its segment over the four bytes of each element, and four bytes of 2^32 are 0. -/
theorem State.wideAddress_written_elems :
    (State.wideAddress.viaElem .kdp K.NET_IPV4_ADDR 4 0 0).dueReset.common.n.elems K.NET_IPV4_ADDR = [0, 0] := rfl

/-- Refutes O33: NET_IPV4_ADDR_WRITE keeps the other port's element only where that is below 2^32, which the statement does not ask. -/
theorem not_powerAndPortWritesComplete : ¬ Obligations.PowerAndPortWritesComplete := by
  unfold Obligations.PowerAndPortWritesComplete
  intro h
  obtain ⟨-, -, -, -, haddr, -⟩ := h State.wideAddress State.wideAddress_running
  have hclaim : exec (.netIpv4AddrWrite .kdp 0 0) State.wideAddress = .next State.wideAddressExpected :=
    haddr .kdp 0 0 _ trivial (by decide) rfl rfl
  have hmodel : exec (.netIpv4AddrWrite .kdp 0 0) State.wideAddress =
      .next (State.wideAddress.viaElem .kdp K.NET_IPV4_ADDR 4 0 0).dueReset := State.does_dueReset State.wideAddress_running _
  have hsame : (State.wideAddress.viaElem .kdp K.NET_IPV4_ADDR 4 0 0).dueReset = State.wideAddressExpected :=
    Host.Outcome.next.inj (hmodel.symm.trans hclaim)
  have helems : [0, 0] = [0, 2 ^ 32] := by
    rw [← State.wideAddress_written_elems, hsame, State.wideAddressExpected_elems]
  exact absurd helems (by decide)

end Sys2Proof.Machine

end

/-! ## The web position, the timebase and the timed actions (03, 04) -/

section

namespace Sys2Proof.Machine

/-! ### Events of the encoder block and its outputs (R103-R124) -/

theorem exec_encoderEdge (i : Fin 8) (a b : Bool) (heldA heldB : Nat) (cycle : Fin 4) (s : State) :
    exec (.encoderEdge i ⟨a, b⟩ ⟨heldA, heldB, cycle⟩) s = s.does (s.encoderEdge i.val a b (heldA, heldB) cycle.val) := rfl

theorem exec_encoderIndex (i : Fin 8) (z : Bool) (held : Nat) (s : State) :
    exec (.encoderIndex ⟨i, z, held⟩) s = s.does (s.encoderIndex i.val z held) := rfl

theorem exec_gridPointReached (c : Fin 6) (h cycle : Fin 4) (s : State) :
    exec (.gridPointReached c ⟨h, cycle⟩) s = s.does (s.onLive c (·.gridIn h.val cycle.val (s.webPosIn cycle.val))) := rfl

theorem exec_encoutEmit (m cycle : Fin 4) (s : State) :
    exec (.encoutEmit ⟨m, cycle⟩) s = s.does (s.onEnc (outEmit m.val cycle.val)) := rfl

/-- An act on the encoder block brings about no device reset. -/
theorem State.does_onEnc {s : State} (hs : s.running) (f : EncNode → EncNode) : s.does (s.onEnc f) = .next (s.onEnc f) :=
  State.does_kept hs (s.onEnc_keeps f)

/-- Settles O12: none of the events leaves a device reset due. -/
theorem motionCommandsComplete : Obligations.MotionCommandsComplete := by
  unfold Obligations.MotionCommandsComplete
  intro s hs
  refine ⟨?edge, ?index, ?fault, ?check, ?standstill, ?silence, ?grid, ?out⟩
  case edge =>
    exact fun i a b heldA heldB cycle => (exec_encoderEdge ..).trans (State.does_kept hs (s.encoderEdge_keeps ..))
  case index => exact fun i z held => (exec_encoderIndex ..).trans (State.does_kept hs (s.encoderIndex_keeps ..))
  case fault => exact fun i pair => State.does_onEnc hs _
  case check => exact fun i => State.does_onEnc hs _
  case standstill => exact fun i => State.does_onEnc hs _
  case silence => exact State.does_onEnc hs _
  case grid => exact fun c h cycle => (exec_gridPointReached ..).trans (State.does_kept hs (s.onLive_keeps c _))
  case out => exact fun m cycle => (exec_encoutEmit ..).trans (State.does_onEnc hs _)

/-! ### The sign of a counted edge (R103, R104) -/

/-- What an encoder counts is the sign of the transition its accepted levels make, turned by ENC_POLARITY bit 3. -/
theorem edgeKind_of_encEdge {i : Nat} {a b : Bool} {held : Nat × Nat} {cycle : Nat} {x : EncNode} {d : Int}
    (h : (encEdge i a b held cycle x).2 = some d) :
    edgeKind (x.1.num (encKey i 1)) (x.2.enc i).a (x.2.enc i).b (encLevel x.1 i 0 held.1 a (x.2.enc i).a)
      (encLevel x.1 i 1 held.2 b (x.2.enc i).b) = .count (if bit (x.1.num (encKey i 3)) 3 then -d else d) := by
  obtain ⟨n, e⟩ := x
  simp only [encEdge] at h
  split at h
  next => cases h
  next => cases h
  next made hkind =>
    obtain rfl : (if bit (n.num (encKey i 3)) 3 then -made else made) = d := Option.some.inj h
    rw [hkind]
    split
    · rw [Int.neg_neg]
    · rfl

/-- Settles O51: the transitions of each mode by evaluation of its table, the polarity from what the edge handler returns. -/
theorem quadratureCountsInThePositiveSequence : Obligations.QuadratureCountsInThePositiveSequence := by
  unfold Obligations.QuadratureCountsInThePositiveSequence
  refine ⟨?off, ?quadrature, ?directed, ?polarity⟩
  case off => exact fun a b a1 b1 => rfl
  case quadrature =>
    rintro m (rfl | rfl | rfl)
    · decide
    · decide
    · decide
  case directed => decide
  case polarity => exact fun i a b held cycle x d h => edgeKind_of_encEdge h

/-! ### Writes that act on the encoder block and the timebase (R117-R132) -/

theorem State.act_failback (s : State) (w : Written) : s.act K.FAILBACK w = (.ok, s.onEnc failback) := rfl
theorem State.act_deviationReset (s : State) (w : Written) : s.act K.DEVIATION_RESET w = (.ok, s.onEnc devReference) := rfl
theorem State.act_tbSource (s : State) (w : Written) : s.act K.TB_SOURCE w = (.ok, s.onTb (tbSourceWrite w.v)) := rfl
theorem State.act_tbSet (s : State) (w : Written) :
    s.act K.TB_SET w = s.hostStep ((ofTime64 w.v : Nat) - (s.common.n.now : Nat)) := rfl
theorem State.act_tbStepAdj (s : State) (w : Written) : s.act K.TB_STEP_ADJ w = s.hostStep (toSigned 64 w.v * 65536) := rfl

/-- A host may step device time while TB_SOURCE is 0 or 3 (R132). -/
theorem State.hostStep_free {s : State} (h : s.common.n.num K.TB_SOURCE = 0 ∨ s.common.n.num K.TB_SOURCE = 3) (d : Int) :
    s.hostStep d = (.ok, s.onTime fun t => (tbStep d t, some d)) :=
  if_pos h

theorem toBits_lt (w : Nat) (i : Int) : toBits w i < 2 ^ w := by
  have hpos : (0 : Int) < (2 ^ w : Nat) := Int.natCast_pos.mpr (Nat.two_pow_pos w)
  have hlt := Int.emod_lt_of_pos i hpos
  unfold toBits
  omega

/-- A number that `w` bits of two's complement hold reads back from its pattern. -/
theorem toSigned_toBits {w : Nat} (hw : 0 < w) {i : Int} (hlo : -(2 ^ (w - 1) : Int) ≤ i) (hhi : i < (2 ^ (w - 1) : Int)) :
    toSigned w (toBits w i) = i := by
  have hpat : BitVec.ofNat w (toBits w i) = BitVec.ofInt w i :=
    BitVec.eq_of_toNat_eq (by rw [BitVec.toNat_ofNat, Nat.mod_eq_of_lt (toBits_lt w i), BitVec.toNat_ofInt, toBits])
  rw [toSigned_eq_toInt hw, hpat]
  exact BitVec.toInt_ofInt_eq_self hw hlo hhi

/-! ### TA_CTRL (R144, R152) -/

/-- The row of TA_CTRL (R152). -/
def taCtrlRow : ObjInfo := ⟨8, .u8, .scalar, .wo, 0, 0, .oneOf [1, 2], []⟩

theorem taCtrl_index (e : Nat) : (K.TA_CTRL + 256 * e) / 256 = 0x2140 + e := Nat.add_mul_div_left _ _ (by decide)
theorem taCtrl_sub (e : Nat) : (K.TA_CTRL + 256 * e) % 256 = 8 := Nat.add_mul_mod_self_left ..

/-- The table of an entry is laid out as that of entry 0. -/
theorem baseIndex_timedAction {e : Nat} (he : e < 64) : baseIndex (0x2140 + e) = 0x2140 := by
  unfold baseIndex
  repeat rw [if_neg (by omega)]
  rw [if_pos (by omega)]

theorem objInfo_taCtrl {e : Nat} (he : e < 64) : objInfo (K.TA_CTRL + 256 * e) = some taCtrlRow := by
  rw [objInfo, taCtrl_index, taCtrl_sub, baseIndex_timedAction he]
  rfl

/-- TA_CTRL is an object of the timed-action table, and none of the others that the encoder, timebase and network objects name. -/
theorem State.act_eq_taWrite {s : State} {e : Nat} (he : e < 64) (w : Written) :
    s.act (K.TA_CTRL + 256 * e) w = s.taWrite (K.TA_CTRL + 256 * e) w := by
  have htime : s.act (K.TA_CTRL + 256 * e) w = s.actTime (K.TA_CTRL + 256 * e) w := if_pos (by rw [taCtrl_index]; omega)
  rw [htime]
  simp only [State.actTime, taCtrl_index, netKey, K.TA_CTRL, K.DEVIATION_RESET, K.FAILBACK, K.TB_SOURCE, K.TB_SET, K.TB_STEP_ADJ]
  repeat rw [if_neg (by omega)]
  rw [if_pos (by omega)]

/-- A write of TA_CTRL of an entry of 0 to 62 arms it by 1 and disarms it by another value. -/
theorem State.act_taCtrl {s : State} {e : Nat} (he : e < 63) (w : Written) :
    s.act (K.TA_CTRL + 256 * e) w = if w.v = 1 then s.taArm e else s.taDisarm e := by
  rw [State.act_eq_taWrite (by omega)]
  simp only [State.taWrite, taCtrl_index, taCtrl_sub, Nat.add_sub_cancel_left]
  rw [if_neg (by omega), if_neg (by omega)]
  rfl

/-- What the write of a command byte to TA_CTRL comes to. -/
theorem State.does_taCtrl {s t : State} {via : Via} {e : Fin 64} {v : Nat} (hs : s.running) (hv : s.hears (K.TA_CTRL / 256 + e.val) via)
    (hcmd : v = 1 ∨ v = 2) (he : e.val < 63) (hop : (if v = 1 then s.taArm e.val else s.taDisarm e.val) = (.ok, t)) (hkept : s.Kept t) :
    s.does (s.viaScalar via (K.TA_CTRL + 256 * e.val) 1 v) = .next t := by
  have hindex : K.TA_CTRL / 256 + e.val = (K.TA_CTRL + 256 * e.val) / 256 := (taCtrl_index e.val).symm
  have hrange : taCtrlRow.chk.ok taCtrlRow [v] = true := by rcases hcmd with rfl | rfl <;> rfl
  exact State.does_commonScalar hs (hindex ▸ hv) (objInfo_taCtrl e.isLt) (by rw [taCtrl_index]; omega) (.inr rfl)
    ⟨rfl, rfl, rfl, by omega, hrange⟩ ((State.act_taCtrl he _).trans hop) hkept

/-- An operation that answers ACCESS beyond entry 62 and accepts is one of an entry of 0 to 62 (R144). -/
theorem lt_of_ite_access_eq_ok {s t : State} {e : Nat} {r : Status × State} (h : (if 62 < e then (.access, s) else r) = (.ok, t)) : e < 63 := by
  refine Nat.lt_succ_of_le (Nat.le_of_not_lt fun hgt => ?_)
  rw [if_pos hgt] at h
  cases h

theorem State.taArm_ok {s t : State} {e : Nat} (h : s.taArm e = (.ok, t)) : e < 63 := lt_of_ite_access_eq_ok h

theorem State.taDisarm_ok {s t : State} {e : Nat} (h : s.taDisarm e = (.ok, t)) : e < 63 := lt_of_ite_access_eq_ok h

/-- Settles O29: each object's write comes to what its act leaves, and no such act leaves a device reset due. -/
theorem timebaseWritesComplete : Obligations.TimebaseWritesComplete := by
  unfold Obligations.TimebaseWritesComplete
  intro s hs
  refine ⟨?failback, ?deviation, ?source, ?set, ?adjust, ?arm, ?disarm⟩
  case failback =>
    exact fun via hv => State.does_commonScalar hs hv rfl (by decide) (.inr rfl) ⟨rfl, rfl, rfl, by decide, rfl⟩
      (s.act_failback _) (s.onEnc_keeps _)
  case deviation =>
    exact fun via hv => State.does_commonScalar hs hv rfl (by decide) (.inr rfl) ⟨rfl, rfl, rfl, by decide, rfl⟩
      (s.act_deviationReset _) (s.onEnc_keeps _)
  case source =>
    exact fun via v hv hlt => State.does_commonScalar hs hv rfl (by decide) (.inl rfl)
      ⟨rfl, rfl, rfl, by omega, Chk.within_ok (hi := 3) rfl (by omega)⟩ (s.act_tbSource _) (s.onTb_keeps _)
  case set =>
    exact fun via v hv hlt hfree => State.does_commonScalar hs hv rfl (by decide) (.inr rfl) ⟨rfl, rfl, rfl, hlt, rfl⟩
      ((s.act_tbSet _).trans (State.hostStep_free hfree _)) (s.onTime_keeps _)
  case adjust =>
    intro via v hv hlo hhi hfree
    have hact : s.act K.TB_STEP_ADJ { vals := [toBits 64 v] } = (.ok, s.onTime fun t => (tbStep (v * 65536) t, some (v * 65536))) := by
      rw [State.act_tbStepAdj, Written.v, List.headD_cons, toSigned_toBits (by decide) hlo hhi, State.hostStep_free hfree]
    exact State.does_commonScalar hs hv rfl (by decide) (.inr rfl) ⟨rfl, rfl, rfl, toBits_lt 64 v, rfl⟩ hact (s.onTime_keeps _)
  case arm =>
    intro via e t hv h
    have hkept : s.Kept t := by simpa only [h] using s.taArm_keeps e.val
    exact State.does_taCtrl hs hv (.inl rfl) (State.taArm_ok h) ((if_pos rfl).trans h) hkept
  case disarm =>
    intro via e t hv h
    have hkept : s.Kept t := by simpa only [h] using s.taDisarm_keeps e.val
    exact State.does_taCtrl hs hv (.inr rfl) (State.taDisarm_ok h) ((if_neg (by decide)).trans h) hkept

end Sys2Proof.Machine

end

/-! ## Network time and the timed actions' execution (04) -/

section

namespace Sys2Proof.Machine

/-! ### Events of the timebase, the network ports and the timed actions (R130-R145) -/

/-- An act on the timebase, with the step of device time it may make, brings about no device reset. -/
theorem State.does_onTime {s : State} (hs : s.running) (f : TimeNode → TimeNode × Option Int) : s.does (s.onTime f) = .next (s.onTime f) :=
  State.does_kept hs (s.onTime_keeps f)

/-- An act on the timebase that makes no step of device time brings about no device reset. -/
theorem State.does_onTb {s : State} (hs : s.running) (f : TimeNode → TimeNode) : s.does (s.onTb f) = .next (s.onTb f) :=
  State.does_kept hs (s.onTb_keeps f)

theorem exec_netRxOverrun_net (p : Fin 2) (s : State) : exec (.netRxOverrun (.net p)) s = s.does (s.onTb (netOverrun p.val)) := rfl

theorem exec_netRxOverrun_ring (p : Fin 2) (s : State) : exec (.netRxOverrun (.ring p)) s = s.does (s.onBw (·.rxOverrun p.val)) := rfl

/-- Settles O13: none of the events leaves a device reset due. -/
theorem clockCommandsComplete : Obligations.ClockCommandsComplete := by
  unfold Obligations.ClockCommandsComplete
  intro s hs
  refine ⟨?receive, ?announceTimeout, ?sync, ?announce, ?delayReq, ?ppsIn, ?ref10m, ?ppsMissing, ?refMissing, ?sourceTimeout, ?rise, ?fall,
    ?link, ?netOverrun, ?ringOverrun, ?timedAction⟩
  case receive => exact fun p m => State.does_onTime hs _
  case announceTimeout => exact fun p => State.does_onTb hs _
  case sync => exact fun p => State.does_onTb hs _
  case announce => exact fun p => State.does_onTb hs _
  case delayReq => exact fun p => State.does_onTb hs _
  case ppsIn => exact State.does_onTime hs _
  case ref10m => exact fun err => State.does_onTb hs _
  case ppsMissing => exact State.does_onTb hs _
  case refMissing => exact State.does_onTb hs _
  case sourceTimeout => exact State.does_onTb hs _
  case rise => exact State.does_onTb hs _
  case fall => exact State.does_onTb hs _
  case link => exact fun p up => State.does_kept hs (s.netChange_keeps p.val up)
  case netOverrun => exact fun p => (exec_netRxOverrun_net p s).trans (State.does_onTb hs _)
  case ringOverrun => exact fun p => (exec_netRxOverrun_ring p s).trans (State.does_kept hs (s.onBw_keeps _))
  case timedAction => exact fun e => State.does_kept hs (s.taExecute_keeps e.val)

/-! ### The PTP clock identity and class (R142) -/

/-- The EUI-64 of the MAC address of network port `p` (R142). The port is a variable so that the definition unfolds by its equation: the kernel
cannot unfold the constant `Config.ptpClockId` against the sum, for it first tries to compute a sum without variables. -/
def portEui64 (p : Nat) : Nat := Config.netMac p / 2 ^ 24 * 2 ^ 40 + 0xFFFE * 2 ^ 24 + Config.netMac p % 2 ^ 24

theorem ptpClockId_eq_portEui64 : Config.ptpClockId = portEui64 0 := rfl

/-- Fuses that read give the ports' addresses and, last, the clock identity (R500). -/
theorem fuseRead_readable {st : Nat} (h : st ≠ 2) (n : Node) :
    ∃ m : Node, fuseRead st n = (m.put K.NET_MAC ((List.range 2).map Config.netMac)).putN K.PTP_CLOCK_ID Config.ptpClockId :=
  ⟨_, if_neg h⟩

theorem fuseRead_ptpClockId {st : Nat} (h : st ≠ 2) (n : Node) : (fuseRead st n).num K.PTP_CLOCK_ID = Config.ptpClockId := by
  obtain ⟨m, hm⟩ := fuseRead_readable h n
  rw [hm, Node.num_putN_same]

theorem fuseRead_netMac_zero {st : Nat} (h : st ≠ 2) (n : Node) : (fuseRead st n).elem K.NET_MAC 0 = Config.netMac 0 := by
  obtain ⟨m, hm⟩ := fuseRead_readable h n
  rw [hm, Node.putN, Node.elem_put_ne _ _ _ _ _ (by decide), Node.elem, Node.elems_put_same]
  rfl

/-- Away from EXTERNAL the announced class is 248 in every state of the timebase. -/
theorem clockClass_not_external {x : TimeNode} (h : x.1.num K.TB_SOURCE ≠ 2) : clockClass x = 248 := if_neg h

/-- On EXTERNAL the announced class follows the state of the timebase. -/
theorem clockClass_external {x : TimeNode} (h : x.1.num K.TB_SOURCE = 2) :
    clockClass x = if x.2.tb.state = .locked ∨ x.2.tb.state = .acquiring then 6 else if x.2.tb.state = .holdover then 7 else 248 := by
  rw [clockClass, if_pos h]
  cases x.2.tb.state with
  | free => rfl
  | acquiring => rfl
  | locked => rfl
  | holdover => rfl

/-- Settles O59: the identity from what readable fuses give both objects, the class by the time source and the state of the timebase. -/
theorem ptpIdentityAndClass : Obligations.PtpIdentityAndClass := by
  unfold Obligations.PtpIdentityAndClass
  constructor
  · intro st n hst
    rw [fuseRead_ptpClockId hst, fuseRead_netMac_zero hst, ptpClockId_eq_portEui64, portEui64]
  · intro x
    by_cases hsource : x.1.num K.TB_SOURCE = 2
    · simp only [clockClass_external hsource, hsource, true_and]
    · simp only [clockClass_not_external hsource, hsource, false_and, if_false]

end Sys2Proof.Machine

end

/-! ## The sensor inputs (05) -/

section

namespace Sys2Proof.Machine

/-! ### Events of the camera links, the aux port, the trigger pins and the merge arbiter -/

/-- An act on a channel out of reset brings about no device reset. -/
theorem State.does_onUp {s : State} (hs : s.running) (c : Fin 6) (f : Chan → Chan) : s.does (s.onUp c f) = .next (s.onUp c f) :=
  State.does_kept hs (s.onUp_keeps c f)

/-- An act on a channel in service brings about no device reset. -/
theorem State.does_onLive {s : State} (hs : s.running) (c : Fin 6) (f : Chan → Chan) : s.does (s.onLive c f) = .next (s.onLive c f) :=
  State.does_kept hs (s.onLive_keeps c f)

/-- An act on a channel whose clock runs brings about no device reset. -/
theorem State.does_onClocked {s : State} (hs : s.running) (c : Fin 6) (f : Chan → Chan) :
    s.does (s.onClocked c f) = .next (s.onClocked c f) :=
  State.does_kept hs (s.onClocked_keeps c f)

/-- Settles O14: a unit of a channel in service, and an event of a link, leave no device reset due. -/
theorem buarnLinkCommandsComplete : Obligations.BuarnLinkCommandsComplete := by
  unfold Obligations.BuarnLinkCommandsComplete
  intro s hs
  refine ⟨?burst, ?lineEnd, ?triggerAck, ?temperature, ?regData, ?regAck, ?expoAck, ?align, ?decodeError, ?lock, ?lockLoss, ?expoTimeout,
    ?regTimeout, ?alignMissing⟩
  case burst => exact fun c link head tap first tag offset blocks data overrun => State.does_onLive hs c _
  case lineEnd => exact fun c link head tap count crc => State.does_onLive hs c _
  case triggerAck => exact fun c link head overrun num delay => State.does_onLive hs c _
  case temperature => exact fun c link head t => State.does_onLive hs c _
  case regData => exact fun c link tag v => State.does_onLive hs c _
  case regAck => exact fun c link tag result => State.does_onLive hs c _
  case expoAck => exact fun c link head trig result => State.does_onLive hs c _
  case align => exact fun c link bs => State.does_onUp hs c _
  case decodeError => exact fun c link => State.does_onUp hs c _
  case lock => exact fun c l => State.does_onUp hs c _
  case lockLoss => exact fun c l => State.does_onUp hs c _
  case expoTimeout => exact fun c h => State.does_onLive hs c _
  case regTimeout => exact fun c => State.does_onUp hs c _
  case alignMissing => exact fun c link => State.does_onUp hs c _

/-- Settles O15: no packet, edge, time-out or merge pass of a channel leaves a device reset due. -/
theorem otherInputCommandsComplete : Obligations.OtherInputCommandsComplete := by
  unfold Obligations.OtherInputCommandsComplete
  intro s hs
  refine ⟨?stream, ?control, ?expoTimeout, ?auxStart, ?auxEnd, ?pulseEnd, ?gapEnd, ?lineTimeout, ?merge, ?linkUp⟩
  case stream => exact fun c link id u crcOk payload overrun => State.does_onLive hs c _
  case control => exact fun c link p => State.does_onUp hs c _
  case expoTimeout => exact fun c h => State.does_onLive hs c _
  case auxStart => exact fun c level => State.does_onLive hs c _
  case auxEnd => exact fun c level es => State.does_onLive hs c _
  case pulseEnd => exact fun c t => State.does_onUp hs c _
  case gapEnd => exact fun c t => State.does_onUp hs c _
  case lineTimeout => exact fun c h => State.does_onLive hs c _
  case merge => exact fun c => State.does_onClocked hs c _
  case linkUp => exact fun c link => State.does_onUp hs c _

/-! ### Whole values of bytes (R58, R59) -/

/-- Bytes read one at a time are the bytes. -/
theorem map_field_one {bs : List Nat} (h : ∀ b ∈ bs, b < 256) : ((List.range bs.length).map fun i => field bs i 1) = bs := by
  refine List.ext_getElem (by simp) fun i hi hlt => ?_
  simp only [List.getElem_map, List.getElem_range, field, slice, List.drop_eq_getElem_cons hlt, List.take_succ_cons, List.take_zero, ofLe,
    Nat.mul_zero, Nat.add_zero]
  exact Nat.mod_eq_of_lt (h _ (List.getElem_mem hlt))

/-- The object is an ARRAY of `n` one-byte elements, all of whose bits are kept, and `vs` is a whole value in its range (R58, R59). -/
structure ObjInfo.TakesByteArray (row : ObjInfo) (n : Nat) (vs : List Nat) : Prop where
  shape : row.shape = .array n
  keep : row.keep = 0
  size : row.ty.size = 1
  length : vs.length = n
  nonempty : 0 < n
  bytes : ∀ v ∈ vs, v < 256
  inRange : row.chk.ok row vs = true

/-- An ARRAY of bytes written whole. -/
theorem ObjInfo.incoming_byteArray {row : ObjInfo} {n : Nat} {vs : List Nat} (h : row.TakesByteArray n vs) (base : List Nat) :
    row.incoming base none vs = .ok { vals := vs } := by
  obtain ⟨hshape, hkeep, hsize, rfl, hpos, hbytes, hrange⟩ := h
  have hvals : row.decodeVals vs = vs := by
    simp only [ObjInfo.decodeVals, hshape, hsize, Nat.div_one, Nat.min_self, Nat.mul_one, map_field_one hbytes]
  have hcheck : row.checkBytes vs = .ok vs := by
    simp [ObjInfo.checkBytes, ObjInfo.mask, hshape, hsize, hkeep, hvals, hrange]
  simp [ObjInfo.incoming, hcheck, ObjInfo.patched, hshape, List.ne_nil_of_length_pos hpos]

/-- A BLOB or STR of no fixed length, written whole: an empty one carries no element. -/
theorem ObjInfo.incoming_bytes {row : ObjInfo} {data : List Nat} {m : Nat} (hshape : row.shape = .bytes m false false) (hkeep : row.keep = 0)
    (hchk : row.chk = .all) (hlen : data.length ≤ m) (hbytes : ∀ b ∈ data, b < 256) (base : List Nat) :
    row.incoming base none data = .ok { vals := data, hi := if data.isEmpty then 0 else 2 ^ 20 } := by
  have hvals : row.decodeVals data = data := by
    rw [ObjInfo.decodeVals, hshape]
    exact (List.map_congr_left fun b hb => Nat.mod_eq_of_lt (hbytes b hb)).trans (List.map_id' data)
  have hrange : row.chk.ok row data = true := by simp [hchk, Chk.ok, Chk.elemOk, Chk.wholeOk]
  have hcheck : row.checkBytes data = .ok data := by
    simp [ObjInfo.checkBytes, ObjInfo.mask, hshape, hkeep, hvals, hrange, Nat.not_lt.mpr hlen]
  simp [ObjInfo.incoming, hcheck, ObjInfo.patched, ObjInfo.isScalar, hshape]

/-- A range that begins at 0, of an unsigned type, for every element (R59). -/
theorem Chk.within_ok_of_forall {row : ObjInfo} {vs : List Nat} {hi : Nat} (hu : row.ty.signed = false) (h : ∀ v ∈ vs, v ≤ hi) :
    (Chk.within 0 hi).ok row vs = true := by
  simpa [Chk.ok, Chk.elemOk, Chk.wholeOk, ObjInfo.asInt, hu] using h

theorem Chk.oneOf_ok_of_forall {row : ObjInfo} {vs allowed : List Nat} (h : ∀ v ∈ vs, v ∈ allowed) : (Chk.oneOf allowed).ok row vs = true := by
  simpa [Chk.ok, Chk.elemOk, Chk.wholeOk] using h

theorem Chk.all_ok (row : ObjInfo) (vs : List Nat) : Chk.all.ok row vs = true := by
  simp [Chk.ok, Chk.elemOk, Chk.wholeOk]

/-! ### Writes of the objects of a channel -/

/-- An object of a channel lies where the parts of its key, moved to the channel's part of the index, say. -/
theorem place_chan {key : Nat} {row : ObjInfo} (c : Fin 6) (hlo : 0x8000 ≤ key / 256) (hhi : key / 256 < 0x8800)
    (hrow : objInfo key = some row) : place (key / 256 + 0x800 * c.val) (key % 256) = some ⟨some c, key, row⟩ := by
  have hi : (key / 256 + 0x800 * c.val) % 65536 = key / 256 + 0x800 * c.val := Nat.mod_eq_of_lt (by omega)
  have hnot : ¬key / 256 + 0x800 * c.val < 0x8000 := by omega
  have hc : (key / 256 + 0x800 * c.val - 0x8000) / 0x800 = c.val := by omega
  have hk : 256 * (0x8000 + (key / 256 + 0x800 * c.val) % 0x800) + key % 256 = key := by omega
  simp only [place, hi, Nat.mod_mod, hnot, if_false, hc, c.isLt, dif_pos, hk, hrow, Option.map_some, Fin.eta]

/-- The key of an object of a channel other than a correction bank, whose write also ends the bank's prepared state (R511). -/
abbrev IsChanKey (key : Nat) : Prop := 0x8000 ≤ key / 256 ∧ key / 256 < 0x8800 ∧ ¬(key = K.CORR_BANK0 ∨ key = K.CORR_BANK1)

/-- An accepted write of an object of a channel brings about no device reset. -/
theorem State.wrote_keeps (s : State) (c : Fin 6) (key : Nat) (vals : List Nat) (x : Chan) : s.Kept (s.wrote c key vals x) := by
  rw [State.wrote]
  exact s.settle_keeps c _

/-- The command of a write of a whole value: a channel's act leaves no device reset due. -/
theorem State.does_chanWrite {s : State} {via : Via} {c : Fin 6} {key : Nat} {row : ObjInfo} {data vals : List Nat} {w : Written}
    {x : Chan} (ho : s.open_ via c key) (hkey : IsChanKey key) (hrow : objInfo key = some row) (ha : row.acc = .rw ∨ row.acc = .wo)
    (hin : ∀ base, row.incoming base none data = .ok w) (hvals : w.vals = vals) (hact : (s.chan c).act key w = (.ok, x)) :
    s.does (s.viaWrite via (key / 256 + 0x800 * c.val) (key % 256) none data) = .next (s.wrote c key vals x) := by
  subst hvals
  obtain ⟨hs, hears, hanswers, htakes⟩ := ho
  obtain ⟨hlo, hhi, hbank⟩ := hkey
  have hwrote : s.viaWrite via (key / 256 + 0x800 * c.val) (key % 256) none data = s.wrote c key w.vals x :=
    State.viaWrite_chan hears (place_chan c hlo hhi hrow) ha hanswers htakes (by omega) hbank hin hact
  rw [hwrote]
  exact State.does_kept hs (s.wrote_keeps c key w.vals x)

/-- The command of a write of a scalar of a channel. -/
theorem State.does_chanScalar {s : State} {via : Via} {c : Fin 6} {key n v : Nat} {row : ObjInfo} {x : Chan} (ho : s.open_ via c key)
    (hkey : IsChanKey key) (hrow : objInfo key = some row) (ha : row.acc = .rw ∨ row.acc = .wo) (htakes : row.TakesScalar n v)
    (hact : (s.chan c).act key { vals := [v] } = (.ok, x)) : s.does (s.viaChan via c key n v) = .next (s.wrote c key [v] x) :=
  State.does_chanWrite ho hkey hrow ha
    (ObjInfo.incoming_scalar htakes.shape htakes.keep htakes.size htakes.fits htakes.inRange) rfl hact

/-! ### Direct writes of the sensor-input objects (R154, R172, R179, R187, R195) -/

theorem Chan.act_blRegCmd (x : Chan) (w : Written) : x.act K.BL_REG_CMD w = x.regCmdWrite w.v := rfl
theorem Chan.act_cxpCtrlTx (x : Chan) (w : Written) : x.act K.CXP_CTRL_TX w = (.ok, x.cxpSend w.vals) := rfl
theorem Chan.act_cxpCtrlPop (x : Chan) (w : Written) : x.act K.CXP_CTRL_POP w = (.ok, x.cxpPop) := rfl

theorem Chan.act_laneConfig (x : Chan) {key : Nat} (hk : key = K.LANE_ROLE ∨ key = K.LK_LINK_WIDTH ∨ key = K.CXP_SPEED) (w : Written) :
    x.act key w = x.laneConfigWrite key w := if_pos hk

/-- The row of SENSOR_TEMP_SET (R194). -/
def sensorTempRow : ObjInfo := ⟨17, .i16, .scalar, .rw, 0, 0, .all, [0]⟩

theorem sensorTemp_index (h : Nat) : ik K.SENSOR_TEMP_SET h / 256 = 0x8108 + h := Nat.add_mul_div_left _ _ (by decide)
theorem sensorTemp_sub (h : Nat) : ik K.SENSOR_TEMP_SET h % 256 = 0x11 := Nat.add_mul_mod_self_left ..

/-- The table of a head is laid out as that of head 0. -/
theorem baseIndex_head (h : Fin 4) : baseIndex (0x8108 + h.val) = 0x8108 := by decide +revert

theorem objInfo_sensorTemp (h : Fin 4) : objInfo (ik K.SENSOR_TEMP_SET h.val) = some sensorTempRow := by
  rw [objInfo, sensorTemp_index, sensorTemp_sub, baseIndex_head]
  rfl

theorem isChanKey_sensorTemp (h : Fin 4) : IsChanKey (ik K.SENSOR_TEMP_SET h.val) := by
  refine ⟨?_, ?_, ?_⟩
  · rw [sensorTemp_index]; omega
  · rw [sensorTemp_index]; omega
  · simp only [ik, K.SENSOR_TEMP_SET, K.CORR_BANK0, K.CORR_BANK1]; omega

/-- SENSOR_TEMP_SET is none of the lane settings, and its write acts on the head its table belongs to. -/
theorem Chan.act_sensorTemp (x : Chan) (h : Fin 4) (w : Written) :
    x.act (ik K.SENSOR_TEMP_SET h.val) w = (.ok, x.sensorTempSet h.val w.v) := by
  have hlane : ¬(ik K.SENSOR_TEMP_SET h.val = K.LANE_ROLE ∨ ik K.SENSOR_TEMP_SET h.val = K.LK_LINK_WIDTH ∨
      ik K.SENSOR_TEMP_SET h.val = K.CXP_SPEED) := by
    simp only [ik, K.SENSOR_TEMP_SET, K.LANE_ROLE, K.LK_LINK_WIDTH, K.CXP_SPEED]; omega
  simp only [Chan.act, if_neg hlane, sensorTemp_index, sensorTemp_sub, baseIndex_head, and_self, if_true, Nat.add_sub_cancel_left]

/-- The command of a write of LANE_ROLE, LINK_WIDTH or CXP_SPEED, a byte for each of the eight lanes. -/
theorem State.does_laneConfig {s : State} {via : Via} {c : Fin 6} {key : Nat} {row : ObjInfo} {v : List Nat} {x : Chan}
    (ho : s.open_ via c key) (hk : key = K.LANE_ROLE ∨ key = K.LK_LINK_WIDTH ∨ key = K.CXP_SPEED) (hrow : objInfo key = some row)
    (ha : row.acc = .rw) (htakes : row.TakesByteArray 8 v) (hact : (s.chan c).laneConfigWrite key { vals := v } = (.ok, x)) :
    s.does (s.viaWrite via (key / 256 + 0x800 * c.val) (key % 256) none v) = .next (s.wrote c key v x) := by
  have hkey : IsChanKey key := by
    rcases hk with rfl | rfl | rfl
    · decide
    · decide
    · decide
  exact State.does_chanWrite ho hkey hrow (.inl ha) (ObjInfo.incoming_byteArray htakes) rfl (((s.chan c).act_laneConfig hk _).trans hact)

/-- Settles O34: each object's write comes to what its act leaves the channel as. -/
theorem inputWritesComplete : Obligations.InputWritesComplete := by
  unfold Obligations.InputWritesComplete
  intro s _
  refine ⟨?regRead, ?regWrite, ?send, ?pop, ?temperature, ?role, ?width, ?speed⟩
  case regRead =>
    exact fun via c x ho h => State.does_chanScalar ho (by decide) rfl (.inr rfl) ⟨rfl, rfl, rfl, by decide, rfl⟩
      (((s.chan c).act_blRegCmd _).trans h)
  case regWrite =>
    exact fun via c x ho h => State.does_chanScalar ho (by decide) rfl (.inr rfl) ⟨rfl, rfl, rfl, by decide, rfl⟩
      (((s.chan c).act_blRegCmd _).trans h)
  case send =>
    exact fun via c p ho hlen hbytes => State.does_chanWrite ho (by decide) rfl (.inr rfl)
      (ObjInfo.incoming_bytes (m := 1024) rfl rfl rfl hlen hbytes) rfl ((s.chan c).act_cxpCtrlTx _)
  case pop =>
    exact fun via c ho => State.does_chanScalar ho (by decide) rfl (.inr rfl) ⟨rfl, rfl, rfl, by decide, rfl⟩
      ((s.chan c).act_cxpCtrlPop _)
  case temperature =>
    exact fun via c h t ho => State.does_chanScalar ho (isChanKey_sensorTemp h) (objInfo_sensorTemp h) (.inl rfl)
      ⟨rfl, rfl, rfl, toBits_lt 16 t, rfl⟩ ((s.chan c).act_sensorTemp h _)
  case role =>
    intro via c v x ho hlen hlt h
    have hbytes : ∀ r ∈ v, r < 256 := fun r hr => Nat.lt_trans (hlt r hr) (by decide)
    have hle : ∀ r ∈ v, r ≤ 3 := fun r hr => Nat.le_of_lt_succ (hlt r hr)
    exact State.does_laneConfig ho (.inl rfl) rfl rfl
      ⟨rfl, rfl, rfl, hlen, by decide, hbytes, Chk.within_ok_of_forall (hi := 3) rfl hle⟩ h
  case width =>
    exact fun via c v x ho hlen hlt h => State.does_laneConfig ho (.inr (.inl rfl)) rfl rfl
      ⟨rfl, rfl, rfl, hlen, by decide, hlt, Chk.all_ok _ _⟩ h
  case speed =>
    intro via c v x ho hlen hin h
    have hallowed : ∀ a ∈ [1, 2, 3, 5, 6, 10, 12], a < 256 := by decide
    have hbytes : ∀ r ∈ v, r < 256 := fun r hr => hallowed r (hin r hr)
    exact State.does_laneConfig ho (.inr (.inr rfl)) rfl rfl
      ⟨rfl, rfl, rfl, hlen, by decide, hbytes, Chk.oneOf_ok_of_forall hin⟩ h

end Sys2Proof.Machine

end

/-! ## The serial lanes (06) -/

section

namespace Sys2Proof.Machine

/-! ### Events of the lanes (R201-R207, R212, R213) -/

/-- An act of an enabled lane, of a channel or of the common block, brings about no device reset. -/
theorem State.does_laneAct {s : State} (hs : s.running) (r : LaneRef) (f : Nat → LaneNode → LaneNode) :
    s.does (s.laneAct r f) = .next (s.laneAct r f) :=
  State.does_kept hs (s.laneAct_keeps r f)

/-- Settles O16: neither an act of a lane nor the fall of its link, the end of its scan or its trims leaves a device reset due. -/
theorem laneCommandsComplete : Obligations.LaneCommandsComplete := by
  unfold Obligations.LaneCommandsComplete
  intro s hs
  refine ⟨?lock, ?los, ?losEnd, ?lol, ?lolEnd, ?reload, ?window, ?dfe, ?ctle, ?oneShot, ?wander, ?trims, ?ramp, ?syncLoss, ?point, ?syncGain⟩
  case lock => exact fun r freq => State.does_kept hs (s.cdrLock_keeps r freq)
  case los => exact fun r => State.does_kept hs (s.losAssert_keeps r)
  case losEnd => exact fun r => State.does_laneAct hs r _
  case lol => exact fun r freq slips => State.does_kept hs (s.lolAct_keeps r _)
  case lolEnd => exact fun r f1 f2 f3 => State.does_laneAct hs r _
  case reload => exact fun r => State.does_laneAct hs r _
  case window => exact fun r changes idle total compared errors locked => State.does_laneAct hs r _
  case dfe => exact fun r steps => State.does_laneAct hs r _
  case ctle => exact fun r step => State.does_laneAct hs r _
  case oneShot => exact fun r => State.does_laneAct hs r _
  case wander => exact fun r => State.does_laneAct hs r _
  case trims => exact fun r => State.does_kept hs (s.trimUpdate_keeps r)
  case ramp => exact fun r => State.does_kept hs (s.laneTrim_keeps r _)
  case syncLoss => exact fun r bits errors wrong => State.does_laneAct hs r _
  case point => exact fun r errors => State.does_kept hs (s.scanPointDone_keeps r errors)
  case syncGain => exact fun r bits => State.does_laneAct hs r _

/-! ### The objects of a camera lane (R217) -/

theorem cameraKey_index {sub : Nat} (h : sub < 256) (l : Nat) : (cameraKey l + sub) / 256 = 0x8180 + l := by
  unfold cameraKey; omega

theorem cameraKey_sub {sub : Nat} (h : sub < 256) (l : Nat) : (cameraKey l + sub) % 256 = sub := by
  unfold cameraKey; omega

/-- The table of a camera lane is laid out as that of lane 0. -/
theorem baseIndex_camera (l : Fin 8) : baseIndex (0x8180 + l.val) = 0x8180 := by decide +revert

theorem objInfo_camera {sub : Nat} (h : sub < 256) (l : Fin 8) : objInfo (cameraKey l.val + sub) = objInfo (cameraKey 0 + sub) := by
  have hbase : baseIndex (0x8180 + l.val) = baseIndex (0x8180 + 0) := baseIndex_camera l
  simp only [objInfo, cameraKey_index h, cameraKey_sub h, hbase]

theorem isChanKey_camera {sub : Nat} (h : sub < 256) (l : Fin 8) : IsChanKey (cameraKey l.val + sub) := by
  refine ⟨?_, ?_, ?_⟩
  · rw [cameraKey_index h]; omega
  · rw [cameraKey_index h]; omega
  · simp only [cameraKey, K.CORR_BANK0, K.CORR_BANK1]; omega

/-- What a write of ADAPT_MODE (02h), LANE_TEST (15h) or PRBS_CLEAR (1Ch) of a camera lane does: no other object of a channel has its key. -/
theorem Chan.act_camera (x : Chan) (l : Fin 8) {sub : Nat} (h : sub = 2 ∨ sub = 0x15 ∨ sub = 0x1C) (w : Written) :
    x.act (cameraKey l.val + sub) w =
      if sub = 2 then x.adaptModeWrite l.val w.v
      else if sub = 0x15 then x.laneTestWrite l.val w.v
      else (.ok, x.mapN (lanePrbsClear (cameraKey l.val))) := by
  have hsub : sub < 256 := by omega
  have hne : ∀ k < 0x818000, cameraKey l.val + sub ≠ k := by unfold cameraKey; omega
  simp only [Chan.act, hne K.LANE_ROLE (by decide), hne K.LK_LINK_WIDTH (by decide), hne K.CXP_SPEED (by decide),
    hne K.CXP_CTRL_TX (by decide), hne K.CXP_CTRL_POP (by decide), hne K.BL_REG_CMD (by decide), or_self, if_false,
    cameraKey_index hsub, cameraKey_sub hsub, baseIndex_camera, Nat.add_sub_cancel_left]
  rcases h with rfl | rfl | rfl
  · rfl
  · rfl
  · rfl

/-- A camera lane takes a test mode of 0 to 2 (R209). -/
theorem Chan.laneTestWrite_ok (x : Chan) (l : Nat) {v : Nat} (h : v < 3) : x.laneTestWrite l v = (.ok, (x.laneTestWrite l v).2) := by
  refine Prod.ext ?_ rfl
  unfold Chan.laneTestWrite
  rw [if_neg (by omega)]
  extract_lets k was y z u
  split
  next => split <;> rfl
  next => rfl

/-- The command of a write of a scalar of a camera lane; the row is that of lane 0. -/
theorem State.does_cameraScalar {s : State} {via : Via} {c : Fin 6} {l : Fin 8} {key sub n v : Nat} {row : ObjInfo} {x : Chan}
    (ho : s.open_ via c key) (hkey : key = cameraKey l.val + sub) (hsub : sub < 256) (hrow : objInfo (cameraKey 0 + sub) = some row)
    (ha : row.acc = .rw ∨ row.acc = .wo) (htakes : row.TakesScalar n v)
    (hact : (s.chan c).act (cameraKey l.val + sub) { vals := [v] } = (.ok, x)) :
    s.does (s.viaChan via c (cameraKey l.val + sub) n v) = .next (s.wrote c key [v] x) := by
  subst hkey
  exact State.does_chanScalar ho (isChanKey_camera hsub l) ((objInfo_camera hsub l).trans hrow) ha htakes hact

theorem Chan.act_scanCtrl (x : Chan) (w : Written) : x.act 0x818909 w = x.scanCtrl w.v := rfl

/-! ### The objects of the duplex lanes (R217, R218) -/

theorem duplexKey_index {sub : Nat} (h : sub < 256) (d : Nat) : (duplexKey d + sub) / 256 = 0x21F0 + d := by
  unfold duplexKey; omega

theorem duplexKey_sub {sub : Nat} (h : sub < 256) (d : Nat) : (duplexKey d + sub) % 256 = sub := by
  unfold duplexKey; omega

/-- The table of a duplex lane is laid out as that of lane 0. -/
theorem baseIndex_duplex (d : Fin 6) : baseIndex (0x21F0 + d.val) = 0x21F0 := by decide +revert

theorem objInfo_duplex {sub : Nat} (h : sub < 256) (d : Fin 6) : objInfo (duplexKey d.val + sub) = objInfo (duplexKey 0 + sub) := by
  have hbase : baseIndex (0x21F0 + d.val) = baseIndex (0x21F0 + 0) := baseIndex_duplex d
  simp only [objInfo, duplexKey_index h, duplexKey_sub h, hbase]

/-- A write of an object of the duplex tables acts, and the transmit pins follow. -/
theorem State.act_duplexTables {key : Nat} (s : State) (h : 0x21F0 ≤ key / 256 ∧ key / 256 < 0x2200) (w : Written) :
    s.act key w = ((s.duplexAct key w).1, s.duplexPins (s.duplexAct key w).2) := by
  have htime : s.act key w = s.actTime key w := if_pos (by omega)
  rw [htime]
  simp only [State.actTime, netKey, K.DEVIATION_RESET, K.FAILBACK, K.TB_SOURCE, K.TB_SET, K.TB_STEP_ADJ]
  repeat rw [if_neg (by omega)]
  rw [if_pos h]

/-- What a write of ADAPT_MODE (02h), LANE_TEST (15h) or PRBS_CLEAR (1Ch) of a duplex lane does: its index is not the scan engine's or PAT_WORD's. -/
theorem State.duplexAct_lane (s : State) (d : Fin 6) {sub : Nat} (h : sub = 2 ∨ sub = 0x15 ∨ sub = 0x1C) (w : Written) :
    s.duplexAct (duplexKey d.val + sub) w =
      if sub = 2 then s.duplexAdapt d.val w.v
      else if sub = 0x15 then s.duplexTest d.val w.v
      else (.ok, s.onN (lanePrbsClear (duplexKey d.val))) := by
  have hsub : sub < 256 := by omega
  simp only [State.duplexAct, duplexKey_index hsub, duplexKey_sub hsub, Nat.add_sub_cancel_left]
  rw [if_neg (by omega), if_neg (by omega)]
  rcases h with rfl | rfl | rfl
  · rfl
  · rfl
  · rfl

/-- TX_FIR is checked as a whole (R208). -/
theorem State.duplexAct_txFir (s : State) (d : Fin 6) {w : Written} (h : txFirOk w.vals = true) :
    s.duplexAct (duplexKey d.val + 0x21) w = (.ok, s.onN (·.put (duplexKey d.val + 0x21) w.vals)) := by
  simp only [State.duplexAct, duplexKey_index (sub := 0x21) (by decide), duplexKey_sub (sub := 0x21) (by decide)]
  rw [if_neg (by omega), if_neg (by omega), if_pos h]

theorem State.duplexAct_scanCtrl (s : State) (w : Written) : s.duplexAct 0x21F809 w = s.duplexScan w.v := rfl

/-- A duplex lane takes every test mode (R209). -/
theorem State.duplexTest_ok (s : State) (d : Nat) {v : Nat} (h : v < 5) : s.duplexTest d v = (.ok, (s.duplexTest d v).2) := by
  refine Prod.ext ?_ rfl
  unfold State.duplexTest
  rw [if_neg (by omega)]
  extract_lets k was y z u p
  split
  next => rfl
  next => split <;> rfl

/-- The command of a write of a whole value to an object of the duplex tables: none leaves a device reset due. -/
theorem State.does_duplexWrite {s t : State} {via : Via} {key : Nat} {row : ObjInfo} {data : List Nat} {w : Written} (hs : s.running)
    (hv : s.hears (key / 256) via) (hkey : 0x21F0 ≤ key / 256 ∧ key / 256 < 0x2200) (hrow : objInfo key = some row)
    (ha : row.acc = .rw ∨ row.acc = .wo) (hin : ∀ base, row.incoming base none data = .ok w) (hact : s.duplexAct key w = (.ok, t)) :
    s.does (s.viaWrite via (key / 256) (key % 256) none data) = .next (s.duplexPins t) := by
  have hwrite : s.act key w = (.ok, s.duplexPins t) := by rw [s.act_duplexTables hkey, hact]
  have hkept : s.Kept t := by simpa only [hact] using s.duplexAct_keeps key w
  rw [State.viaWrite_common hv (place_common (by omega) hrow) ha (by omega) hin hwrite]
  exact State.does_kept hs (hkept.trans (s.duplexPins_keeps t))

/-- The command of a write of a scalar of the duplex tables. -/
theorem State.does_duplexScalar {s t : State} {via : Via} {key n v : Nat} {row : ObjInfo} (hs : s.running) (hv : s.hears (key / 256) via)
    (hkey : 0x21F0 ≤ key / 256 ∧ key / 256 < 0x2200) (hrow : objInfo key = some row) (ha : row.acc = .rw ∨ row.acc = .wo)
    (htakes : row.TakesScalar n v) (hact : s.duplexAct key { vals := [v] } = (.ok, t)) :
    s.does (s.viaScalar via key n v) = .next (s.duplexPins t) :=
  State.does_duplexWrite hs hv hkey hrow ha
    (ObjInfo.incoming_scalar htakes.shape htakes.keep htakes.size htakes.fits htakes.inRange) hact

/-- The command of a write of a scalar of a duplex lane; the row is that of lane 0. -/
theorem State.does_duplexLane {s t : State} {via : Via} {d : Fin 6} {sub n v : Nat} {row : ObjInfo} (hs : s.running)
    (hv : s.hears (0x21F0 + d.val) via) (hsub : sub < 256) (hrow : objInfo (duplexKey 0 + sub) = some row)
    (ha : row.acc = .rw ∨ row.acc = .wo) (htakes : row.TakesScalar n v)
    (hact : s.duplexAct (duplexKey d.val + sub) { vals := [v] } = (.ok, t)) :
    s.does (s.viaScalar via (duplexKey d.val + sub) n v) = .next (s.duplexPins t) := by
  have hindex : (duplexKey d.val + sub) / 256 = 0x21F0 + d.val := duplexKey_index hsub d.val
  exact State.does_duplexScalar hs (hindex.symm ▸ hv) (by omega) ((objInfo_duplex hsub d).trans hrow) ha htakes hact

/-- The command of a write of TX_FIR, three bytes within the transmitter's limits. -/
theorem State.does_txFir {s : State} {via : Via} {d : Fin 6} {vs : List Nat} (hs : s.running) (hv : s.hears (0x21F0 + d.val) via)
    (hlen : vs.length = 3) (hbytes : ∀ v ∈ vs, v < 256) (h : txFirOk vs = true) :
    s.does (s.viaWrite via (0x21F0 + d.val) 0x21 none vs) =
      .next (s.duplexPins (s.onN (·.put (duplexKey d.val + 0x21) vs))) := by
  have hindex : (duplexKey d.val + 0x21) / 256 = 0x21F0 + d.val := duplexKey_index (by decide) d.val
  have hsub : (duplexKey d.val + 0x21) % 256 = 0x21 := duplexKey_sub (by decide) d.val
  have hrow : objInfo (duplexKey d.val + 0x21) = some ⟨33, .u8, .array 3, .rw, 1, 0, .all, [0, 56, 7]⟩ := objInfo_duplex (by decide) d
  have hdoes := State.does_duplexWrite hs (hindex.symm ▸ hv) (by omega) hrow (.inl rfl)
    (ObjInfo.incoming_byteArray ⟨rfl, rfl, rfl, hlen, by decide, hbytes, Chk.all_ok _ _⟩) (s.duplexAct_txFir d h)
  rwa [hindex, hsub] at hdoes

/-! ### Direct writes of the lanes (R203, R208-R214) -/

theorem adaptMode_eq_cameraKey (l : Nat) : K.ADAPT_MODE + 256 * l = cameraKey l + 2 := Nat.add_right_comm 0x818000 2 _
theorem laneTest_eq_cameraKey (l : Nat) : K.LANE_TEST + 256 * l = cameraKey l + 0x15 := Nat.add_right_comm 0x818000 0x15 _
theorem prbsClear_eq_cameraKey (l : Nat) : K.PRBS_CLEAR + 256 * l = cameraKey l + 0x1C := Nat.add_right_comm 0x818000 0x1C _

/-- Settles O35: each object's write comes to what its act leaves the channel, or the common block and its pins, as. -/
theorem laneWritesComplete : Obligations.LaneWritesComplete := by
  unfold Obligations.LaneWritesComplete
  intro s hs
  refine ⟨?adapt, ?duplexAdapt, ?test, ?duplexTest, ?clear, ?duplexClear, ?txFir, ?scanStart, ?scanAbort, ?duplexScanStart, ?duplexScanAbort⟩
  case adapt =>
    exact fun via c l v ho hlt => State.does_cameraScalar ho (adaptMode_eq_cameraKey l.val) (by decide) rfl (.inl rfl)
      ⟨rfl, rfl, rfl, by omega, Chk.within_ok (hi := 2) rfl (by omega)⟩ ((s.chan c).act_camera l (.inl rfl) _)
  case duplexAdapt =>
    exact fun via d v hv hlt => State.does_duplexLane hs hv (by decide) rfl (.inl rfl)
      ⟨rfl, rfl, rfl, by omega, Chk.within_ok (hi := 2) rfl (by omega)⟩ (s.duplexAct_lane d (.inl rfl) _)
  case test =>
    exact fun via c l v ho hlt => State.does_cameraScalar ho (laneTest_eq_cameraKey l.val) (by decide) rfl (.inl rfl)
      ⟨rfl, rfl, rfl, by omega, Chk.within_ok (hi := 2) rfl (by omega)⟩
      (((s.chan c).act_camera l (.inr (.inl rfl)) _).trans ((s.chan c).laneTestWrite_ok l.val hlt))
  case duplexTest =>
    exact fun via d v hv hlt => State.does_duplexLane hs hv (by decide) rfl (.inl rfl)
      ⟨rfl, rfl, rfl, by omega, Chk.within_ok (hi := 4) rfl (by omega)⟩
      ((s.duplexAct_lane d (.inr (.inl rfl)) _).trans (s.duplexTest_ok d.val hlt))
  case clear =>
    exact fun via c l ho => State.does_cameraScalar ho (prbsClear_eq_cameraKey l.val) (by decide) rfl (.inr rfl)
      ⟨rfl, rfl, rfl, by decide, rfl⟩ ((s.chan c).act_camera l (.inr (.inr rfl)) _)
  case duplexClear =>
    exact fun via d hv => State.does_duplexLane hs hv (by decide) rfl (.inr rfl) ⟨rfl, rfl, rfl, by decide, rfl⟩
      (s.duplexAct_lane d (.inr (.inr rfl)) _)
  case txFir =>
    intro via d pre main post hv hfir
    have hbytes : ∀ v ∈ [pre.val, main.val, post.val], v < 256 := by simp
    exact State.does_txFir hs hv rfl hbytes hfir
  case scanStart =>
    exact fun via c x ho h => State.does_chanScalar ho (by decide) rfl (.inr rfl) ⟨rfl, rfl, rfl, by decide, rfl⟩
      (((s.chan c).act_scanCtrl _).trans h)
  case scanAbort =>
    exact fun via c x ho h => State.does_chanScalar ho (by decide) rfl (.inr rfl) ⟨rfl, rfl, rfl, by decide, rfl⟩
      (((s.chan c).act_scanCtrl _).trans h)
  case duplexScanStart =>
    exact fun via t hv h => State.does_duplexScalar hs hv (by decide) rfl (.inr rfl) ⟨rfl, rfl, rfl, by decide, rfl⟩
      ((s.duplexAct_scanCtrl _).trans h)
  case duplexScanAbort =>
    exact fun via t hv h => State.does_duplexScalar hs hv (by decide) rfl (.inr rfl) ⟨rfl, rfl, rfl, by decide, rfl⟩
      ((s.duplexAct_scanCtrl _).trans h)

end Sys2Proof.Machine

end

/-! ## The pixel pipeline, illumination and the correction banks (07) -/

section

namespace Sys2Proof.Machine

/-! ### Events of the front end, the stitcher and the illumination (R222, R250, R278, R280) -/

/-- Settles O17: neither a line of the front end or the stitcher nor a step or sample of the illumination leaves a device reset due. -/
theorem pixelAndLightCommandsComplete : Obligations.PixelAndLightCommandsComplete := by
  unfold Obligations.PixelAndLightCommandsComplete
  intro s hs
  refine ⟨?headLine, ?outputLine, ?illumination, ?monitor⟩
  case headLine => exact fun c h => State.does_kept hs (State.Kept.ite ⟨rfl, rfl, rfl⟩ (s.frontLine_keeps c h))
  case outputLine => exact fun c late => State.does_onClocked hs c _
  case illumination => exact fun c i => State.does_onUp hs c _
  case monitor => exact fun c i code => State.does_onUp hs c _

/-! ### Writes of a correction bank (R237, R242, R511) -/

/-- The obligation's name for the bank's key is the model's. -/
theorem bankKey_fin (b : Fin 2) : bankKey b.val = if b = 0 then K.CORR_BANK0 else K.CORR_BANK1 := by
  match b with
  | 0 => rfl
  | 1 => rfl

theorem bankKey_isBank (b : Nat) : bankKey b = K.CORR_BANK0 ∨ bankKey b = K.CORR_BANK1 := by
  unfold bankKey
  split
  next => exact .inl rfl
  next => exact .inr rfl

theorem bankKey_index (b : Nat) : bankKey b / 256 = 0x8200 := by
  unfold bankKey
  split <;> rfl

/-- A bank is an RW object, and none of its old bytes stay behind a whole write (R59, R242). -/
theorem ObjInfo.bank_rw_unpatched {b : Fin 2} {row : ObjInfo} (h : objInfo (bankKey b.val) = some row) :
    row.acc = .rw ∧ row.patched = false := by
  match b, h with
  | 0, h => cases h; exact ⟨rfl, rfl⟩
  | 1, h => cases h; exact ⟨rfl, rfl⟩

/-- A whole write of an object that shorter writes do not patch makes its value whatever the old one was (R59). -/
theorem ObjInfo.incoming_unpatched {row : ObjInfo} (h : row.patched = false) (base base' data : List Nat) :
    row.incoming base none data = row.incoming base' none data := by
  simp only [ObjInfo.incoming, h, Bool.false_eq_true, if_false]

theorem Chan.act_bank (x : Chan) (b : Nat) (w : Written) : x.act (bankKey b) w = x.bankWrite (bankKey b) w := by
  unfold bankKey
  split <;> rfl

/-- A bank that is neither in use nor named by a staged write takes its value (R237). -/
theorem Chan.bankWrite_free {x : Chan} {b : Fin 2} (huse : x.bankInUse b.val = false) (hstaged : x.bankStaged b.val = false) (w : Written) :
    x.bankWrite (bankKey b.val) w = (.ok, x.mapN (·.put (bankKey b.val) w.vals)) := by
  have hbank : (if bankKey b.val = K.CORR_BANK0 then 0 else 1) = b.val := by
    match b with
    | 0 => rfl
    | 1 => rfl
  simp only [Chan.bankWrite, hbank, huse, hstaged, Bool.or_self, Bool.false_eq_true, if_false]

/-- A channel that takes the object journals what its act leaves (R360, R368). -/
theorem Chan.direct_taken {x y : Chan} {key : Nat} {acc : Acc} {w : Written} (ht : x.takes key) (ha : acc = .rw ∨ acc = .wo)
    (hact : x.act key w = (.ok, y)) : x.direct key acc w = (.ok, y.dictEntry key w.vals) := by
  have hbusy : (x.replaying && !replayTakes key) = false := by
    rcases ht with h | h
    · rw [h, Bool.false_and]
    · rw [h, Bool.not_true, Bool.and_false]
  rcases ha with rfl | rfl
  · simp only [Chan.direct, hbusy, Bool.false_eq_true, if_false, hact]
  · simp only [Chan.direct, hbusy, Bool.false_eq_true, if_false, hact]

/-- What a write of value `vals` to bank `b` of channel `c` leaves: the bank has the value and is no longer prepared (R237, R511). -/
def State.bankWrote (s : State) (c : Fin 6) (b : Fin 2) (vals : List Nat) : State :=
  (s.wrote c (bankKey b.val) vals ((s.chan c).mapN (·.put (bankKey b.val) vals))).mapN (putPrepared c.val false)

theorem State.bankWrote_keeps (s : State) (c : Fin 6) (b : Fin 2) (vals : List Nat) : s.Kept (s.bankWrote c b vals) :=
  State.Kept.trans (s.wrote_keeps c _ vals _) (State.mapN_keeps _ _)

/-- A direct write of a bank that is free, of a channel that takes it (R237, R511). -/
theorem State.direct_bank {s : State} {c : Fin 6} {b : Fin 2} {row : ObjInfo} (ht : (s.chan c).takes (bankKey b.val)) (ha : row.acc = .rw)
    (huse : (s.chan c).bankInUse b.val = false) (hstaged : (s.chan c).bankStaged b.val = false) (w : Written) :
    s.direct ⟨some c, bankKey b.val, row⟩ w = (.ok, s.bankWrote c b w.vals) := by
  have hact := ((s.chan c).act_bank b.val w).trans (Chan.bankWrite_free huse hstaged w)
  simp only [State.direct, Chan.direct_taken ht (.inl ha) hact, if_pos (bankKey_isBank b.val), State.bankWrote, State.wrote]

/-- A segment of a bank is laid over the bank's bytes (R59, R71). -/
theorem State.writeBase_bank (s : State) {c : Fin 6} {b : Nat} {row : ObjInfo} (ha : row.acc = .rw) :
    s.writeBase ⟨some c, bankKey b, row⟩ = s.valueBytes ⟨some c, bankKey b, row⟩ := by
  have hkey : ¬(bankKey b = K.IC_SRC_CFG ∨ bankKey b = K.C_IC_SRC_CFG) := by
    unfold bankKey
    split <;> decide
  simp only [State.writeBase, ha, if_neg hkey]

theorem place_bank {b : Nat} {row : ObjInfo} (c : Fin 6) (h : objInfo (bankKey b) = some row) :
    place (bankKey b / 256 + 0x800 * c.val) (bankKey b % 256) = some ⟨some c, bankKey b, row⟩ := by
  have hindex := bankKey_index b
  exact place_chan c (by omega) (by omega) h

/-- The command of a write that a bank accepts, by either path, leaves what the write leaves. -/
theorem exec_corrBankWrite_ok {s t : State} {via : Via} {c : Fin 6} {b : Fin 2} {row : ObjInfo} {seg : Option (Nat × Bool)} {data : List Nat}
    (ho : s.open_ via c (bankKey b.val)) (hrow : objInfo (bankKey b.val) = some row)
    (heff : s.barEffect none ⟨some c, bankKey b.val, row⟩ (seg.map fun (o, m) => { off := o, more := m }) data = (.ok, t)) (hkept : s.Kept t) :
    exec (.corrBankWrite via c b seg data) s = .next t := by
  obtain ⟨hs, hears, -, -⟩ := ho
  have hw := State.viaWrite_ok hears (place_bank c hrow) heff
  calc exec (.corrBankWrite via c b seg data) s
    _ = s.does (s.viaWrite via (bankKey b.val / 256 + 0x800 * c.val) (bankKey b.val % 256)
          (seg.map fun (o, m) => { off := o, more := m }) data) := by rw [bankKey_fin]; rfl
    _ = s.does t := by rw [hw]
    _ = .next t := State.does_kept hs hkept

/-- Settles O39: the bank's act puts the value and leaves no device reset due; a segment then opens or closes the segmented write. -/
theorem bankWritesComplete : Obligations.BankWritesComplete := by
  unfold Obligations.BankWritesComplete
  intro s via c b row data w
  simp only [← bankKey_fin]
  intro ho hrow huse hstaged
  have ⟨_, _, hanswers, htakes⟩ := ho
  have ⟨ha, hpatched⟩ := ObjInfo.bank_rw_unpatched hrow
  have h63 : bankKey b.val / 256 ≠ 0x217F := by rw [bankKey_index]; decide
  have hreach := State.reach_answers (key := bankKey b.val) (row := row) hanswers
  have hdirect := State.direct_bank htakes ha huse hstaged w
  refine ⟨?whole, ?segment⟩
  case whole =>
    intro hin
    have hall (base : List Nat) : row.incoming base none data = .ok w :=
      (ObjInfo.incoming_unpatched hpatched base [] data).trans hin
    exact exec_corrBankWrite_ok ho hrow (State.barEffect_whole (.inl ha) h63 hreach hall hdirect) (s.bankWrote_keeps c b w.vals)
  case segment =>
    intro o m hin
    rw [← s.writeBase_bank ha] at hin
    exact exec_corrBankWrite_ok ho hrow (State.barEffect_segment (.inl ha) h63 hreach hin hdirect)
      (State.Kept.trans (s.bankWrote_keeps c b w.vals) (State.setOpenDirect_keeps _ _ _))

end Sys2Proof.Machine

end

/-! ## Segmentation, strikes, the recorder and Retake (10, 11, 12) -/

section

namespace Sys2Proof.Machine

/-! ### Events of segmentation, the record ring, the Cue sheet, the strike pins, the recorder and Retake -/

/-- Settles O18: no line, record, cue, pulse, capture or entry of a channel leaves a device reset due. -/
theorem defectCommandsComplete : Obligations.DefectCommandsComplete := by
  unfold Obligations.DefectCommandsComplete
  intro s hs
  refine ⟨?line, ?record, ?recIrq, ?piece, ?horizon, ?fire, ?limit, ?pulseEnd, ?snapshot, ?postEnd, ?loaded, ?entry⟩
  case line => exact fun c => State.does_onClocked hs c _
  case record => exact fun c => State.does_onUp hs c _
  case recIrq => exact fun c => State.does_onUp hs c _
  case piece => exact fun c => State.does_onClocked hs c _
  case horizon => exact fun c entry => State.does_onUp hs c _
  case fire => exact fun c entry => State.does_onUp hs c _
  case limit => exact fun c entry => State.does_onUp hs c _
  case pulseEnd => exact fun c o => State.does_onUp hs c _
  case snapshot => exact fun c => State.does_onUp hs c _
  case postEnd => exact fun c => State.does_onUp hs c _
  case loaded => exact fun c => State.does_onUp hs c _
  case entry => exact fun c => State.does_onUp hs c _

/-! ### The room of a ring (R318) -/

/-- A ring is full for its writer where the read offset is the one after the next entry: the free bytes are then a multiple of the size. -/
theorem ringFree_ringNext (size wr esz : Nat) : ringFree size wr (ringNext size wr esz) esz = 0 := by
  unfold ringFree ringNext
  split
  next => rfl
  next =>
    have hsplit : (wr + esz) % size + 2 * size - wr - esz = size * (2 - (wr + esz) / size) := by
      have hdiv := Nat.div_add_mod (wr + esz) size
      rw [Nat.mul_sub]
      omega
    rw [hsplit, Nat.mul_mod_right]

/-- The entry that a ring has room for leaves the write offset unequal to the read offset. -/
theorem ringNext_ne_of_ringRoom {held : Bool} {size wr rd esz : Nat} (he : 0 < esz) (h : ringRoom held size wr rd esz = true) :
    ringNext size wr esz ≠ rd := by
  rintro rfl
  simp only [ringRoom, ringFree_ringNext, Bool.and_eq_true, decide_eq_true_eq] at h
  omega

theorem not_held_of_ringRoom {held : Bool} {size wr rd esz : Nat} (h : ringRoom held size wr rd esz = true) : held = false := by
  simp only [ringRoom, Bool.and_eq_true, Bool.not_eq_true'] at h
  exact h.1.1

/-- Settles O55: were the write offset to meet the read offset, the ring would have had no byte free. -/
theorem recordRingKeepsItsGap : Obligations.RecordRingKeepsItsGap := by
  unfold Obligations.RecordRingKeepsItsGap
  intro held size wr rd _ hsize _ _ _ _ hroom
  have hnext : ringNext size wr 64 = (wr + 64) % size := if_neg (Nat.ne_of_gt hsize)
  exact ⟨not_held_of_ringRoom hroom, hnext ▸ ringNext_ne_of_ringRoom (by decide) hroom⟩

/-! ### Acts of the strike, recorder and Retake objects -/

theorem Chan.act_openSnap (x : Chan) (w : Written) : x.act K.OPEN_SNAP w = x.openSnapWrite := rfl
theorem Chan.act_stkEnable (x : Chan) (w : Written) : x.act K.STK_ENABLE w = (.ok, x.strikeEnable w.v) := rfl
theorem Chan.act_cueSnap (x : Chan) (w : Written) : x.act K.CUE_SNAP w = x.cueSnapWrite := rfl
theorem Chan.act_freezeNow (x : Chan) (w : Written) : x.act K.FREEZE_NOW w = (.ok, x.freeze 0) := rfl
theorem Chan.act_retakeCtrl (x : Chan) (w : Written) : x.act K.RETAKE_CTRL w = x.retakeCtrl w.v := rfl

/-- Outside Retake a freeze is released (R364). -/
theorem Chan.act_freezeRelease {x : Chan} (h : x.n.num K.RETAKE_STATE = 0) (w : Written) :
    x.act K.FREEZE_RELEASE w = (.ok, x.freezeRelease) := if_neg (not_not_intro h)

/-! ### The objects of a check unit (R374) -/

/-- The row of K_TEST (R374). -/
def kTestRow : ObjInfo := ⟨12, .u8, .scalar, .wo, 0, 0, .oneOf [1], []⟩

theorem kTest_index (k : Nat) : ik K.K_TEST k / 256 = 0x8588 + k := Nat.add_mul_div_left _ _ (by decide)
theorem kTest_sub (k : Nat) : ik K.K_TEST k % 256 = 0x0C := Nat.add_mul_mod_self_left ..

/-- The table of a check unit is laid out as that of unit 0. -/
theorem baseIndex_checkUnit (k : Fin 8) : baseIndex (0x8588 + k.val) = 0x8588 := by decide +revert

theorem objInfo_kTest (k : Fin 8) : objInfo (ik K.K_TEST k.val) = some kTestRow := by
  rw [objInfo, kTest_index, kTest_sub, baseIndex_checkUnit]
  rfl

theorem isChanKey_kTest (k : Fin 8) : IsChanKey (ik K.K_TEST k.val) := by
  refine ⟨?_, ?_, ?_⟩
  · rw [kTest_index]; omega
  · rw [kTest_index]; omega
  · simp only [ik, K.K_TEST, K.CORR_BANK0, K.CORR_BANK1]; omega

/-- K_TEST lies above every object that has an act of its own before it, and its write acts on the unit its table belongs to. -/
theorem Chan.act_kTest (x : Chan) (k : Fin 8) (w : Written) : x.act (ik K.K_TEST k.val) w = (.ok, x.kTest k.val) := by
  have hne : ∀ j < 0x858800, ik K.K_TEST k.val ≠ j := by simp only [ik, K.K_TEST]; omega
  simp only [Chan.act, hne K.LANE_ROLE (by decide), hne K.LK_LINK_WIDTH (by decide), hne K.CXP_SPEED (by decide),
    hne K.CXP_CTRL_TX (by decide), hne K.CXP_CTRL_POP (by decide), hne K.BL_REG_CMD (by decide), hne (0x818900 + 9) (by decide),
    hne K.CORR_BANK0 (by decide), hne K.CORR_BANK1 (by decide), hne K.OPEN_SNAP (by decide), hne K.STK_ENABLE (by decide),
    hne K.CUE_SNAP (by decide), hne K.FREEZE_NOW (by decide), hne K.FREEZE_RELEASE (by decide), hne K.RETAKE_CTRL (by decide),
    or_self, if_false, kTest_index, kTest_sub, baseIndex_checkUnit, Nat.add_sub_cancel_left]
  rfl

/-! ### Writes of an object with reserved bits (R8) -/

/-- A scalar written whole whose bits above the low `m` are reserved keeps the low `m`. -/
theorem ObjInfo.incoming_lowBits {row : ObjInfo} {n m v : Nat} (hshape : row.shape = .scalar) (hsize : row.ty.size = n)
    (hfits : v < 256 ^ n) (hkeep : row.keep = 2 ^ m - 1) (hm : 0 < m) (hwidth : m ≤ row.ty.width)
    (hrange : row.chk.ok row [v % 2 ^ m] = true) (base : List Nat) :
    row.incoming base none (leBytes n v) = .ok { vals := [v % 2 ^ m] } := by
  have htwo : 2 ≤ 2 ^ m := Nat.le_self_pow (Nat.ne_of_gt hm) 2
  have hle : 2 ^ m ≤ 2 ^ row.ty.width := Nat.pow_le_pow_right (by decide) hwidth
  have hvals : row.decodeVals (leBytes n v) = [v] := by
    rw [ObjInfo.decodeVals, hshape]
    simp only [hsize, List.take_of_length_le (Nat.le_of_eq (leBytes_length n v)), ofLe_leBytes n v hfits]
  have hland : Nat.land v (2 ^ m - 1) = v % 2 ^ m := Nat.and_two_pow_sub_one_eq_mod v m
  have hmask : row.mask [v] = [v % 2 ^ m] := by
    simp only [ObjInfo.mask, hkeep]
    rw [if_neg (by omega), if_pos (by omega), List.map_singleton, hland]
  have hcheck : row.checkBytes (leBytes n v) = .ok [v % 2 ^ m] := by
    simp only [ObjInfo.checkBytes, hshape, hsize, leBytes_length, if_true, hvals, hmask, hrange]
  simp [ObjInfo.incoming, hcheck, ObjInfo.patched, ObjInfo.isScalar, hshape]

/-! ### Direct writes of the segmentation, strike, recorder, Retake and check objects (R303, R329, R350, R364, R366, R368, R372) -/

/-- Settles O36: each object's write comes to what its act leaves the channel as. -/
theorem defectWritesComplete : Obligations.DefectWritesComplete := by
  unfold Obligations.DefectWritesComplete
  intro s _
  refine ⟨?openSnap, ?strikes, ?cueSnap, ?freeze, ?release, ?retakeStart, ?retakeAbort, ?retakeExit, ?check⟩
  case openSnap =>
    exact fun via c x ho h => State.does_chanScalar ho (by decide) rfl (.inr rfl) ⟨rfl, rfl, rfl, by decide, rfl⟩
      (((s.chan c).act_openSnap _).trans h)
  case strikes =>
    exact fun via c v ho hlt => State.does_chanWrite ho (by decide) rfl (.inl rfl)
      (ObjInfo.incoming_lowBits (m := 4) rfl rfl (by omega) rfl (by decide) (by decide) (Chk.all_ok _ _)) rfl ((s.chan c).act_stkEnable _)
  case cueSnap =>
    exact fun via c x ho h => State.does_chanScalar ho (by decide) rfl (.inr rfl) ⟨rfl, rfl, rfl, by decide, rfl⟩
      (((s.chan c).act_cueSnap _).trans h)
  case freeze =>
    exact fun via c ho => State.does_chanScalar ho (by decide) rfl (.inr rfl) ⟨rfl, rfl, rfl, by decide, rfl⟩
      ((s.chan c).act_freezeNow _)
  case release =>
    exact fun via c ho h => State.does_chanScalar ho (by decide) rfl (.inr rfl) ⟨rfl, rfl, rfl, by decide, rfl⟩
      (Chan.act_freezeRelease h _)
  case retakeStart =>
    exact fun via c x ho h => State.does_chanScalar ho (by decide) rfl (.inr rfl) ⟨rfl, rfl, rfl, by decide, rfl⟩
      (((s.chan c).act_retakeCtrl _).trans h)
  case retakeAbort =>
    exact fun via c ho => State.does_chanScalar ho (by decide) rfl (.inr rfl) ⟨rfl, rfl, rfl, by decide, rfl⟩
      ((s.chan c).act_retakeCtrl _)
  case retakeExit =>
    exact fun via c ho => State.does_chanScalar ho (by decide) rfl (.inr rfl) ⟨rfl, rfl, rfl, by decide, rfl⟩
      ((s.chan c).act_retakeCtrl _)
  case check =>
    exact fun via c k ho => State.does_chanScalar ho (isChanKey_kTest k) (objInfo_kTest k) (.inr rfl) ⟨rfl, rfl, rfl, by decide, rfl⟩
      ((s.chan c).act_kTest k _)

end Sys2Proof.Machine

end

/-! ## The channel memory (13) -/

section

namespace Sys2Proof.Machine

/-! ### Events of the memory controller (R380-R394) -/

/-- An act on a channel, in reset or not, brings about no device reset. -/
theorem State.does_onChan {s : State} (hs : s.running) (c : Fin 6) (f : Chan → Chan) : s.does (s.onChan c f) = .next (s.onChan c f) :=
  State.does_kept hs (s.onChan_keeps c f)

/-- Settles O19: no act of a memory controller leaves a device reset due, and the WCK2DQ update is no act on the state. -/
theorem memoryCommandsComplete : Obligations.MemoryCommandsComplete := by
  unfold Obligations.MemoryCommandsComplete
  intro s hs
  refine ⟨?request, ?access, ?slot, ?burst, ?mr4, ?wck2dq, ?srEntry, ?srCommit, ?srExit, ?freqDone, ?trainDone, ?pllLoss, ?refDone⟩
  case request => exact fun c cls tag write addr len bytes => State.does_onChan hs c _
  case access => exact fun c sub j => State.does_onChan hs c _
  case slot => exact fun c i => State.does_onChan hs c _
  case burst => exact fun c i => State.does_onChan hs c _
  case mr4 => exact fun c vals => State.does_onChan hs c _
  case wck2dq => exact fun c => State.does_unchanged hs
  case srEntry => exact fun c => State.does_onChan hs c _
  case srCommit => exact fun c => State.does_onChan hs c _
  case srExit => exact fun c vals => State.does_onChan hs c _
  case freqDone => exact fun c vals => State.does_onChan hs c _
  case trainDone => exact fun c fail => State.does_onChan hs c _
  case pllLoss => exact fun c => State.does_onChan hs c _
  case refDone => exact fun c i => State.does_onChan hs c _

/-! ### Acts of the control objects of the memory (R387, R388, R392-R394) -/

theorem Chan.act_srTest (x : Chan) (w : Written) : x.act K.SR_TEST w = x.srTestWrite w.v := rfl
theorem Chan.act_freqSwitch (x : Chan) (w : Written) : x.act K.FREQ_SWITCH w = x.freqSwitchWrite := rfl
theorem Chan.act_memTrain (x : Chan) (w : Written) : x.act K.MEM_TRAIN w = x.memTrainWrite := rfl
theorem Chan.act_nbrSeed (x : Chan) (w : Written) : x.act K.NBR_SEED w = x.nbrSeedWrite w.v := rfl

theorem Chan.freqSwitchWrite_ok {x : Chan} (hrate : x.rateOk (1 - x.n.num K.ACTIVE_SET) = true) (hst : x.memState = 2 ∨ x.memState = 4) :
    x.freqSwitchWrite = (.ok, x.freqStart) := by
  have hfree : ¬(x.memState ≠ 2 ∧ x.memState ≠ 4) := by omega
  simp only [Chan.freqSwitchWrite, hrate, Bool.true_eq_false, if_false, if_neg hfree]

theorem Chan.memTrainWrite_ok {x : Chan} (hst : x.memState = 2 ∨ x.memState = 7) : x.memTrainWrite = (.ok, x.trainStart) :=
  if_neg (by omega)

/-- A range of an unsigned type, whatever its lower end (R59). -/
theorem Chk.within_ok_of_le {row : ObjInfo} {v : Nat} {lo hi : Int} (hu : row.ty.signed = false) (hlo : lo ≤ v) (hhi : v ≤ hi) :
    (Chk.within lo hi).ok row [v] = true := by
  simp [Chk.ok, Chk.elemOk, Chk.wholeOk, ObjInfo.asInt, hu, hlo, hhi]

/-! ### The objects of a timing set (R391, R395) -/

theorem Chan.setKey_index (a : Nat) (k : Fin 256) : Chan.setKey a k.val / 256 = 0x8608 + a := by unfold Chan.setKey; omega
theorem Chan.setKey_sub (a : Nat) (k : Fin 256) : Chan.setKey a k.val % 256 = k.val := by unfold Chan.setKey; omega

/-- The table of timing set B is laid out as that of set A. -/
theorem baseIndex_timingSet (a : Fin 2) : baseIndex (0x8608 + a.val) = 0x8608 := by decide +revert

theorem isChanKey_timingSet (a : Fin 2) (k : Fin 256) : IsChanKey (Chan.setKey a.val k.val) := by
  refine ⟨?_, ?_, ?_⟩
  · rw [Chan.setKey_index]; omega
  · rw [Chan.setKey_index]; omega
  · simp only [Chan.setKey, K.CORR_BANK0, K.CORR_BANK1]; omega

/-- The object of a subindex other than 00 is a row of the table of the sets. -/
theorem mem_rows8608_of_objInfo {a : Fin 2} {k : Fin 256} {row : ObjInfo} (hk : k.val ≠ 0)
    (h : objInfo (Chan.setKey a.val k.val) = some row) : row ∈ rows8608 := by
  have hrows : rowsAt 0x8608 = rows8608 := rfl
  rw [objInfo, Chan.setKey_index, Chan.setKey_sub, baseIndex_timingSet, if_neg hk, hrows] at h
  exact List.mem_of_find?_eq_some h

/-- No shorter write patches an object of a timing set: each is a scalar or an ARRAY (R59). -/
theorem rows8608_unpatched : ∀ row ∈ rows8608, row.patched = false := by decide

/-- The timing sets lie above every object that has an act of its own before them. -/
theorem Chan.act_timingSet (x : Chan) (a : Fin 2) (k : Fin 256) (w : Written) :
    x.act (Chan.setKey a.val k.val) w = x.timingWrite (Chan.setKey a.val k.val) w := by
  have hne : ∀ j < 0x860800, Chan.setKey a.val k.val ≠ j := by unfold Chan.setKey; omega
  simp (disch := decide) only [Chan.act, hne, or_self, Chan.setKey_index, baseIndex_timingSet, Nat.reduceEqDiff, false_and, if_false,
    if_true]

/-- An object of the inactive set takes its value, and the set is untrained (R391). -/
theorem Chan.act_inactiveSet {x : Chan} {a : Fin 2} (h : a.val ≠ x.n.num K.ACTIVE_SET) (k : Fin 256) (w : Written) :
    x.act (Chan.setKey a.val k.val) w = (.ok, x.mapN fun n => (n.put (Chan.setKey a.val k.val) w.vals).putN (Chan.setKey a.val 5) 0) := by
  simp only [Chan.act_timingSet, Chan.timingWrite, Chan.setKey_index, Nat.add_sub_cancel_left, if_neg h]

/-! ### Direct writes of the channel-memory objects -/

/-- A direct write of an object that the channel takes, a bank aside (R37, R360). -/
theorem State.direct_chan {s : State} {c : Fin 6} {key : Nat} {row : ObjInfo} {w : Written} {x : Chan} (ht : (s.chan c).takes key)
    (hkey : IsChanKey key) (ha : row.acc = .rw ∨ row.acc = .wo) (hact : (s.chan c).act key w = (.ok, x)) :
    s.direct ⟨some c, key, row⟩ w = (.ok, s.wrote c key w.vals x) := by
  obtain ⟨-, -, hbank⟩ := hkey
  simp only [State.direct, Chan.direct_taken ht ha hact, if_neg hbank, State.wrote]

/-- A segment of an RW object is laid over the object's bytes, the interrupt sources aside (R59). -/
theorem State.writeBase_rw (s : State) {p : Place} (ha : p.row.acc = .rw) (hkey : ¬(p.key = K.IC_SRC_CFG ∨ p.key = K.C_IC_SRC_CFG)) :
    s.writeBase p = s.valueBytes p := by
  simp only [State.writeBase, ha, if_neg hkey]

/-- The command of a write of a segment of an RW object of a channel opens or closes the object's segmented write behind it (R71). -/
theorem State.does_chanSegment {s : State} {via : Via} {c : Fin 6} {key : Nat} {row : ObjInfo} {x : Segment} {data : List Nat}
    {w : Written} {y : Chan} (ho : s.open_ via c key) (hkey : IsChanKey key) (hsrc : key ≠ K.C_IC_SRC_CFG) (hrow : objInfo key = some row)
    (ha : row.acc = .rw) (hin : row.incoming (s.valueBytes ⟨some c, key, row⟩) (some x) data = .ok w)
    (hact : (s.chan c).act key w = (.ok, y)) :
    s.does (s.viaWrite via (key / 256 + 0x800 * c.val) (key % 256) (some x) data) =
      .next ((s.wrote c key w.vals y).setOpenDirect ⟨some c, key, row⟩ x.more) := by
  obtain ⟨hs, hears, hanswers, htakes⟩ := ho
  have ⟨hlo, hhi, _⟩ := hkey
  have hcommon : key ≠ K.IC_SRC_CFG := by rintro rfl; exact absurd hlo (by decide)
  rw [← s.writeBase_rw (p := ⟨some c, key, row⟩) ha (by simp [hcommon, hsrc])] at hin
  have heff := State.barEffect_segment (p := ⟨some c, key, row⟩) (.inl ha) (show key / 256 ≠ 0x217F by omega)
    (State.reach_answers hanswers) hin (State.direct_chan htakes hkey (.inl ha) hact)
  rw [State.viaWrite_ok hears (place_chan c hlo hhi hrow) heff]
  exact State.does_kept hs (State.Kept.trans (s.wrote_keeps c key w.vals y) (State.setOpenDirect_keeps _ _ _))

theorem exec_timingSetWrite (via : Via) (c : Fin 6) (a : Fin 2) (k : Fin 256) (seg : Option (Nat × Bool)) (data : List Nat) (s : State) :
    exec (.timingSetWrite via c a k seg data) s =
      s.does (s.viaWrite via (Chan.setKey a.val k.val / 256 + 0x800 * c.val) (Chan.setKey a.val k.val % 256)
        (seg.map fun (o, m) => { off := o, more := m }) data) := by
  rw [Chan.setKey_index, Chan.setKey_sub]
  rfl

/-- Settles O37: each object's write comes to what its act leaves the channel as. -/
theorem memoryWritesComplete : Obligations.MemoryWritesComplete := by
  unfold Obligations.MemoryWritesComplete
  intro s _
  refine ⟨?srEnter, ?srLeave, ?freqSwitch, ?train, ?seed, ?whole, ?segment⟩
  case srEnter =>
    exact fun via c ho => State.does_chanScalar ho (by decide) rfl (.inr rfl) ⟨rfl, rfl, rfl, by decide, rfl⟩ ((s.chan c).act_srTest _)
  case srLeave =>
    exact fun via c ho => State.does_chanScalar ho (by decide) rfl (.inr rfl) ⟨rfl, rfl, rfl, by decide, rfl⟩ ((s.chan c).act_srTest _)
  case freqSwitch =>
    exact fun via c ho hrate hst => State.does_chanScalar ho (by decide) rfl (.inr rfl) ⟨rfl, rfl, rfl, by decide, rfl⟩
      (((s.chan c).act_freqSwitch _).trans (Chan.freqSwitchWrite_ok hrate hst))
  case train =>
    exact fun via c ho hst => State.does_chanScalar ho (by decide) rfl (.inr rfl) ⟨rfl, rfl, rfl, by decide, rfl⟩
      (((s.chan c).act_memTrain _).trans (Chan.memTrainWrite_ok hst))
  case seed =>
    exact fun via c v ho hpos hlt => State.does_chanScalar ho (by decide) rfl (.inl rfl)
      ⟨rfl, rfl, rfl, hlt, Chk.within_ok_of_le rfl (by omega) (by omega)⟩ ((s.chan c).act_nbrSeed _)
  case whole =>
    intro via c a k row data w ho hk hrow ha hin hinactive
    have hunpatched := rows8608_unpatched row (mem_rows8608_of_objInfo hk hrow)
    have hall (base : List Nat) := (ObjInfo.incoming_unpatched hunpatched base [] data).trans hin
    rw [exec_timingSetWrite]
    exact State.does_chanWrite ho (isChanKey_timingSet a k) hrow (.inl ha) hall rfl (Chan.act_inactiveSet hinactive k w)
  case segment =>
    intro via c a k row o m data w ho hk hrow ha hin hinactive
    have hsrc : Chan.setKey a.val k.val ≠ K.C_IC_SRC_CFG := by unfold Chan.setKey K.C_IC_SRC_CFG; omega
    rw [exec_timingSetWrite]
    exact State.does_chanSegment ho (isChanKey_timingSet a k) hsrc hrow ha hin (Chan.act_inactiveSet hinactive k w)

/-! ### What an occurrence of a source leaves: the objects of the unit (R463, R485, R486) -/

/-- The parts of a unit that neither an occurrence of a source nor a log record changes. -/
def Node.fixed (n : Node) : Store × Bool × Nat := (n.objs, n.chan, n.origin)

theorem Node.hand_fixed (n : Node) (r : LogRec) : (n.hand r).fixed = n.fixed := by
  unfold Node.hand
  split
  · rfl
  · rfl

theorem Node.log_fixed (n : Node) (kind code arg : Nat) : (n.log kind code arg).fixed = n.fixed := n.hand_fixed _

theorem Node.trace_fixed (n : Node) (s : Nat) : (n.trace s).fixed = n.fixed := by
  unfold Node.trace
  split
  case isFalse => rfl
  case isTrue =>
    split
    · rfl
    · exact Node.log_fixed _ 0 s 0

theorem Node.occur_fixed (n : Node) (s : Nat) : (n.occur s).fixed = n.fixed := Node.trace_fixed _ s

/-- Setting a flag changes the flag's object alone. -/
theorem Node.setFlag_fixed (n : Node) (k b : Nat) : (n.setFlag k b).fixed = (n.putN k (setBit (n.num k) b)).fixed := by
  unfold Node.setFlag Node.putFlags
  split
  next s _ =>
    split
    · exact Node.occur_fixed _ s
    · rfl
  next => rfl

theorem Node.num_of_fixed {n m : Node} (h : n.fixed = m.fixed) (k : Nat) : n.num k = m.num k := by
  have hobjs : n.objs = m.objs := congrArg Prod.fst h
  simp only [Node.num, Node.elem, Node.elems, hobjs]

theorem Node.num_setFlag_same (n : Node) (k b : Nat) : (n.setFlag k b).num k = setBit (n.num k) b :=
  (Node.num_of_fixed (n.setFlag_fixed k b) k).trans (n.num_putN_same k _)

theorem Node.num_setFlag_ne (n : Node) {k i : Nat} (b : Nat) (h : i ≠ k) : (n.setFlag k b).num i = n.num i :=
  (Node.num_of_fixed (n.setFlag_fixed k b) i).trans (n.num_putN_ne k i _ h)

theorem Node.setFlag_chan (n : Node) (k b : Nat) : (n.setFlag k b).chan = n.chan :=
  congrArg (fun x : Store × Bool × Nat => x.2.1) (n.setFlag_fixed k b)

theorem Node.setFlag_origin (n : Node) (k b : Nat) : (n.setFlag k b).origin = n.origin :=
  congrArg (fun x : Store × Bool × Nat => x.2.2) (n.setFlag_fixed k b)

theorem bit_setBit (n i : Nat) : bit (setBit n i) i = true := by
  unfold setBit
  split
  case isTrue h => exact h
  case isFalse h =>
    have hodd : ¬n / 2 ^ i % 2 = 1 := by simpa [bit] using h
    have hnext : (n + 2 ^ i) / 2 ^ i = n / 2 ^ i + 1 := Nat.add_div_right n (Nat.two_pow_pos i)
    simp only [bit, hnext, beq_iff_eq]
    omega

theorem Node.bitOf_setFlag_same (n : Node) (k b : Nat) : (n.setFlag k b).bitOf k b = true := by
  rw [Node.bitOf, Node.num_setFlag_same, bit_setBit]

/-- A counter counts in its own object. -/
theorem Node.num_inc_same (n : Node) (k : Nat) : (n.inc k).num k = (n.num k + 1) % 2 ^ 32 := n.num_putN_same k _

theorem Node.num_inc_ne (n : Node) {k i : Nat} (h : i ≠ k) : (n.inc k).num i = n.num i := n.num_putN_ne k i _ h

/-! ### A request out of range (R379) -/

/-- ADDR_ERR_ADDR takes the address of a request out of range, unless ADDR_ERR is set. -/
def Node.takeBadAddr (n : Node) (addr : Nat) : Node := if n.bitOf K.MEM_FLAGS 1 then n else n.putN K.ADDR_ERR_ADDR addr

theorem Chan.memBadAddr_n (c : Chan) (addr : Nat) :
    (c.memBadAddr addr).n = ((c.n.takeBadAddr addr).inc K.ADDR_ERR_COUNT).setFlag K.MEM_FLAGS 1 := rfl

@[simp] theorem Chan.memBadAddr_mem (c : Chan) (addr : Nat) : (c.memBadAddr addr).mem = c.mem := rfl

theorem Node.num_takeBadAddr (n : Node) (addr : Nat) :
    (n.takeBadAddr addr).num K.ADDR_ERR_ADDR = if n.bitOf K.MEM_FLAGS 1 then n.num K.ADDR_ERR_ADDR else addr := by
  unfold Node.takeBadAddr
  split
  · rfl
  · exact n.num_putN_same _ _

theorem Node.num_takeBadAddr_ne (n : Node) (addr : Nat) {i : Nat} (h : i ≠ K.ADDR_ERR_ADDR) : (n.takeBadAddr addr).num i = n.num i := by
  unfold Node.takeBadAddr
  split
  · rfl
  · exact n.num_putN_ne _ i _ h

theorem Node.takeBadAddr_chan (n : Node) (addr : Nat) : (n.takeBadAddr addr).chan = n.chan := by
  unfold Node.takeBadAddr
  split
  · rfl
  · rfl

theorem Node.takeBadAddr_origin (n : Node) (addr : Nat) : (n.takeBadAddr addr).origin = n.origin := by
  unfold Node.takeBadAddr
  split
  · rfl
  · rfl

theorem Chan.memBadAddr_flag (c : Chan) (addr : Nat) : (c.memBadAddr addr).n.bitOf K.MEM_FLAGS 1 = true := by
  rw [Chan.memBadAddr_n, Node.bitOf_setFlag_same]

theorem Chan.memBadAddr_count (c : Chan) (addr : Nat) :
    (c.memBadAddr addr).n.num K.ADDR_ERR_COUNT = (c.n.num K.ADDR_ERR_COUNT + 1) % 2 ^ 32 := by
  rw [Chan.memBadAddr_n, Node.num_setFlag_ne _ _ (by decide), Node.num_inc_same, Node.num_takeBadAddr_ne _ _ (by decide)]

theorem Chan.memBadAddr_addr (c : Chan) (addr : Nat) :
    (c.memBadAddr addr).n.num K.ADDR_ERR_ADDR = if c.n.bitOf K.MEM_FLAGS 1 then c.n.num K.ADDR_ERR_ADDR else addr := by
  rw [Chan.memBadAddr_n, Node.num_setFlag_ne _ _ (by decide), Node.num_inc_ne _ (by decide), Node.num_takeBadAddr]

theorem Chan.memBadAddr_chan (c : Chan) (addr : Nat) : (c.memBadAddr addr).n.chan = c.n.chan := by
  rw [Chan.memBadAddr_n, Node.setFlag_chan]
  exact c.n.takeBadAddr_chan addr

theorem Chan.memBadAddr_num (c : Chan) (addr : Nat) : (c.memBadAddr addr).num = c.num := by
  rw [Chan.num, Chan.memBadAddr_n, Node.setFlag_origin]
  exact congrArg (· - 1) (c.n.takeBadAddr_origin addr)

/-- Source 122 of a channel is ADDR_ERR (R395). -/
theorem Node.pending_addrErr {n : Node} (h : n.chan = true) : n.pending 122 = n.bitOf K.MEM_FLAGS 1 := by
  have hlevel : n.level 122 = some (K.MEM_FLAGS, some 1) := by rw [Node.level, h]; rfl
  simp only [Node.pending, hlevel]

theorem Chan.memStatus_beyond {c : Chan} {addr len : Nat} (hup : c.memUp = true) (hlen : len ≠ 0) (h : c.memSize < addr + len) :
    c.memStatus addr len = 1 := by
  simp only [Chan.memStatus, hup, Bool.true_eq_false, if_false, ne_eq, hlen, not_false_eq_true, h, and_self, if_true]

theorem Chan.memStatus_within {c : Chan} {addr len : Nat} (hup : c.memUp = true) (h : addr + len ≤ c.memSize) :
    c.memStatus addr len = 0 := by
  simp only [Chan.memStatus, hup, Bool.true_eq_false, if_false, Nat.not_lt.mpr h, and_false]

/-- A request beyond the capacity is recorded and answered ADDR. -/
theorem Chan.memGrant_beyond {c : Chan} {r : MemReq} (h : c.memStatus r.addr r.len = 1) (htag : r.tag < 65536) :
    c.memGrant r =
      (c.memBadAddr r.addr).mapN (·.emit (.memResp c.num r.tag 1 (if r.write then [] else zeros r.len))) := by
  simp only [Chan.memGrant, h, if_true, Chan.memAnswer, if_pos htag, Chan.memBadAddr_num]

/-- Settles O52: the request is recorded, then answered, and neither touches the memory. -/
theorem writersOutOfCapacityAreRefused : Obligations.WritersOutOfCapacityAreRefused := by
  unfold Obligations.WritersOutOfCapacityAreRefused
  intro c r hup hlen hbeyond htag
  rw [Chan.memGrant_beyond (Chan.memStatus_beyond hup hlen hbeyond) htag]
  refine ⟨?mem, ?answer, ?count, ?flag, ?pending, ?addr⟩
  case mem => exact c.memBadAddr_mem r.addr
  case answer => exact Node.emit_out _ _
  case count => exact c.memBadAddr_count r.addr
  case flag => exact c.memBadAddr_flag r.addr
  case pending =>
    exact fun hchan => (Node.pending_addrErr ((c.memBadAddr_chan r.addr).trans hchan)).trans (c.memBadAddr_flag r.addr)
  case addr => exact c.memBadAddr_addr r.addr

/-! ### A request within the capacity (R378, R380) -/

theorem padTo_length (n : Nat) (l : List Nat) : (padTo n l).length = n := by
  simp only [padTo, zeros, List.length_append, List.length_take, List.length_replicate]
  omega

/-- Padding with zeros shows no byte that reading past the end does not. -/
theorem padTo_getD {n i : Nat} (h : i < n) (l : List Nat) : (padTo n l).getD i 0 = l.getD i 0 := by
  simp only [padTo, zeros, List.getD_eq_getElem?_getD, List.getElem?_append, List.length_take, List.getElem?_take, List.getElem?_replicate]
  by_cases hi : i < l.length
  · rw [if_pos (by omega), if_pos h]
  · rw [if_neg (by omega), if_pos (by omega), List.getElem?_eq_none (by omega)]
    rfl

/-- A byte reads as it was written: the bytes written behind it leave it. -/
theorem memGet_memWrite_same {bs : List Nat} {i : Nat} (h : i < bs.length) (m : List Host.Cell) (a : Nat) :
    memGet (memWrite m a bs) (a + i) = BitVec.ofNat 8 (bs.getD i 0) := by
  induction bs generalizing m a i with
  | nil => simp at h
  | cons b bs ih =>
    cases i with
    | zero => exact (memGet_write_ne _ _ _ bs (.inl (Nat.lt_succ_self a))).trans (memGet_put_same m a _)
    | succ i =>
      have hshift : a + (i + 1) = a + 1 + i := by omega
      rw [memWrite, hshift, ih (by simpa using h), List.getD_cons_succ]

/-- Queueing the accesses of a request is no write of the memory: its data take effect at the grant (R381). -/
theorem Chan.memAccesses_mem (c : Chan) (write : Bool) (addr len : Nat) (req : Option Nat) :
    (c.memAccesses write addr len req).mem = c.mem := by
  unfold Chan.memAccesses
  apply foldl_const Chan.mem
  intro c j
  rfl

/-- What a granted request makes of the memory. -/
theorem Chan.memGrant_mem {c : Chan} {r : MemReq} (h : c.memStatus r.addr r.len = 0) (hlen : r.len ≠ 0) :
    (c.memGrant r).mem = if r.write then memWrite c.mem r.addr (padTo r.len r.bytes) else c.mem := by
  simp only [Chan.memGrant, h, if_neg hlen, Chan.memAccesses_mem, Chan.modMc_mem]
  split
  · rfl
  · rfl

/-- Settles O54: a grant writes the padded bytes, which are as many as the request asks for. -/
theorem grantedWritesStoreTheirBytes : Obligations.GrantedWritesStoreTheirBytes := by
  unfold Obligations.GrantedWritesStoreTheirBytes
  intro c r _ hup hlen hwithin
  have hmem := Chan.memGrant_mem (Chan.memStatus_within hup hwithin) hlen
  refine ⟨?read, ?outside, ?inside⟩
  case read =>
    intro hread
    rw [hmem, if_neg (by simp [hread])]
  case outside =>
    intro hwrite b hb
    rw [hmem, if_pos hwrite, memGet_write_ne _ _ _ _ (by rwa [padTo_length])]
  case inside =>
    intro hwrite i hi
    rw [hmem, if_pos hwrite, memGet_memWrite_same (by rwa [padTo_length]), padTo_getD hi, BitVec.toNat_ofNat]

end Sys2Proof.Machine

end

/-! ## Compression and the DMA threads (14, 15) -/

section

namespace Sys2Proof.Machine

/-! ### Events of the compressor and of the DMA threads (R404, R410, R417, R427-R435, R442, R455) -/

/-- Settles O20: no job, instruction or completion leaves a device reset due. -/
theorem transferCommandsComplete : Obligations.TransferCommandsComplete := by
  unfold Obligations.TransferCommandsComplete
  intro s hs
  refine ⟨?jobStart, ?jobDone, ?line, ?move, ?moveRing, ?movsg, ?loop, ?wait, ?satisfied, ?timeout, ?signal, ?threadEnd, ?nop, ?badOpcode,
    ?read, ?readTimeout, ?unexpected⟩
  case jobStart => exact fun c => State.does_onUp hs c _
  case jobDone => exact fun c => State.does_onUp hs c _
  case line => exact fun c => State.does_onUp hs c _
  case move => exact fun c t => State.does_onUp hs c _
  case moveRing => exact fun c t => State.does_onUp hs c _
  case movsg => exact fun c t => State.does_onUp hs c _
  case loop => exact fun c t => State.does_onUp hs c _
  case wait => exact fun c t => State.does_onUp hs c _
  case satisfied => exact fun c t => State.does_onUp hs c _
  case timeout => exact fun c t => State.does_onUp hs c _
  case signal => exact fun c t => State.does_onUp hs c _
  case threadEnd => exact fun c t => State.does_onUp hs c _
  case nop => exact fun c t => State.does_onUp hs c _
  case badOpcode => exact fun c t => State.does_onUp hs c _
  case read => exact fun c tag status bytes => State.does_kept hs (s.readDone_keeps c tag status.val bytes)
  case readTimeout => exact fun c t tag => State.does_kept hs (s.cplTimeout_keeps c t.val tag)
  case unexpected => exact fun c tag => State.does_kept hs (State.Kept.ite (s.unexpected_keeps _) ⟨rfl, rfl, rfl⟩)

/-! ### The queue of jobs (R402) -/

theorem Chan.cmpSubmit_room {x : Chan} (h : x.cmp.queue.length < 64) (d : List Nat) :
    x.cmpSubmit d = some (x.modCmp fun m => { m with queue := m.queue ++ [{ desc := d }] }) := if_neg (Nat.not_le.mpr h)

theorem Chan.cmpSubmit_full {x : Chan} (h : 64 ≤ x.cmp.queue.length) (d : List Nat) : x.cmpSubmit d = none := if_pos h

theorem Chan.cmpSubmitWrite_badLength (x : Chan) {d : List Nat} (h : d.length ≠ 64) : x.cmpSubmitWrite d = (.range, x) := if_pos h

theorem Chan.cmpSubmitWrite_queued {x y : Chan} {d : List Nat} (hlen : d.length = 64) (h : x.cmpSubmit d = some y) :
    x.cmpSubmitWrite d = (.ok, y) := by
  simp only [Chan.cmpSubmitWrite, hlen, ne_eq, not_true_eq_false, if_false, h]

theorem Chan.cmpSubmitWrite_full {x : Chan} {d : List Nat} (hlen : d.length = 64) (h : x.cmpSubmit d = none) :
    x.cmpSubmitWrite d = (.busy, x) := by
  simp only [Chan.cmpSubmitWrite, hlen, ne_eq, not_true_eq_false, if_false, h]

/-- Settles O56: the length is checked first, then the room in the queue; a job that runs keeps the next from starting. -/
theorem compressionQueueIsOrderedAndBounded : Obligations.CompressionQueueIsOrderedAndBounded := by
  unfold Obligations.CompressionQueueIsOrderedAndBounded
  intro c d
  refine ⟨?badLength, ?full, ?room, ?running⟩
  case badLength => exact c.cmpSubmitWrite_badLength
  case full => exact fun hlen hfull => Chan.cmpSubmitWrite_full hlen (Chan.cmpSubmit_full hfull d)
  case room => exact fun hlen hroom => Chan.cmpSubmitWrite_queued hlen (Chan.cmpSubmit_room hroom d)
  case running => exact fun saved hjob => if_pos (.inl hjob)

/-! ### A descriptor written whole (R59, R60, R402) -/

/-- A WO BLOB holds no byte that a shorter write could leave standing (R59, R60). -/
theorem State.writeBase_woBytes (s : State) {p : Place} {m : Nat} {fixed short : Bool} (ha : p.row.acc = .wo)
    (hshape : p.row.shape = .bytes m fixed short) (hkey : ¬(p.key = K.IC_SRC_CFG ∨ p.key = K.C_IC_SRC_CFG)) : s.writeBase p = [] := by
  simp only [State.writeBase, ha, if_neg hkey, State.valueBytes, ObjInfo.encodeVals, State.value, hshape, zeros, List.replicate_zero]

/-- An accepted direct write of a whole value, made of the bytes it is laid over (R59). -/
theorem State.barEffect_over {s t : State} {p : Place} {data : List Nat} {w : Written} (ha : p.row.acc = .rw ∨ p.row.acc = .wo)
    (h63 : p.key / 256 ≠ 0x217F) (hr : s.reach none p = .ok s) (hin : p.row.incoming (s.writeBase p) none data = .ok w)
    (hd : s.direct p w = (.ok, t)) : s.barEffect none p none data = (.ok, t) := by
  have hdirect : p.row.acc ≠ .rs := by rcases ha with h | h <;> simp [h]
  rw [State.barEffect_direct hdirect, State.writeItem, hr]
  rcases ha with h | h
  · simp only [h, if_neg h63, hin, hd]
  · simp only [h, if_neg h63, hin, hd]

/-- Bytes of a STR or BLOB written over nothing. -/
theorem ObjInfo.incoming_bytesOverNothing {row : ObjInfo} {data : List Nat} {m : Nat} {fixed short : Bool}
    (hshape : row.shape = .bytes m fixed short) (hkeep : row.keep = 0) (hchk : row.chk = .all) (hlen : data.length = m) (hpos : 0 < m)
    (hbytes : ∀ b ∈ data, b < 256) : row.incoming [] none data = .ok { vals := data } := by
  have hvals : row.decodeVals data = data := by
    rw [ObjInfo.decodeVals, hshape]
    exact (List.map_congr_left fun b hb => Nat.mod_eq_of_lt (hbytes b hb)).trans (List.map_id' data)
  have hcheck : row.checkBytes data = .ok data := by
    simp [ObjInfo.checkBytes, ObjInfo.mask, hshape, hkeep, hvals, hchk, Chk.all_ok, hlen]
  have hne : data ≠ [] := List.ne_nil_of_length_pos (by omega)
  simp [ObjInfo.incoming, hcheck, hne]

/-- The row of CMP_SUBMIT (R402). -/
def cmpSubmitRow : ObjInfo := ⟨2, .blob, .bytes 64 true true, .wo, 0, 0, .all, []⟩

theorem objInfo_cmpSubmit : objInfo K.CMP_SUBMIT = some cmpSubmitRow := rfl

/-- The act of CMP_SUBMIT takes the descriptor. -/
theorem Chan.act_cmpSubmit (x : Chan) (w : Written) : x.act K.CMP_SUBMIT w = x.cmpSubmitWrite w.vals := rfl
theorem Chan.act_cmpAbort (x : Chan) (w : Written) : x.act K.CMP_ABORT w = (.ok, x.cmpAbort (w.v == 2)) := rfl
theorem Chan.act_dmaEnable (x : Chan) (w : Written) : x.act K.DMA_ENABLE w = (.ok, x.dmaEnable w.v) := rfl

theorem exec_cmpSubmit_queued {s : State} {via : Via} {c : Fin 6} {d : List Nat} {x : Chan} (ho : s.open_ via c K.CMP_SUBMIT)
    (hlen : d.length = 64) (hbytes : ∀ b ∈ d, b < 256) (h : (s.chan c).cmpSubmit d = some x) :
    exec (.cmpSubmit via c d) s = .next (s.wrote c K.CMP_SUBMIT d x) := by
  have ⟨hs, hears, hanswers, htakes⟩ := ho
  have hsrc : ¬(K.CMP_SUBMIT = K.IC_SRC_CFG ∨ K.CMP_SUBMIT = K.C_IC_SRC_CFG) := by decide
  have h63 : K.CMP_SUBMIT / 256 ≠ 0x217F := by decide
  have hbase : s.writeBase ⟨some c, K.CMP_SUBMIT, cmpSubmitRow⟩ = [] := s.writeBase_woBytes rfl rfl hsrc
  have hin := ObjInfo.incoming_bytesOverNothing (row := cmpSubmitRow) rfl rfl rfl hlen (by decide) hbytes
  rw [← hbase] at hin
  have hact := ((s.chan c).act_cmpSubmit { vals := d }).trans (Chan.cmpSubmitWrite_queued hlen h)
  have heff := State.barEffect_over (.inr rfl) h63 (State.reach_answers hanswers) hin
    (State.direct_chan htakes (by decide) (.inr rfl) hact)
  have hw := State.viaWrite_ok hears (place_chan c (by decide) (by decide) objInfo_cmpSubmit) heff
  calc exec (.cmpSubmit via c d) s
    _ = s.does (s.viaWrite via (K.CMP_SUBMIT / 256 + 0x800 * c.val) (K.CMP_SUBMIT % 256) none d) := rfl
    _ = s.does (s.wrote c K.CMP_SUBMIT d x) := by rw [hw]
    _ = .next (s.wrote c K.CMP_SUBMIT d x) := State.does_kept hs (s.wrote_keeps c _ d x)

/-! ### The objects of a thread (R432, R440) -/

/-- The key of an object of thread 0's table that lies `sub` from the table's start. -/
abbrev threadKey (sub : Nat) : Nat := 0x870800 + sub

theorem threadKey_index {sub : Nat} (h : sub < 256) (t : Nat) : ik (threadKey sub) t / 256 = 0x8708 + t := by unfold ik threadKey; omega
theorem threadKey_sub {sub : Nat} (h : sub < 256) (t : Nat) : ik (threadKey sub) t % 256 = sub := by unfold ik threadKey; omega

/-- The table of a thread is laid out as that of thread 0. -/
theorem baseIndex_thread (t : Fin 8) : baseIndex (0x8708 + t.val) = 0x8708 := by decide +revert

theorem objInfo_thread {sub : Nat} (h : sub < 256) (t : Fin 8) : objInfo (ik (threadKey sub) t.val) = objInfo (threadKey sub) := by
  have hzero : objInfo (threadKey sub) = objInfo (ik (threadKey sub) (0 : Fin 8).val) := rfl
  rw [hzero]
  simp only [objInfo, threadKey_index h, threadKey_sub h, baseIndex_thread]

theorem isChanKey_thread {sub : Nat} (h : sub < 256) (t : Fin 8) : IsChanKey (ik (threadKey sub) t.val) := by
  refine ⟨?_, ?_, ?_⟩
  · rw [threadKey_index h]; omega
  · rw [threadKey_index h]; omega
  · simp only [ik, threadKey, K.CORR_BANK0, K.CORR_BANK1]; omega

/-- An object of a thread lies between the objects of a channel that have an act of their own, and its write acts on the thread its table
belongs to. -/
theorem Chan.act_thread (x : Chan) (t : Fin 8) {sub : Nat} (h5 : 5 ≤ sub) (h : sub < 256) (w : Written) :
    x.act (ik (threadKey sub) t.val) w =
      if sub = 5 then x.threadCtrl t.val w.v else (.ok, x.mapN (·.put (ik (threadKey sub) t.val) w.vals)) := by
  have hlow : ∀ j < 0x870800, ik (threadKey sub) t.val ≠ j := by unfold ik threadKey; omega
  have hhigh : ik (threadKey sub) t.val ≠ K.CTRACE_SEL := by unfold ik threadKey K.CTRACE_SEL; omega
  have hset : ¬sub < 5 := Nat.not_lt.mpr h5
  simp only [Chan.act, hlow K.LANE_ROLE (by decide), hlow K.LK_LINK_WIDTH (by decide), hlow K.CXP_SPEED (by decide),
    hlow K.CXP_CTRL_TX (by decide), hlow K.CXP_CTRL_POP (by decide), hlow K.BL_REG_CMD (by decide), hlow (0x818900 + 9) (by decide),
    hlow K.CORR_BANK0 (by decide), hlow K.CORR_BANK1 (by decide), hlow K.OPEN_SNAP (by decide), hlow K.STK_ENABLE (by decide),
    hlow K.CUE_SNAP (by decide), hlow K.FREEZE_NOW (by decide), hlow K.FREEZE_RELEASE (by decide), hlow K.RETAKE_CTRL (by decide),
    hlow K.FREQ_SWITCH (by decide), hlow K.MEM_TRAIN (by decide), hlow K.MEM_TYPE (by decide), hlow K.NBR_SEED (by decide),
    hlow K.SR_TEST (by decide), hlow K.CMP_SUBMIT (by decide), hlow K.CMP_ABORT (by decide), hlow K.CPL_RING_ADDR (by decide),
    hlow K.CPL_RING_SIZE (by decide), hlow K.CPL_WB_ADDR (by decide), hlow K.DMA_ENABLE (by decide), hhigh, hset,
    threadKey_index h, threadKey_sub h, baseIndex_thread, Nat.add_sub_cancel_left, Nat.reduceEqDiff, or_self, false_and, and_false, true_and,
    if_false]

theorem Chan.act_threadCtrl (x : Chan) (t : Fin 8) (w : Written) : x.act (ik K.THREAD_CTRL t.val) w = x.threadCtrl t.val w.v :=
  x.act_thread t (sub := 5) (by decide) (by decide) w

theorem Chan.act_doorbell (x : Chan) (t : Fin 8) (w : Written) :
    x.act (ik K.DOORBELL t.val) w = (.ok, x.mapN (·.put (ik K.DOORBELL t.val) w.vals)) :=
  x.act_thread t (sub := 6) (by decide) (by decide) w

theorem Chan.threadCtrl_start {x y : Chan} {t : Nat} (h : x.threadStart t = some y) : x.threadCtrl t 1 = (.ok, y) := by
  simp only [Chan.threadCtrl, if_true, h]

/-- The command of a write of THREAD_CTRL. -/
theorem State.does_threadCtrl {s : State} {via : Via} {c : Fin 6} {t : Fin 8} {v : Nat} {x : Chan}
    (ho : s.open_ via c (ik K.THREAD_CTRL t.val)) (hv : v ∈ [1, 2, 3]) (hact : (s.chan c).threadCtrl t.val v = (.ok, x)) :
    s.does (s.viaChan via c (ik K.THREAD_CTRL t.val) 1 v) = .next (s.wrote c (ik K.THREAD_CTRL t.val) [v] x) := by
  have hlt : v < 256 := (by decide : ∀ v ∈ [1, 2, 3], v < 256) v hv
  exact State.does_chanScalar ho (isChanKey_thread (sub := 5) (by decide) t) (objInfo_thread (sub := 5) (by decide) t) (.inr rfl)
    ⟨rfl, rfl, rfl, hlt, Chk.oneOf_ok_of_forall (List.forall_mem_singleton.mpr hv)⟩ (((s.chan c).act_threadCtrl t _).trans hact)

/-! ### Direct writes of the compression and DMA objects (R402, R419, R432, R440, R441) -/

/-- Settles O38: each object's write comes to what its act leaves the channel as. -/
theorem transferWritesComplete : Obligations.TransferWritesComplete := by
  unfold Obligations.TransferWritesComplete
  intro s _
  refine ⟨?submit, ?abortRunning, ?abortAll, ?start, ?pause, ?resume, ?enable, ?doorbell⟩
  case submit => exact fun via c d x ho hlen hbytes h => exec_cmpSubmit_queued ho hlen hbytes h
  case abortRunning =>
    exact fun via c ho => State.does_chanScalar ho (by decide) rfl (.inr rfl) ⟨rfl, rfl, rfl, by decide, rfl⟩ ((s.chan c).act_cmpAbort _)
  case abortAll =>
    exact fun via c ho => State.does_chanScalar ho (by decide) rfl (.inr rfl) ⟨rfl, rfl, rfl, by decide, rfl⟩ ((s.chan c).act_cmpAbort _)
  case start => exact fun via c t x ho h => State.does_threadCtrl ho (by decide) (Chan.threadCtrl_start h)
  case pause => exact fun via c t ho => State.does_threadCtrl ho (by decide) rfl
  case resume => exact fun via c t ho => State.does_threadCtrl ho (by decide) rfl
  case enable =>
    exact fun via c v ho hlt => State.does_chanScalar ho (by decide) rfl (.inl rfl) ⟨rfl, rfl, rfl, hlt, rfl⟩
      ((s.chan c).act_dmaEnable _)
  case doorbell =>
    exact fun via c t v ho hlt => State.does_chanScalar ho (isChanKey_thread (sub := 6) (by decide) t)
      (objInfo_thread (sub := 6) (by decide) t) (.inl rfl) ⟨rfl, rfl, rfl, hlt, rfl⟩ ((s.chan c).act_doorbell t _)

/-! ### The pre-filters (R406) -/

/-- A prediction taken off a sample and added again gives the sample, whatever the prediction. -/
theorem unfiltered_filtered {x md : Nat} (p : Nat) (h : x < md) : ((x + md - p % md) % md + p) % md = x := by
  have hp : p % md < md := Nat.mod_lt p (by omega)
  have hsum : x + md - p % md + p = x + md * (p / md + 1) := by
    have hdiv := Nat.div_add_mod p md
    rw [Nat.mul_add_one]
    omega
  rw [Nat.mod_add_mod, hsum, Nat.add_mul_mod_self_left, Nat.mod_eq_of_lt h]

/-- The inverse restores each sample before the next one's prediction needs it, so both ways predict alike. -/
theorem filtGo_inverse {f planes md : Nat} {xs : List Nat} (h : ∀ x ∈ xs, x < md) (ps pb os : List Nat) :
    filtGo true f planes md (filtGo false f planes md xs ps pb os) ps pb os = xs := by
  induction xs generalizing ps pb os with
  | nil => rfl
  | cons x xs ih =>
    obtain ⟨hx, hxs⟩ := List.forall_mem_cons.mp h
    simp only [filtGo, Bool.false_eq_true, if_false, if_true, unfiltered_filtered _ hx, ih hxs]

theorem filtGo_length (inv : Bool) (f planes md : Nat) (xs ps pb os : List Nat) : (filtGo inv f planes md xs ps pb os).length = xs.length := by
  induction xs generalizing ps pb os with
  | nil => rfl
  | cons x xs ih => simp only [filtGo, List.length_cons, ih]

theorem filtGo_lt {md : Nat} (hmd : 0 < md) (inv : Bool) (f planes : Nat) (xs ps pb os : List Nat) :
    ∀ y ∈ filtGo inv f planes md xs ps pb os, y < md := by
  induction xs generalizing ps pb os with
  | nil => exact fun y hy => absurd hy List.not_mem_nil
  | cons x xs ih =>
    refine List.forall_mem_cons.mpr ⟨?_, ih _ _ _⟩
    split
    · exact Nat.mod_lt _ hmd
    · exact Nat.mod_lt _ hmd

/-- The bytes of samples (R7). -/
def ofSamples (sb : Nat) (xs : List Nat) : List Nat := xs.flatMap (leBytes sb)

theorem ofSamples_cons (sb x : Nat) (xs : List Nat) : ofSamples sb (x :: xs) = leBytes sb x ++ ofSamples sb xs := rfl

theorem ofSamples_length (sb : Nat) (xs : List Nat) : (ofSamples sb xs).length = xs.length * sb := by
  induction xs with
  | nil => exact (Nat.zero_mul sb).symm
  | cons x xs ih => rw [ofSamples_cons, List.length_append, leBytes_length, ih, List.length_cons, Nat.succ_mul, Nat.add_comm]

/-- Two bytes at the front of a line are its first sample of two bytes. -/
theorem toSamples_two_cons (a b : Nat) (bs : List Nat) : toSamples 2 (a :: b :: bs) = (a + 256 * b) :: toSamples 2 bs := by
  have hcount : cdiv (a :: b :: bs).length 2 = cdiv bs.length 2 + 1 := by simp only [cdiv, List.length_cons]; omega
  simp only [toSamples, if_true, hcount, List.range_succ_eq_map, List.map_cons, List.map_map]
  rfl

theorem leBytes_one {x : Nat} (h : x < 256) : leBytes 1 x = [x] := by rw [leBytes, leBytes, Nat.mod_eq_of_lt h]

theorem ofSamples_one {xs : List Nat} (h : ∀ x ∈ xs, x < 256) : ofSamples 1 xs = xs := by
  induction xs with
  | nil => rfl
  | cons x xs ih =>
    obtain ⟨hx, hxs⟩ := List.forall_mem_cons.mp h
    rw [ofSamples_cons, leBytes_one hx, ih hxs, List.singleton_append]

theorem toSamples_ofSamples_two {xs : List Nat} (h : ∀ x ∈ xs, x < 256 ^ 2) : toSamples 2 (ofSamples 2 xs) = xs := by
  induction xs with
  | nil => rfl
  | cons x xs ih =>
    obtain ⟨hx, hxs⟩ := List.forall_mem_cons.mp h
    have hsplit : ofSamples 2 (x :: xs) = x % 256 :: x / 256 % 256 :: ofSamples 2 xs := rfl
    have hvalue : x % 256 + 256 * (x / 256 % 256) = x := by omega
    rw [hsplit, toSamples_two_cons, ih hxs, hvalue]

/-- Samples survive being written as bytes and read again. -/
theorem toSamples_ofSamples {sb : Nat} (hsb : sb = 1 ∨ sb = 2) {xs : List Nat} (h : ∀ x ∈ xs, x < 256 ^ sb) :
    toSamples sb (ofSamples sb xs) = xs := by
  rcases hsb with rfl | rfl
  · exact ofSamples_one h
  · exact toSamples_ofSamples_two h

/-- The two front bytes of a line are its first sample, so the line is taken apart two bytes at a time. -/
theorem toSamples_two_whole : ∀ {bs : List Nat}, bs.length % 2 = 0 → (∀ b ∈ bs, b < 256) →
    (∀ x ∈ toSamples 2 bs, x < 256 ^ 2) ∧ ofSamples 2 (toSamples 2 bs) = bs
  | [], _, _ => ⟨fun _ hx => absurd hx List.not_mem_nil, rfl⟩
  | [_], heven, _ => absurd heven Nat.one_ne_zero
  | a :: b :: bs, heven, h => by
    obtain ⟨ha, htail⟩ := List.forall_mem_cons.mp h
    obtain ⟨hb, hbs⟩ := List.forall_mem_cons.mp htail
    have hrest : bs.length % 2 = 0 := (Nat.add_mod_right bs.length 2).symm.trans heven
    obtain ⟨hlt, hback⟩ := toSamples_two_whole hrest hbs
    have hlow : (a + 256 * b) % 256 = a := by omega
    have hhigh : (a + 256 * b) / 256 % 256 = b := by omega
    rw [toSamples_two_cons]
    refine ⟨List.forall_mem_cons.mpr ⟨by omega, hlt⟩, ?_⟩
    rw [ofSamples_cons, hback, leBytes, leBytes, leBytes, hlow, hhigh, List.cons_append, List.cons_append, List.nil_append]

/-- Whole samples of bytes fit their width, and their bytes are those they were read from. -/
theorem toSamples_whole {sb : Nat} (hsb : sb = 1 ∨ sb = 2) {bs : List Nat} (hwhole : bs.length % sb = 0) (h : ∀ b ∈ bs, b < 256) :
    (∀ x ∈ toSamples sb bs, x < 256 ^ sb) ∧ ofSamples sb (toSamples sb bs) = bs := by
  rcases hsb with rfl | rfl
  · exact ⟨h, ofSamples_one h⟩
  · exact toSamples_two_whole hwhole h

/-- A line of whole samples through the filter is the bytes of its filtered samples, none cut off. -/
theorem filtLine_whole {sb : Nat} {cur : List Nat} (hback : ofSamples sb (toSamples sb cur) = cur) (inv : Bool) (f planes : Nat)
    (prev : List Nat) :
    filtLine inv f sb planes prev cur =
      ofSamples sb (filtGo inv f planes (256 ^ sb) (toSamples sb cur) (toSamples sb prev) [] []) := by
  have hlen : cur.length = (toSamples sb cur).length * sb := by rw [← ofSamples_length, hback]
  exact List.take_of_length_le (Nat.le_of_eq ((ofSamples_length sb _).trans (by rw [filtGo_length, hlen])))

/-- Settles O60: the filtered line is read as the samples the filter made, and the inverse restores each of them. -/
theorem preFiltersAreUndone : Obligations.PreFiltersAreUndone := by
  unfold Obligations.PreFiltersAreUndone
  intro f sb planes prev cur _ hsb _ _ hwhole _ hcur _
  obtain ⟨hlt, hback⟩ := toSamples_whole hsb hwhole hcur
  have hfiltered := toSamples_ofSamples hsb (filtGo_lt (Nat.pow_pos (by decide)) false f planes (toSamples sb cur) (toSamples sb prev) [] [])
  rw [filtLine_whole hback false, filtLine_whole (congrArg (ofSamples sb) hfiltered) true, hfiltered, filtGo_inverse hlt, hback]

end Sys2Proof.Machine

end

/-! ## The step of the block, the queue and the resets (00, 20) -/

section

namespace Sys2Proof.Machine

/-! ### One step -/

/-- Settles O1: a queue with a front command is the second case of the step. -/
theorem stepRunsFrontCommand : Obligations.StepRunsFrontCommand := by
  unfold Obligations.StepRunsFrontCommand
  exact fun s c rest => rfl

theorem step_of_empty {s : State} (h : s.pending = []) : step s = .next s := by
  simp only [step, h]

theorem step_of_front {s : State} {c : Instr} {rest : List Instr} (h : s.pending = c :: rest) :
    step s = exec c { s with pending := rest } := by
  simp only [step, h]

/-- Settles O2: an empty queue is the first case of the step. -/
theorem idleOnEmptyQueue : Obligations.IdleOnEmptyQueue := by
  unfold Obligations.IdleOnEmptyQueue
  exact fun s h => step_of_empty h

/-- What a step can do: nothing with an empty queue, else the front command on the state with the queue's rest. -/
theorem step_cases {s t : State} (h : step s = .next t) :
    s.pending = [] ∧ t = s ∨ ∃ c rest, s.pending = c :: rest ∧ exec c { s with pending := rest } = .next t := by
  cases hq : s.pending with
  | nil =>
    rw [step_of_empty hq] at h
    exact .inl ⟨rfl, (Host.Outcome.next.inj h).symm⟩
  | cons c rest => exact .inr ⟨c, rest, rfl, (step_of_front hq).symm.trans h⟩

/-! ### What every command does with the queue -/

theorem State.Kept.refl (s : State) : s.Kept s := ⟨rfl, rfl, rfl⟩

/-- Every command but those of the resets that hold the device and of PERST# acts as `State.does` says: nothing on a held device, else a state
of its own, in which the queue is as it was, and behind it the device reset that is then due. -/
theorem exec_eq_does {c : Instr} (h : whileHeld c = false) (s : State) : ∃ t : State, exec c s = s.does t ∧ t.pending = s.pending := by
  cases c with
  | positionBroadcastUpdate => exact ⟨_, rfl, s.positionUpdate_keeps.1⟩
  | timeBroadcastUpdate => exact ⟨_, rfl, s.timeUpdate_keeps.1⟩
  | inFlightSetApply | buarnlinkAlign | buarnlinkDecodeError | blockLock | blockLockLoss | blRegTimeout | cxpControlReceive
    | trgPulseEnd | trgGapEnd | recordRingWrite | recIrqTimeExpire | cueHorizon | cueFire | cueResolveLimit | stkPulseEnd
    | cueSnapCapture | postEnd | retakeLoaded | retakeEntry | cmpJobStart | cmpJobComplete | recorderLineCompress | move | moveRing
    | movsg | loop | wait | waitSatisfied | waitTimeout | signal | threadEnd | nop | dmaBadOpcode | stateEntryDone | illPwmPeriod
    | lmonSample | cxpLinkUp | alignMissing => exact ⟨_, rfl, (s.onUp_keeps ..).1⟩
  | generationPublish => exact ⟨_, rfl, (State.Kept.trans (s.publish_keeps _ _) (State.notifyAll_keeps _)).1⟩
  | kdpRead | kdpWrite | kdpStage | kdpSnapshot | kdpSubscribe | kdpBadOpcode => exact ⟨_, rfl, (s.kdpServe_keeps ..).1⟩
  | kdpSessionExpire => exact ⟨_, rfl, s.expireSessions_keeps.1⟩
  | subscriptionLapse => exact ⟨_, rfl, s.lapseSubs_keeps.1⟩
  | netArpRequest => exact ⟨_, rfl, (s.arpAnswer_keeps ..).1⟩
  | netIcmpEcho => exact ⟨_, rfl, (s.echoAnswer_keeps ..).1⟩
  | dictChannelTimeout => exact ⟨_, rfl, (s.dictRequest_keeps ..).1⟩
  | slateNamePos | slateNameTime | slateCancel | stageDiscard => exact ⟨_, rfl, (s.slateCmd_keeps ..).1⟩
  | slateBadAction => exact ⟨_, rfl, (s.slateKdp_keeps ..).1⟩
  | autoPeriodPosWrite | autoPeriodTimeWrite | persistSave | persistClear | failback | deviationReset | tbSourceWrite | tbSet
    | tbStepAdj | taArm | taDisarm | logMark | bufRdWrite | trimCapture | trimSave | calStart | calAbort | pixSave | pixLoad
    | deviceReset | monClear | bwRoleWrite => exact ⟨_, rfl, (s.viaScalar_keeps ..).1⟩
  | mailboxGo => exact ⟨_, rfl, (s.hostWrite_keeps _ _ fun t => t.mailboxGo_keeps none).1⟩
  | mailboxDone => exact ⟨_, rfl, s.mailboxDone_keeps.1⟩
  | barSlotRead | claim => exact ⟨_, rfl, (s.barRead_keeps ..).1⟩
  | barSlotWrite | complete | srcCfgWrite | gctrlWrite | swiSet => exact ⟨_, rfl, (s.barWrite_keeps ..).1⟩
  | largeObjectWindowRead => exact ⟨_, rfl, (s.hostRead_keeps _ _ fun t => t.windowRead_keeps none _ _ _).1⟩
  | largeObjectWindowWrite => exact ⟨_, rfl, (s.hostWrite_keeps _ _ fun t => t.windowWrite_keeps none _ _ _).1⟩
  | lowCtrlClose => exact ⟨_, rfl, (State.hostWrite_kept (fun t => t.lowClose_keeps _) s _).1⟩
  | registerWrite t =>
    cases t with
    | object => exact ⟨_, rfl, (s.viaWrite_keeps _ _ _ _ _).1⟩
    | bar => exact ⟨_, rfl, (s.barWrite_keeps _ _ _ _ _).1⟩
  | netIpv4AddrWrite | pwrWake | chResetAssert | chResetRelease => exact ⟨_, rfl, (s.viaElem_keeps ..).1⟩
  | encoderEdge => exact ⟨_, rfl, (s.encoderEdge_keeps ..).1⟩
  | encoderIndex => exact ⟨_, rfl, (s.encoderIndex_keeps ..).1⟩
  | wireFault | wireCheckEnd | standstillTimeout | failoverSilenceExpire | encoutEmit => exact ⟨_, rfl, (s.onEnc_keeps ..).1⟩
  | gridPointReached | buarnlinkBurst | buarnlinkLineEnd | buarnlinkTriggerAck | buarnlinkTemperature | buarnlinkRegData
    | buarnlinkRegAck | buarnlinkExpoAck | expoAckTimeout | cxpStreamPacket | cxpExpoWriteTimeout | auxLineStart | auxLineEnd
    | lineTimeout => exact ⟨_, rfl, (s.onLive_keeps ..).1⟩
  | ptpMessageReceive | ppsInEdge => exact ⟨_, rfl, (s.onTime_keeps ..).1⟩
  | ptpAnnounceTimeout | ptpSyncTransmit | ptpAnnounceTransmit | ptpDelayReqTransmit | ref10mMeasure | ppsMissing | refMissing
    | tbSourceTimeout | ppsOutRise | ppsOutFall => exact ⟨_, rfl, (s.onTb_keeps ..).1⟩
  | netLinkChange => exact ⟨_, rfl, (s.netChange_keeps ..).1⟩
  | netRxOverrun p =>
    cases p with
    | net => exact ⟨_, rfl, (s.onTb_keeps _).1⟩
    | ring => exact ⟨_, rfl, (s.onBw_keeps _).1⟩
  | timedActionExecute => exact ⟨_, rfl, (s.taExecute_keeps ..).1⟩
  | blRegRead | blRegWrite | cxpCtrlPop | sensorTempSet | openSnap | stkEnableWrite | cueSnap | freezeNow | freezeRelease
    | retakeStart | retakeAbort | retakeExit | kTest | srTestEnter | srTestLeave | freqSwitch | memTrain | nbrSeedWrite
    | cmpAbortRunning | cmpAbortAll | threadStart | threadPause | threadResume | dmaEnableWrite | doorbellWrite =>
    exact ⟨_, rfl, (s.viaChan_keeps ..).1⟩
  | cxpCtrlTx | txFirWrite | timingSetWrite | cmpSubmit | writerRelease => exact ⟨_, rfl, (s.viaWrite_keeps ..).1⟩
  | mergePassLine | outputLine | segmentationLine | cuePieceCompare => exact ⟨_, rfl, (s.onClocked_keeps ..).1⟩
  | laneConfigWrite | corrBankWrite => exact ⟨_, rfl, (s.viaWrite_keeps _ _ _ _ _).1⟩
  | cdrLock => exact ⟨_, rfl, (s.cdrLock_keeps ..).1⟩
  | losAssert => exact ⟨_, rfl, (s.losAssert_keeps ..).1⟩
  | losDeassert | lolDeassert | lolTrimReload | idleMonitorWindow | dfeUpdate | ctleUpdate | oneShotConverge | prbsSyncLoss
    | prbsSyncGain => exact ⟨_, rfl, (s.laneAct_keeps ..).1⟩
  | lolAssert => exact ⟨_, rfl, (s.lolAct_keeps ..).1⟩
  | wander => exact ⟨_, rfl, (s.laneAct_keeps _ _).1⟩
  | trimUpdate => exact ⟨_, rfl, (s.trimUpdate_keeps ..).1⟩
  | trimRampStep => exact ⟨_, rfl, (s.laneTrim_keeps ..).1⟩
  | adaptModeWrite | laneTestWrite | prbsClear => exact ⟨_, rfl, (s.laneWrite_keeps ..).1⟩
  | scanStart | scanAbort => exact ⟨_, rfl, (s.scanWrite_keeps ..).1⟩
  | scanPointDone => exact ⟨_, rfl, (s.scanPointDone_keeps ..).1⟩
  | frontEndLine => exact ⟨_, rfl, (State.Kept.ite (.refl s) (s.frontLine_keeps _ _)).1⟩
  | memRequest | memAccessComplete | refreshSlot | forcedBurstStep | mr4Poll | srEntry | srCommit | srExit | freqChangeDone
    | trainingDone | memPllLoss | powerDecision | refpbDone => exact ⟨_, rfl, (s.onChan_keeps ..).1⟩
  | wck2dqUpdate => exact ⟨_, rfl, rfl⟩
  | busReadCompletion => exact ⟨_, rfl, (s.readDone_keeps ..).1⟩
  | pcieCompletionTimeout => exact ⟨_, rfl, (s.cplTimeout_keeps ..).1⟩
  | unexpectedCompletion => exact ⟨_, rfl, (State.Kept.ite (s.unexpected_keeps _) (.refl s)).1⟩
  | linkL0Entry => exact ⟨_, rfl, (s.linkL0_keeps ..).1⟩
  | pcieLinkDown | hotReset => exact ⟨_, rfl, (State.Kept.ite (s.portReset_keeps _) (.refl s)).1⟩
  | flr => exact ⟨_, rfl, (State.Kept.ite (s.flr_keeps _) (.refl s)).1⟩
  | flrComplete => exact ⟨_, rfl, (s.flrDone_keeps ..).1⟩
  | pcieConfigRequest => exact ⟨_, rfl, (s.configRequest_keeps ..).1⟩
  | pcieUnsupportedRequest => exact ⟨_, rfl, (State.Kept.ite (s.unsupported_keeps _ _) (.refl s)).1⟩
  | pcieErrorDetected => exact ⟨_, rfl, (s.pcieError_keeps ..).1⟩
  | bar4WindowRead => exact ⟨_, rfl, (s.bar4Read_keeps ..).1⟩
  | bar4WindowWrite => exact ⟨_, rfl, (s.bar4Write_keeps ..).1⟩
  | busMasterDisable => exact ⟨_, rfl, (State.Kept.ite (s.busMasterSet_keeps _ _) (.refl s)).1⟩
  | msixMessageSend => exact ⟨_, rfl, (s.onFn_keeps ..).1⟩
  | logRecordAccept => exact ⟨_, rfl, s.acceptNext_keeps.1⟩
  | logRingDrain => exact ⟨_, rfl, (s.ringLeave_keeps ..).1⟩
  | udpDatagramSend => exact ⟨_, rfl, (s.onLog_keeps ..).1⟩
  | storeWriteComplete | storeStepTimeout => exact ⟨_, rfl, (s.storeDone_keeps ..).1⟩
  | calTimeout => exact ⟨_, rfl, (State.Kept.trans (s.onCal_keeps _) (State.calSync_keeps _)).1⟩
  | calComputeDone => exact ⟨_, rfl, s.calFinish_keeps.1⟩
  | wakeComplete => exact ⟨_, rfl, (s.wakeEnd_keeps ..).1⟩
  | thermalTrip => exact ⟨_, rfl, s.deviceDown_keeps _ _⟩
  | thermalCompare | supplySample => exact ⟨_, rfl, (s.onMon_keeps ..).1⟩
  | tempSample => exact ⟨_, rfl, (s.onN_keeps ..).1⟩
  | bwPositionFrame => exact ⟨_, rfl, (s.ringPosition_keeps ..).1⟩
  | bwSlateFrame => exact ⟨_, rfl, (s.ringSlate_keeps ..).1⟩
  | bwCommitApply => exact ⟨_, rfl, s.ringCommit_keeps.1⟩
  | bwRelayFrame => exact ⟨_, rfl, (s.ringRelay_keeps ..).1⟩
  | bwEchoFrame | bwHelloFrame | bwDelayRespFrame | bwElectWaitExpire | bwRootTimeout => exact ⟨_, rfl, (s.onRing_keeps ..).1⟩
  | bwEchoExecute => exact ⟨_, rfl, s.ringEcho_keeps.1⟩
  | bwDelayReqFrame | bwHelloSend | bwDelayReqSend => exact ⟨_, rfl, (s.onBw_keeps ..).1⟩
  | bwFrameCrcDrop => exact ⟨_, rfl, (s.ringDrop_keeps ..).1⟩
  | bwPositionSend => exact ⟨_, rfl, s.ringSend_keeps.1⟩
  | bwPortLinkChange => exact ⟨_, rfl, (s.ringPort_keeps ..).1⟩
  | aspmL1Entry => exact ⟨_, rfl, (State.Kept.ite (s.onN_keeps _) (.refl s)).1⟩
  | arpReply => exact ⟨_, rfl, (s.arpReply_keeps ..).1⟩
  | _ => exact absurd h.symm Bool.false_ne_true

theorem State.perst_pending {s t : State} {high : Bool} (h : s.perst high = .next t) : t.pending = s.pending := by
  unfold State.perst at h
  split at h
  · refine State.does_pending ?_ t h
    split
    · exact s.perstHigh_keeps.1
    · exact s.perstLow_keeps.1
  · obtain rfl := Host.Outcome.next.inj h
    exact (s.perstHeld_keeps high).1

/-- No command touches the commands behind it. -/
theorem exec_pending {c : Instr} {s t : State} (h : exec c s = .next t) : t.pending = s.pending := by
  cases hw : whileHeld c with
  | false =>
    obtain ⟨u, hu, hq⟩ := exec_eq_does hw s
    exact State.does_pending hq t (hu.symm.trans h)
  | true =>
    cases c with
    | perstAssert | perstDeassert => exact State.perst_pending h
    | porstAssert =>
      obtain rfl := Host.Outcome.next.inj h
      exact s.porstLow_keeps
    | porstRelease | thermalTripRelease =>
      obtain rfl := Host.Outcome.next.inj h
      exact s.holdEnd_keeps ..
    | _ => exact absurd hw Bool.false_ne_true

/-- Settles O3: the step takes the front command off, and no command touches those behind it. -/
theorem queueIsFifo : Obligations.QueueIsFifo := by
  unfold Obligations.QueueIsFifo
  intro s t h
  rcases step_cases h with ⟨hempty, rfl⟩ | ⟨c, rest, hfront, hexec⟩
  · rw [hempty, List.tail_nil]
  · rw [exec_pending hexec, hfront, List.tail_cons]

/-! ### What every command does with a due reset, and on a held device (R531) -/

theorem State.porstLow_due {s : State} (h : s.common.resetDue = false) : s.porstLow.common.resetDue = false := by
  unfold State.porstLow
  split
  · exact h
  · exact s.deviceDown_due .porst 0

theorem State.holdEnd_due {s : State} (h : s.common.resetDue = false) (held : Held) (cause fuse : Nat) (dev : Option StoreDev) :
    (s.holdEnd held cause fuse dev).common.resetDue = false := by
  unfold State.holdEnd
  split
  · exact s.boot_due cause fuse dev
  · exact h

theorem State.perst_due {s t : State} {high : Bool} (hs : s.common.resetDue = false) (h : s.perst high = .next t) :
    t.common.resetDue = false := by
  unfold State.perst at h
  split at h
  · exact State.does_due hs t h
  · obtain rfl := Host.Outcome.next.inj h
    exact (s.perstHeld_keeps high).2.2.trans hs

/-- A device reset that a command brings about has acted when the command is over. -/
theorem exec_due {c : Instr} {s t : State} (hs : s.common.resetDue = false) (h : exec c s = .next t) : t.common.resetDue = false := by
  cases hw : whileHeld c with
  | false =>
    obtain ⟨u, hu, -⟩ := exec_eq_does hw s
    exact State.does_due hs t (hu.symm.trans h)
  | true =>
    cases c with
    | perstAssert | perstDeassert => exact State.perst_due hs h
    | porstAssert =>
      obtain rfl := Host.Outcome.next.inj h
      exact State.porstLow_due hs
    | porstRelease | thermalTripRelease =>
      obtain rfl := Host.Outcome.next.inj h
      exact State.holdEnd_due hs ..
    | _ => exact absurd hw Bool.false_ne_true

/-- Settles O4: an empty queue leaves the state, and a reset acts within the command that brings it about. -/
theorem noResetStaysDue : Obligations.NoResetStaysDue := by
  unfold Obligations.NoResetStaysDue
  intro s t hs h
  rcases step_cases h with ⟨-, rfl⟩ | ⟨c, rest, -, hexec⟩
  · exact hs
  · exact exec_due (s := { s with pending := rest }) hs hexec

theorem State.does_held {s : State} (h : s.common.held ≠ .none) (t : State) : s.does t = .next s := by
  unfold State.does
  split
  next hnone => exact absurd hnone h
  next => rfl

/-- Settles O7: each of these commands acts as `State.does` says, which leaves a held device. -/
theorem heldDeviceDoesNothing : Obligations.HeldDeviceDoesNothing := by
  unfold Obligations.HeldDeviceDoesNothing
  intro c s hheld hw
  obtain ⟨t, ht, -⟩ := exec_eq_does hw s
  rw [ht, State.does_held hheld]

/-- Settles O25: each clause is a branch of what PORST# low and the end of a hold do. -/
theorem deviceResetsAct : Obligations.DeviceResetsAct := by
  unfold Obligations.DeviceResetsAct
  intro s fuse dev
  refine ⟨?down, ?downAgain, ?porstEnd, ?porstOther, ?thermalEnd, ?thermalOther⟩
  case down => exact fun h => congrArg Host.Outcome.next (if_neg h)
  case downAgain => exact fun h => congrArg Host.Outcome.next (if_pos h)
  case porstEnd => exact fun h => congrArg Host.Outcome.next (if_pos h)
  case porstOther => exact fun h => congrArg Host.Outcome.next (if_neg h)
  case thermalEnd => exact fun h => congrArg Host.Outcome.next (if_pos h)
  case thermalOther => exact fun h => congrArg Host.Outcome.next (if_neg h)

/-- Settles O5: the common block by evaluation; no channel's memory lists a byte, and the empty list is in canonical form. -/
theorem resetMeetsTheInvariants : Obligations.ResetMeetsTheInvariants := by
  unfold Obligations.ResetMeetsTheInvariants
  refine ⟨rfl, ⟨rfl, rfl⟩, fun c => ?_⟩
  obtain ⟨-, -, hmem⟩ := Chan.reset_memory c.val
  rw [State.reset_chan, hmem]
  rfl

end Sys2Proof.Machine

end

/-! ## What a command leaves of the channels (01) -/

section

namespace Sys2Proof.Machine

/-- Nothing is done, or one act of channel `i`. -/
inductive State.ActsOn (s : State) (i : Fin 6) : State → Prop
  | nothing : s.ActsOn i s
  | act (f : Chan → Chan) : s.ActsOn i (s.onChan i f)

theorem State.onUp_actsOn (s : State) (i : Fin 6) (f : Chan → Chan) : s.ActsOn i (s.onUp i f) := by
  unfold State.onUp
  split
  · exact .nothing
  · exact .act f

theorem State.onLive_actsOn (s : State) (i : Fin 6) (f : Chan → Chan) : s.ActsOn i (s.onLive i f) := by
  unfold State.onLive
  split
  · exact .nothing
  · exact s.onUp_actsOn i f

theorem State.onClocked_actsOn (s : State) (i : Fin 6) (f : Chan → Chan) : s.ActsOn i (s.onClocked i f) := by
  unfold State.onClocked
  split
  · exact .nothing
  · exact s.onUp_actsOn i f

theorem State.ActsOn.kept {s t : State} {i : Fin 6} (h : s.ActsOn i t) : s.Kept t := by
  cases h with
  | nothing => exact .refl s
  | act f => exact s.onChan_keeps i f

theorem State.ActsOn.chan_ne {s t : State} {i j : Fin 6} (h : s.ActsOn i t) (hne : j ≠ i) : t.chan j = s.chan j := by
  cases h with
  | nothing => rfl
  | act f => exact s.onChan_chan_ne i j f hne

/-- A command for the units of one channel does nothing, or one act of that channel. -/
theorem exec_actsOn {c : Instr} {i : Fin 6} (h : channelOf c = some i) (s : State) : ∃ t : State, exec c s = s.does t ∧ s.ActsOn i t := by
  cases c with
  | inFlightSetApply | buarnlinkAlign | buarnlinkDecodeError | blockLock | blockLockLoss | blRegTimeout | cxpControlReceive
    | trgPulseEnd | trgGapEnd | recordRingWrite | recIrqTimeExpire | cueHorizon | cueFire | cueResolveLimit | stkPulseEnd
    | cueSnapCapture | postEnd | retakeLoaded | retakeEntry | cmpJobStart | cmpJobComplete | recorderLineCompress | move | moveRing
    | movsg | loop | wait | waitSatisfied | waitTimeout | signal | threadEnd | nop | dmaBadOpcode | stateEntryDone | illPwmPeriod
    | lmonSample | cxpLinkUp | alignMissing =>
    cases h
    exact ⟨_, rfl, s.onUp_actsOn ..⟩
  | gridPointReached | buarnlinkBurst | buarnlinkLineEnd | buarnlinkTriggerAck | buarnlinkTemperature | buarnlinkRegData
    | buarnlinkRegAck | buarnlinkExpoAck | expoAckTimeout | cxpStreamPacket | cxpExpoWriteTimeout | auxLineStart | auxLineEnd
    | lineTimeout =>
    cases h
    exact ⟨_, rfl, s.onLive_actsOn ..⟩
  | mergePassLine | outputLine | segmentationLine | cuePieceCompare =>
    cases h
    exact ⟨_, rfl, s.onClocked_actsOn ..⟩
  | memRequest | memAccessComplete | refreshSlot | forcedBurstStep | mr4Poll | srEntry | srCommit | srExit | freqChangeDone
    | trainingDone | memPllLoss | powerDecision | refpbDone =>
    cases h
    exact ⟨_, rfl, .act _⟩
  | _ => cases h

/-- Settles O8: the channel's act, the follow-up of `State.settle` with it, leaves the other channels. -/
theorem channelCommandsStayInTheirChannel : Obligations.ChannelCommandsStayInTheirChannel := by
  unfold Obligations.ChannelCommandsStayInTheirChannel
  intro c s t i j hc hne hs h
  obtain ⟨u, hu, hacts⟩ := exec_actsOn hc s
  obtain rfl := Host.Outcome.next.inj ((State.does_kept hs hacts.kept).symm.trans (hu.symm.trans h))
  exact hacts.chan_ne hne

/-- A command that acts on the common block alone leaves every channel. -/
theorem State.chans_of_does {s t u : State} (hs : s.running) (hkept : s.Kept u) (hchans : u.chans = s.chans) (h : s.does u = .next t) :
    t.chans = s.chans := by
  rw [State.does_kept hs hkept] at h
  obtain rfl := Host.Outcome.next.inj h
  exact hchans

theorem State.mailboxDone_chans (s : State) : s.mailboxDone.chans = s.chans := by
  unfold State.mailboxDone
  dsimp only
  split
  · rfl
  · split
    · rfl
    · exact State.onN_chans _ _

theorem State.l1Entry_chans (s : State) : (if s.linkUp then s.onN (·.putN K.HP_LINK_STATE 3) else s).chans = s.chans := by
  split
  · exact s.onN_chans _
  · rfl

/-- Settles O9: each of these commands acts on the common block alone. -/
theorem commonCommandsLeaveChannels : Obligations.CommonCommandsLeaveChannels := by
  unfold Obligations.CommonCommandsLeaveChannels
  intro c s t hs h
  cases c with
  | tempSample => exact fun _ => State.chans_of_does hs (s.onN_keeps _) (s.onN_chans _) h
  | thermalCompare | supplySample => exact fun _ => State.chans_of_does hs (s.onMon_keeps _) (s.onMon_chans _) h
  | udpDatagramSend => exact fun _ => State.chans_of_does hs (s.onLog_keeps _) (s.onLog_chans _) h
  | bwHelloSend | bwDelayReqSend | bwDelayReqFrame => exact fun _ => State.chans_of_does hs (s.onBw_keeps _) (s.onBw_chans _) h
  | aspmL1Entry => exact fun _ => State.chans_of_does hs (State.Kept.ite (s.onN_keeps _) (.refl s)) s.l1Entry_chans h
  | kdpSessionExpire => exact fun _ => State.chans_of_does hs s.expireSessions_keeps (s.modServer_chans _) h
  | subscriptionLapse => exact fun _ => State.chans_of_does hs s.lapseSubs_keeps (s.modServer_chans _) h
  | mailboxDone => exact fun _ => State.chans_of_does hs s.mailboxDone_keeps s.mailboxDone_chans h
  | _ => exact False.elim

end Sys2Proof.Machine

end

/-! ## Events of the host port, the records, the ring and the power manager (16-18, 20, 21) -/

section

namespace Sys2Proof.Machine

theorem exec_perstAssert {s : State} (hs : s.running) : exec .perstAssert s = s.does s.perstLow := by
  change s.perst false = _
  simp only [State.perst, hs.1, Bool.false_eq_true, if_false]

theorem exec_perstDeassert {s : State} (hs : s.running) : exec .perstDeassert s = s.does s.perstHigh := by
  change s.perst true = _
  simp only [State.perst, hs.1, if_true]

/-- An act on a function's unit brings about no device reset. -/
theorem State.does_onFn {s : State} (hs : s.running) (f : Fin 7) (g : Node → Node) : s.does (s.onFn f g) = .next (s.onFn f g) :=
  State.does_kept hs (s.onFn_keeps f g)

/-- Settles O21: no event of the host port leaves a device reset due. -/
theorem hostPortCommandsComplete : Obligations.HostPortCommandsComplete := by
  unfold Obligations.HostPortCommandsComplete
  intro s hs
  refine ⟨?perstLow, ?perstHigh, ?l0, ?linkDown, ?hotReset, ?flr, ?flrDone, ?config, ?unsupported, ?error, ?windowRead, ?windowWrite,
    ?master, ?message, ?claim, ?l1⟩
  case perstLow => exact (exec_perstAssert hs).trans (State.does_kept hs s.perstLow_keeps)
  case perstHigh => exact (exec_perstDeassert hs).trans (State.does_kept hs s.perstHigh_keeps)
  case l0 => exact fun rate width flit reversed => State.does_kept hs (s.linkL0_keeps ..)
  case linkDown => exact State.does_kept hs (State.Kept.ite (s.portReset_keeps 1) (.refl s))
  case hotReset => exact fun disable => State.does_kept hs (State.Kept.ite (s.portReset_keeps _) (.refl s))
  case flr => exact fun f => State.does_kept hs (State.Kept.ite (s.flr_keeps f) (.refl s))
  case flrDone => exact fun f => State.does_kept hs (s.flrDone_keeps f)
  case config => exact fun f r w => State.does_kept hs (s.configRequest_keeps f r w)
  case unsupported => exact fun f read => State.does_kept hs (State.Kept.ite (s.unsupported_keeps f read) (.refl s))
  case error => exact fun f e => State.does_kept hs (s.pcieError_keeps f e)
  case windowRead => exact fun c tag off len => State.does_kept hs (s.bar4Read_keeps c tag.val off len)
  case windowWrite => exact fun c off data => State.does_kept hs (s.bar4Write_keeps c off data)
  case master => exact fun f => State.does_kept hs (State.Kept.ite (s.busMasterSet_keeps f false) (.refl s))
  case message => exact fun f v => State.does_onFn hs f _
  case claim => exact fun f v => State.does_kept hs (s.barRead_keeps none f .bar2 (0x9000 + 8 * v.val) 4)
  case l1 => exact State.does_kept hs (State.Kept.ite (s.onN_keeps _) (.refl s))

/-- Settles O22: no event of the logbook, the store or a calibration run leaves a device reset due. -/
theorem recordCommandsComplete : Obligations.RecordCommandsComplete := by
  unfold Obligations.RecordCommandsComplete
  intro s hs
  refine ⟨?accept, ?drain, ?datagram, ?storeEnd, ?storeTimeout, ?calTimeout, ?calDone, ?arp⟩
  case accept => exact State.does_kept hs s.acceptNext_keeps
  case drain => exact fun f => State.does_kept hs (s.ringLeave_keeps f)
  case datagram => exact State.does_kept hs (s.onLog_keeps _)
  case storeEnd => exact fun result => State.does_kept hs (s.storeDone_keeps _)
  case storeTimeout => exact State.does_kept hs (s.storeDone_keeps 4)
  case calTimeout => exact State.does_kept hs (State.Kept.trans (s.onCal_keeps _) (State.calSync_keeps _))
  case calDone => exact State.does_kept hs s.calFinish_keeps
  case arp => exact fun p ip mac => State.does_kept hs (s.arpReply_keeps p.val ip mac)

/-- An act on the ring part, with the change of the motion state it may bring, brings about no device reset. -/
theorem State.does_onRing {s : State} (hs : s.running) (f : BwNode → BwNode) : s.does (s.onRing f) = .next (s.onRing f) :=
  State.does_kept hs (s.onRing_keeps f)

/-- An act on the ring part that the motion state does not follow brings about no device reset. -/
theorem State.does_onBw {s : State} (hs : s.running) (f : BwNode → BwNode) : s.does (s.onBw f) = .next (s.onBw f) :=
  State.does_kept hs (s.onBw_keeps f)

/-- Settles O23: no frame, commit, echo or port state of the ring leaves a device reset due. -/
theorem ringCommandsComplete : Obligations.RingCommandsComplete := by
  unfold Obligations.RingCommandsComplete
  intro s hs
  refine ⟨?position, ?slate, ?commit, ?relay, ?echoFrame, ?echo, ?hello, ?delayReq, ?delayResp, ?crcDrop, ?helloSend, ?delayReqSend,
    ?positionSend, ?elect, ?rootTimeout, ?port⟩
  case position => exact fun p f => State.does_kept hs (s.ringPosition_keeps p.val f)
  case slate => exact fun p f => State.does_kept hs (s.ringSlate_keeps p.val f)
  case commit => exact State.does_kept hs s.ringCommit_keeps
  case relay => exact fun p f => State.does_kept hs (s.ringRelay_keeps p.val f)
  case echoFrame => exact fun p f => State.does_onRing hs _
  case echo => exact State.does_kept hs s.ringEcho_keeps
  case hello => exact fun p f => State.does_onRing hs _
  case delayReq => exact fun p f turn => State.does_onBw hs _
  case delayResp => exact fun p f => State.does_onRing hs _
  case crcDrop => exact fun p => State.does_kept hs (s.ringDrop_keeps p.val)
  case helloSend => exact State.does_onBw hs _
  case delayReqSend => exact State.does_onBw hs _
  case positionSend => exact State.does_kept hs s.ringSend_keeps
  case elect => exact State.does_onRing hs _
  case rootTimeout => exact State.does_onRing hs _
  case port => exact fun p st => State.does_kept hs (s.ringPort_keeps p.val st.val)

/-- Settles O24: a device taken down has no reset due, and no other of the events leaves one. -/
theorem powerEventsComplete : Obligations.PowerEventsComplete := by
  unfold Obligations.PowerEventsComplete
  intro s hs
  refine ⟨?decision, ?entryDone, ?wakeDone, ?trip, ?compare, ?supply, ?temp⟩
  case decision => exact fun c => State.does_onChan hs c _
  case entryDone => exact fun c => State.does_onUp hs c _
  case wakeDone => exact fun c => State.does_kept hs (s.wakeEnd_keeps c)
  case trip => exact State.does_running hs (s.deviceDown_due .thermal 1)
  case compare => exact State.does_kept hs (s.onMon_keeps _)
  case supply => exact fun mv current => State.does_kept hs (s.onMon_keeps _)
  case temp => exact fun ts => State.does_kept hs (s.onN_keeps _)

end Sys2Proof.Machine

end

/-! ## Interrupt controllers (17) -/

section

namespace Sys2Proof.Machine

/-! ### Writes of the controller page (R470, R478, R479, R484) -/

/-- Function `f` answers a write of its BARs at once: its link is up, memory requests reach it, and its channel is awake (R456, R458, R477). -/
structure State.AnswersOnBars (s : State) (f : Fin 7) : Prop where
  linkUp : s.linkUp = true
  noFlr : (s.fnNode f).fn.flr = false
  memEnable : (s.fnNode f).fn.memEnable = true
  notD3hot : (s.fnNode f).fn.d3hot = false
  awake : s.bar2Asleep f = false

/-- Four bytes written to a dword of BAR2's controller page write its register. -/
theorem Node.bar2Write_register {off v : Nat} (hpage : 0x8000 ≤ off ∧ off < 0xC000) (halign : off % 4 = 0) (hv : v < 2 ^ 32) (n : Node) :
    n.bar2Write off (leBytes 4 v) = n.icWriteReg off v := by
  have htable : ¬off < 0x400 := by omega
  have hfield : field (leBytes 4 v) 0 4 = v := by
    have hwhole : slice (leBytes 4 v) 0 4 = leBytes 4 v := List.take_of_length_le (Nat.le_of_eq (leBytes_length 4 v))
    rw [field, hwhole, ofLe_leBytes 4 v hv]
  simp only [Node.bar2Write, leBytes_length, if_neg htable, hpage, halign, and_self, if_true, hfield]

/-- The command of such a write is the write of the register by the function's unit. -/
theorem State.does_icWrite {s : State} {f : Fin 7} (hs : s.running) (ha : s.AnswersOnBars f) {off v : Nat}
    (hpage : 0x8000 ≤ off ∧ off < 0xC000) (halign : off % 4 = 0) (hv : v < 2 ^ 32) :
    s.does (s.barWrite none f .bar2 off (leBytes 4 v)) = .next (s.onFn f (·.icWriteReg off v)) := by
  obtain ⟨hlink, hflr, hmem, hd3, hawake⟩ := ha
  have hunit : (·.bar2Do (.write off (leBytes 4 v))) = (·.icWriteReg off v : Node → Node) :=
    funext (Node.bar2Write_register hpage halign hv)
  have hw : s.barWrite none f .bar2 off (leBytes 4 v) = s.onFn f (·.icWriteReg off v) := by
    simp [State.barWrite, State.hostWrite, State.hostGate, State.bar2Access, hlink, hflr, hmem, hd3, hawake, hunit]
  rw [hw, State.does_kept hs (s.onFn_keeps f _)]

/-- The registers of R479 of the sources lie between those of the controller. -/
theorem Node.icWriteReg_srcCfg (n : Node) (src : Fin 256) (v : Nat) : n.icWriteReg (0x8400 + 4 * src.val) v = n.srcCfgWrite src.val v := by
  have hlow {r : Nat} (h : r < 0x8400) : ¬0x8400 + 4 * src.val = r := by omega
  have hrange : 0x8400 ≤ 0x8400 + 4 * src.val ∧ 0x8400 + 4 * src.val < 0x8800 := by omega
  have hsrc : (0x8400 + 4 * src.val - 0x8400) / 4 = src.val := by omega
  rw [Node.icWriteReg, if_neg (hlow (by decide)), if_neg (hlow (by decide)), if_neg (hlow (by decide)), if_neg (hlow (by decide)),
    if_pos hrange, hsrc]

/-- Settles O41: each command is a write of its register, which the function's unit takes at once. -/
theorem controllerWritesComplete : Obligations.ControllerWritesComplete := by
  unfold Obligations.ControllerWritesComplete
  intro s f hs hlink hflr hmem hd3 hawake
  have ha : s.AnswersOnBars f := ⟨hlink, hflr, hmem, hd3, hawake⟩
  refine ⟨?complete, ?srcCfg, ?gctrl, ?swi⟩
  case complete => exact fun v hv => State.does_icWrite hs ha (by decide) (by decide) hv
  case srcCfg =>
    intro src v hv
    have hunit : (·.icWriteReg (0x8400 + 4 * src.val) v) = (·.srcCfgWrite src.val v : Node → Node) :=
      funext fun n => n.icWriteReg_srcCfg src v
    rw [← hunit]
    exact State.does_icWrite hs ha (by omega) (by omega) hv
  case gctrl => exact fun v hv => State.does_icWrite hs ha (by decide) (by decide) hv
  case swi => exact fun v hv => State.does_icWrite hs ha (by decide) (by decide) hv

/-! ### The winner of a vector (R465) -/

/-- The sources that compete for vector `v`, in ascending order. -/
def Node.rivals (n : Node) (v : Nat) : List Nat := n.allSources.filter fun x => n.eligible x && (n.src x).vec == v

theorem Node.mem_rivals {n : Node} {v x : Nat} :
    x ∈ n.rivals v ↔ 1 ≤ x ∧ x ≤ n.sources ∧ n.eligible x = true ∧ (n.src x).vec = v := by
  have hrange : x ∈ n.allSources ↔ 1 ≤ x ∧ x ≤ n.sources := by
    simp only [Node.allSources, List.mem_map, List.mem_range]
    exact ⟨fun ⟨a, ha, hx⟩ => by omega, fun ⟨hlo, hhi⟩ => ⟨x - 1, by omega, by omega⟩⟩
  simp only [Node.rivals, List.mem_filter, hrange, Bool.and_eq_true, beq_iff_eq, and_assoc]

theorem Node.rivals_ascend (n : Node) (v : Nat) : (n.rivals v).Pairwise (· < ·) :=
  (List.pairwise_lt_range.map (· + 1) fun _ _ h => Nat.add_lt_add_right h 1).filter _

/-- Source `w` comes before source `x`: by its priority, or among equals by its number. -/
def Node.outranks (n : Node) (w x : Nat) : Prop := (n.src x).prio < (n.src w).prio ∨ (n.src x).prio = (n.src w).prio ∧ w < x

theorem Node.outranks_trans {n : Node} {a b c : Nat} (hab : n.outranks a b) (hbc : n.outranks b c) : n.outranks a c := by
  unfold Node.outranks at *
  omega

theorem Node.not_outranks_of_outranks {n : Node} {a b : Nat} (h : n.outranks a b) : ¬n.outranks b a := by
  unfold Node.outranks at *
  omega

/-- Source `w` is the one of a list that comes before every other. -/
def Node.Leads (n : Node) (w : Nat) (l : List Nat) : Prop := w ∈ l ∧ ∀ x ∈ l, x ≠ w → n.outranks w x

theorem Node.Leads.of_perm {n : Node} {w : Nat} {l m : List Nat} (hw : n.Leads w l) (h : l.Perm m) : n.Leads w m :=
  ⟨h.mem_iff.mp hw.1, fun x hx => hw.2 x (h.mem_iff.mpr hx)⟩

/-- Two sources that lead a list would come before each other. -/
theorem Node.Leads.unique {n : Node} {w x : Nat} {l : List Nat} (hw : n.Leads w l) (hx : n.Leads x l) : w = x := by
  by_cases h : w = x
  case pos => exact h
  case neg => exact absurd (hx.2 w hw.1 h) (Node.not_outranks_of_outranks (hw.2 x hx.1 (Ne.symm h)))

/-- What leads a list without `b` leads it with `b` too, where it comes before `b`. -/
theorem Node.Leads.cons {n : Node} {w b : Nat} {l : List Nat} (hw : n.Leads w l) (hb : n.outranks w b) : n.Leads w (b :: l) := by
  refine ⟨List.mem_cons_of_mem b hw.1, fun x hx hne => ?_⟩
  rcases List.mem_cons.mp hx with rfl | hx
  · exact hb
  · exact hw.2 x hx hne

/-- What leads a list comes before whatever one of its members comes before. -/
theorem Node.Leads.outranks_of_mem {n : Node} {w x b : Nat} {l : List Nat} (hw : n.Leads w l) (hx : x ∈ l) (hb : n.outranks x b) :
    n.outranks w b := by
  by_cases h : x = w
  case pos => exact h ▸ hb
  case neg => exact Node.outranks_trans (hw.2 x hx h) hb

/-- One step of the scan: a source replaces the best so far where its priority is higher (R465). -/
def Node.better (n : Node) (best : Option Nat) (x : Nat) : Option Nat :=
  match best with
  | none => some x
  | some b => if (n.src b).prio < (n.src x).prio then some x else some b

theorem Node.winner_eq_scan (n : Node) (v : Nat) : n.winner v = (n.rivals v).foldl n.better none := rfl

/-- The scan of an ascending list finds what leads it: a source met later has the higher number. -/
theorem Node.scan_leads {n : Node} {b : Nat} {l : List Nat} (h : (b :: l).Pairwise (· < ·)) :
    ∃ w, l.foldl n.better (some b) = some w ∧ n.Leads w (b :: l) := by
  induction l generalizing b with
  | nil => exact ⟨b, rfl, List.mem_singleton_self b, fun x hx hne => absurd (List.mem_singleton.mp hx) hne⟩
  | cons x l ih =>
    obtain ⟨hlow, htail⟩ := List.pairwise_cons.mp h
    by_cases hprio : (n.src b).prio < (n.src x).prio
    case pos =>
      obtain ⟨w, hscan, hw⟩ := ih htail
      refine ⟨w, ?_, hw.cons (hw.outranks_of_mem List.mem_cons_self (.inl hprio))⟩
      rw [List.foldl_cons, Node.better, if_pos hprio, hscan]
    case neg =>
      obtain ⟨-, hrest⟩ := List.pairwise_cons.mp htail
      obtain ⟨w, hscan, hw⟩ := ih (List.pairwise_cons.mpr ⟨fun y hy => hlow y (List.mem_cons_of_mem x hy), hrest⟩)
      have hbx : n.outranks b x := by
        have := hlow x List.mem_cons_self
        unfold Node.outranks
        omega
      refine ⟨w, ?_, ?_⟩
      · rw [List.foldl_cons, Node.better, if_neg hprio, hscan]
      · exact (hw.cons (hw.outranks_of_mem List.mem_cons_self hbx)).of_perm (.swap b x l)

theorem Node.winner_eq_some_iff {n : Node} {v w : Nat} : n.winner v = some w ↔ n.Leads w (n.rivals v) := by
  have hascend := n.rivals_ascend v
  rw [n.winner_eq_scan]
  cases hl : n.rivals v with
  | nil => exact ⟨fun h => absurd h.symm (Option.some_ne_none w), fun h => absurd h.1 List.not_mem_nil⟩
  | cons b l =>
    obtain ⟨x, hscan, hx⟩ := Node.scan_leads (hl ▸ hascend)
    rw [List.foldl_cons, Node.better, hscan]
    exact ⟨fun h => Option.some.inj h ▸ hx, fun h => congrArg some (hx.unique h)⟩

theorem Node.winner_eq_none_iff {n : Node} {v : Nat} : n.winner v = none ↔ n.rivals v = [] := by
  have hascend := n.rivals_ascend v
  rw [n.winner_eq_scan]
  cases hl : n.rivals v with
  | nil => exact ⟨fun _ => rfl, fun _ => rfl⟩
  | cons b l =>
    obtain ⟨x, hscan, -⟩ := Node.scan_leads (hl ▸ hascend)
    rw [List.foldl_cons, Node.better, hscan]
    exact ⟨fun h => absurd h (Option.some_ne_none x), fun h => absurd h (List.cons_ne_nil b l)⟩

/-- Settles O45: the scan of the rivals finds the one that leads them. -/
theorem winnerIsTheHighestPriorityThenTheLowestNumber : Obligations.WinnerIsTheHighestPriorityThenTheLowestNumber := by
  unfold Obligations.WinnerIsTheHighestPriorityThenTheLowestNumber
  intro n
  refine ⟨?eligible, ?wins, ?noWinner⟩
  case eligible =>
    intro x
    simp only [Node.eligible, Bool.and_eq_true, Bool.not_eq_true', and_assoc]
  case wins =>
    intro v w
    simp only [Node.winner_eq_some_iff, Node.mem_rivals, and_imp, Node.Leads, Node.outranks]
  case noWinner =>
    intro v
    simp only [Node.winner_eq_none_iff, List.eq_nil_iff_forall_not_mem, Node.mem_rivals, not_and, ne_eq]

/-! ### One occurrence of a source (R463, R464) -/

/-- The stored states of a unit's sources, and its function: no log record changes them. -/
def Node.hostSide (n : Node) : List (Nat × SrcState) × Function := (n.srcs, n.fn)

theorem Node.hand_hostSide (n : Node) (r : LogRec) : (n.hand r).hostSide = n.hostSide := by
  unfold Node.hand
  split
  · rfl
  · rfl

theorem Node.trace_hostSide (n : Node) (x : Nat) : (n.trace x).hostSide = n.hostSide := by
  unfold Node.trace
  split
  case isFalse => rfl
  case isTrue =>
    split
    · rfl
    · exact Node.hand_hostSide _ _

/-- The stored state of a source after its occurrence. -/
def Node.occurred (n : Node) (x : Nat) : SrcState :=
  { n.src x with pend := (n.src x).pend || (n.level x).isNone, count := min 255 ((n.src x).count + 1) }

theorem Node.occur_srcs (n : Node) (x : Nat) : (n.occur x).srcs = (n.putSrc x (n.occurred x)).srcs :=
  congrArg Prod.fst (Node.trace_hostSide _ x)

theorem Node.src_occur_same (n : Node) (x : Nat) : (n.occur x).src x = n.occurred x := by
  rw [Node.src, Node.occur_srcs, Node.putSrc_srcs, tabGet_put_same]

theorem Node.src_occur_ne (n : Node) {x y : Nat} (h : y ≠ x) : (n.occur x).src y = n.src y := by
  rw [Node.src, Node.occur_srcs, Node.putSrc_srcs, tabGet_put_ne _ _ _ _ _ h]
  rfl

theorem Node.level_occur (n : Node) (x y : Nat) : (n.occur x).level y = n.level y := by
  have hchan : (n.occur x).chan = n.chan := congrArg (·.2.1) (n.occur_fixed x)
  rw [Node.level, hchan]
  rfl

/-- An edge source is pending as its stored bit says. -/
theorem Node.pending_edge {n : Node} {x : Nat} (h : n.level x = none) : n.pending x = (n.src x).pend := by
  rw [Node.pending, h]

/-- Settles O46: an occurrence stores only its source's PENDING and COUNT. -/
theorem occurrencesCountWhateverIsEnabled : Obligations.OccurrencesCountWhateverIsEnabled := by
  unfold Obligations.OccurrencesCountWhateverIsEnabled
  intro n x
  rw [Node.src_occur_same]
  refine ⟨rfl, fun hedge => ?_, fun y hy => n.src_occur_ne hy, rfl, rfl, rfl, rfl⟩
  rw [Node.pending_edge ((n.level_occur x x).trans hedge), Node.src_occur_same, Node.occurred, hedge]
  exact Bool.or_true _

/-! ### Bus Master Enable cleared (R459, R460) -/

theorem Node.putN_fn (n : Node) (k v : Nat) : (n.putN k v).fn = n.fn := rfl
theorem Node.add_fn (n : Node) (w k d : Nat) : (n.add w k d).fn = n.fn := rfl
theorem Node.addE_fn (n : Node) (w k i d : Nat) : (n.addE w k i d).fn = n.fn := rfl

theorem Node.occur_fn (n : Node) (x : Nat) : (n.occur x).fn = n.fn := congrArg Prod.snd (Node.trace_hostSide _ x)

theorem Node.setFlag_fn (n : Node) (k b : Nat) : (n.setFlag k b).fn = n.fn := by
  unfold Node.setFlag Node.putFlags
  split
  next x _ =>
    split
    · exact Node.occur_fn _ x
    · rfl
  next => rfl

/-- The counts of a path and its flags are objects of the unit. -/
theorem Node.pathCount_fn (n : Node) (path : Nat) (c : PathCount) : (n.pathCount path c).fn = n.fn := by
  simp only [Node.pathCount, apply_ite Node.fn, Node.setFlag_fn, ite_self, Node.addE_fn]

theorem bufTrim_fn (x : LogNode) : (bufTrim x).1.fn = x.1.fn := by
  unfold bufTrim
  dsimp only
  split
  · rfl
  · simp only [Node.setFlag_fn, Node.putN_fn, Node.add_fn]

theorem bufStore_fn (x : LogNode) (k : Nat) : (bufStore x k).1.fn = x.1.fn := by
  unfold bufStore
  rw [bufTrim_fn]
  apply foldl_const (fun x : LogNode => x.1.fn)
  intro y e
  exact Node.putN_fn _ _ _

theorem bufHigh_fn (x : LogNode) (was : Nat) : (bufHigh x was).1.fn = x.1.fn := by
  unfold bufHigh
  dsimp only
  split
  · exact Node.setFlag_fn _ _ _
  · rfl

theorem bufOffer_fn (r : LogRec) (seq : Nat) (refused : Bool) (x : LogNode) : (bufOffer r seq refused x).1.fn = x.1.fn := by
  unfold bufOffer
  rw [bufHigh_fn, bufStore_fn]
  exact Node.pathCount_fn _ _ _

theorem udpOffer_fn (r : LogRec) (seq : Nat) (refused : Bool) (x : LogNode) : (udpOffer r seq refused x).1.fn = x.1.fn :=
  Node.pathCount_fn _ _ _

theorem ringOffer_fn (r : LogRec) (seq : Nat) (refused : Bool) (x : LogNode) : (ringOffer r seq refused x).1.fn = x.1.fn :=
  Node.pathCount_fn _ _ _

/-- Offering a record to the common paths leaves the function. -/
theorem commonPaths_fn (r : LogRec) (seq : Nat) (refused : Bool) (x : LogNode) : (commonPaths r seq refused x).1.fn = x.1.fn := by
  unfold commonPaths
  simp only [apply_ite (fun x : LogNode => x.1.fn), bufOffer_fn, udpOffer_fn, ringOffer_fn, ite_self]

theorem udpWatch_fn (x : LogNode) : (udpWatch x).1.fn = x.1.fn := by
  unfold udpWatch
  split
  · exact Node.setFlag_fn _ _ _
  · rfl

theorem logNumber_fn (n : Node) (r : LogRec) : (logNumber n r true).2.fn = n.fn := by
  simp only [logNumber, if_true, Node.inc, Node.add_fn]

theorem State.onLogs_n (s : State) (f : LogNode → LogNode) : (s.onLogs f).common.n = (f (s.common.n, s.common.logs)).1 := rfl

theorem State.refuse1_fn (s : State) (r : LogRec) : (s.refuse1 r).common.n.fn = s.common.n.fn := by
  unfold State.refuse1
  split
  next seq n hnumber =>
    have hn : n.fn = s.common.n.fn := by rw [← logNumber_fn s.common.n r, hnumber]
    rw [State.onLogs_n, commonPaths_fn]
    exact hn

/-- What follows an act of the common block leaves PF0's function. -/
theorem State.tidy_fn (s : State) : s.tidy.common.n.fn = s.common.n.fn :=
  (udpWatch_fn _).trans (foldl_const (fun s : State => s.common.n.fn) State.refuse1 State.refuse1_fn _ _)

theorem State.onN_fn (s : State) (g : Node → Node) : (s.onN g).common.n.fn = (g s.common.n).fn := by
  rw [State.onN, State.tidy_fn, State.mapN_n]

/-- Bus Master Enable clear, and the function's writers held. -/
def Node.masterOff (n : Node) : Node := { n with fn := { n.fn with busMaster := false, held := true } }

/-- A function that is no bus master sends no message (R460). -/
theorem Node.msixOpen_of_noMaster {n : Node} (h : n.fn.busMaster = false) (v : Nat) : n.msixOpen v = false := by
  simp only [Node.msixOpen, h, Bool.and_false, Bool.false_and]

/-- A fold whose every step leaves its start ends there. -/
theorem foldl_of_fixed {α β : Type} {f : β → α → β} {b : β} (h : ∀ a, f b a = b) (l : List α) : l.foldl f b = b := by
  induction l with
  | nil => rfl
  | cons a l ih => rw [List.foldl_cons, h, ih]

/-- Where no vector may send, no held message leaves. -/
theorem Node.msixFlush_of_shut {n : Node} (h : ∀ v, n.msixOpen v = false) : n.msixFlush = n :=
  foldl_of_fixed (fun v => by simp only [h, Bool.and_false, Bool.false_eq_true, if_false]) _

/-- Clearing Bus Master Enable lets no message leave. -/
theorem State.busMasterSet_off (s : State) (f : Fin 7) : s.busMasterSet f false = s.onFn f Node.masterOff := by
  have hshut : (fun n : Node => n.masterOff.msixFlush) = Node.masterOff :=
    funext fun n => Node.msixFlush_of_shut (Node.msixOpen_of_noMaster rfl)
  have hheld (n : Node) : (n.fn.held || !false) = true := Bool.or_true _
  rw [← hshut]
  unfold State.busMasterSet
  simp only [hheld]
  rfl

/-- A silent channel stays silent, so that what follows the act leaves the act's state. -/
theorem State.onChan_masterOff {s : State} {c : Fin 6} (h : (s.chan c).silent) :
    (s.onChan c fun x => x.mapN Node.masterOff).chan c = (s.chan c).mapN Node.masterOff := by
  obtain ⟨hnotes, hfresh, hshed, hwaiting, hcause, hsig⟩ := h
  exact State.settle_quiet s c _ rfl hnotes hfresh hshed hwaiting hcause hsig

theorem State.fnNode_busMasterSet_off {s : State} {f : Fin 7} (h : ∀ c : Fin 6, c.val + 1 = f.val → (s.chan c).silent) :
    ((s.busMasterSet f false).fnNode f).fn = (s.fnNode f).masterOff.fn := by
  rw [State.busMasterSet_off]
  unfold State.onFn State.fnNode
  split
  next hchan =>
    rw [State.onChan_masterOff (h ⟨f.val - 1, hchan.1⟩ (Nat.sub_add_cancel (Nat.pos_of_ne_zero hchan.2)))]
    rfl
  next => exact s.onN_fn Node.masterOff

/-- Settles O57: the function keeps what the act gives it, and one that is no bus master has no vector open. -/
theorem masterDisableHoldsTheWriters : Obligations.MasterDisableHoldsTheWriters := by
  unfold Obligations.MasterDisableHoldsTheWriters
  intro s t f hs hlink hsilent h
  have hexec : exec (.busMasterDisable f) s = .next (s.busMasterSet f false) := by
    obtain ⟨-, -, -, -, -, -, -, -, -, -, -, -, hmaster, -⟩ := hostPortCommandsComplete s hs
    rw [hmaster, if_pos hlink]
  obtain rfl := Host.Outcome.next.inj (hexec.symm.trans h)
  have hfn := State.fnNode_busMasterSet_off hsilent
  have hmaster : ((s.busMasterSet f false).fnNode f).fn.busMaster = false := congrArg Function.busMaster hfn
  exact ⟨hmaster, congrArg Function.held hfn, Node.msixOpen_of_noMaster hmaster⟩

end Sys2Proof.Machine

end

/-! ## Channel memory (13) -/

section

namespace Sys2Proof.Machine

/-- Settles O53: byte by byte, each written where it belongs and leaving every other one. -/
theorem memoryReadsBackWhatWasWritten : Obligations.MemoryReadsBackWhatWasWritten := by
  unfold Obligations.MemoryReadsBackWhatWasWritten
  intro m a bs hwf
  refine ⟨memWrite_wf m a bs hwf, fun i hi => ?_, fun b hb => memGet_write_ne m a b bs hb⟩
  rw [memGet_memWrite_same hi]
  exact BitVec.toNat_ofNat ..

end Sys2Proof.Machine

end
